-- ==== Sys2Proof/Word.lean ====
section
/-!
DEFINITION. The widths the RP8K's words come in (R4).
-/
namespace Sys2Proof

/-- A word: 24 bits (R4). -/
abbrev W24 := BitVec 24

/-- An instruction word: 32 bits (R4). -/
abbrev W32 := BitVec 32

/-- An accumulator: 56 bits (R64). -/
abbrev W56 := BitVec 56

end Sys2Proof
end

