-- ==== Sys2Proof/Syntax.lean ====
section
/-!
DEFINITION. The commands of the block: one constructor for each row of the table of operations and events. An Ikimal
word carries the raw operand fields of R109 and R110; a register-write row carries the writer's identity (R168, R436;
63 for SMBus), the instance and the whole word written; an event row carries what the outside world decides.
-/
namespace Sys2Proof

/-- A byte. -/
abbrev Byte := BitVec 8

/-- What every Ikimal word carries beside its operands. `core`: 0 to 15 SE0 to SE15, 16 SU, 17 and 18 PC0 and PC1
(R62). `cond`: the COND field, or DCOND in a duet (R107, R108). `rsv`: the reserved operand bits as they stand (R110).
`ns`: when the word executes, in ns from the tick edge (R48). `mm`: the kind of difference SU's comparison finds at
this word, 0 for none (R261). `late`: the data of this word's loads arrives after its visibility point (R92).
`upset`: bits of the memory word it loads that have flipped since it was last written (R171, R191). `poison`: the
fetch from a prompter's program memory meets a poisoned word (R376). -/
structure Hdr where
  core : Fin 19
  cond : BitVec 4 := 0
  rsv : BitVec 20 := 0
  ns : BitVec 15 := 0
  mm : BitVec 3 := 0
  late : Bool := false
  upset : BitVec 30 := 0
  poison : Bool := false
deriving DecidableEq, Repr

/-- How an AVSBus transaction ends (R54, R55): whether it was a Voltage write and not a Voltage read or Status read, and
whether it succeeded. -/
structure AvsEnd where
  write : Bool := true
  ok : Bool
deriving DecidableEq, Repr

/-- The second operand of layouts A3, AI, AC and CI (R110). -/
inductive Src where
  | reg (rb : BitVec 5)
  | imm (v : BitVec 10)
deriving DecidableEq, Repr

/-- A shift amount: layouts A3 and AS (R113). -/
inductive Amt where
  | reg (rb : BitVec 5)
  | imm (s : BitVec 5)
deriving DecidableEq, Repr

/-- A window operand: layouts MW and WI (R118). -/
inductive WinRef where
  | reg (xn xo : BitVec 5) (d : BitVec 5)
  | imm (n : BitVec 12) (xo : BitVec 5)
deriving DecidableEq, Repr

/-- A bit operand: layouts BI and BX, with the raw space code SP (R120). -/
inductive BitRef where
  | imm (sp : BitVec 2) (addr : BitVec 15)
  | idx (sp : BitVec 2) (xa : BitVec 5) (d : BitVec 10)
deriving DecidableEq, Repr

/-- The channel of a DYN: layouts DY and DR (R123). -/
inductive ChRef where
  | imm (ch : BitVec 11)
  | reg (xc : BitVec 5)
deriving DecidableEq, Repr

/-- One sample a local port hands over at the ingress latch: the ingress channel less 8,192, the word and the flags
(R311, R360). -/
structure LocSample where
  ch : BitVec 10
  v : W24
  fl : BitVec 4
deriving DecidableEq, Repr

/-- What a port received a frame as (R280, R282): an express frame; a fragment with SMD-S of a frame count; a fragment
with SMD-C of a frame count and a fragment count. `more` is a fragment that another follows, with whether its mCRC is
good; a frame's last fragment ends with the FCS. -/
inductive MacPart where
  | express
  | start (frame : BitVec 2) (crcOk more : Bool)
  | cont (frame frag : BitVec 2) (crcOk more : Bool)
deriving DecidableEq, Repr

/-- What ends at a port: the bytes of a frame from the destination address to the last byte before the FCS, or those
of a fragment, what it was received as, whether the frame's FCS is good, whether the frame was cut short, the port being
disabled or its link falling (R275, R300), and the LP0 periods since the last tick edge at its end (R277, R330). -/
structure RxFrame where
  bytes : List Byte
  fcsOk : Bool
  part : MacPart := .express
  cut : Bool := false
  lp0 : BitVec 16 := 0
deriving DecidableEq, Repr

/-- A boundary at port `n`'s transmitter: the bytes of the current fragment sent before it, and the LP0 periods since the
last tick edge (R279, R281, R330). -/
structure TxPoint where
  n : Fin 4
  sent : BitVec 14 := 0
  lp0 : BitVec 16 := 0
deriving DecidableEq, Repr

/-- The express frame of port `n` that has waited XHOLD: the oldest of those its queue holds, or the one at the HEAD of
a TX ring (R286). -/
structure Waiter where
  n : Fin 4
  ring : Option (Fin 4) := none
deriving DecidableEq, Repr

/-- What a write of a control register brings: its word, and whether it has all of bytes 0 to 2, which only a host's can lack
(R382). -/
structure BusWord where
  word : W24
  whole : Bool := true
deriving DecidableEq, Repr

/-- What the host's write of a Market word brings: its byte enables, and the bits of the word that the stall finds
flipped where it reads it for the merge (R166, R171, R174). -/
structure HostBytes where
  be : BitVec 4
  flips : BitVec 30 := 0
deriving DecidableEq, Repr

/-- What a talkback port measures of an accessory (R370): ZT and ZRS in mΩ, and for ring 2 and for sleeve as the
microphone the resistance in mΩ with the forward and the reverse current, in one unit. -/
structure Accessory where
  zt : Nat
  zrs : Nat
  ring2 : Nat × Nat × Nat
  sleeve : Nat × Nat × Nat
deriving DecidableEq, Repr

/-- A mute interval of 20 ms that has run out at a talkback port: that of a button's release, or that of the bias
(R369). -/
structure MuteEnd where
  t : Fin 2
  button : Bool
deriving DecidableEq, Repr

/-- The commands. -/
inductive Instr where
  /-- NOP (R111). Executes a word that does nothing but still counts as one executed word. -/
  | nop (h : Hdr)
  /-- ADD (R112). Adds two registers or a register and a signed immediate, and sets Z N C V. -/
  | add (h : Hdr) (rd ra : BitVec 5) (b : Src)
  /-- ADDC (R112). Adds two registers plus the carry flag, and sets Z N C V. -/
  | addc (h : Hdr) (rd ra rb : BitVec 5)
  /-- SUB (R112). Subtracts a register or a signed immediate from a register, and sets Z N C V. -/
  | sub (h : Hdr) (rd ra : BitVec 5) (b : Src)
  /-- SUBB (R112). Subtracts a register and the borrow from a register, and sets Z N C V. -/
  | subb (h : Hdr) (rd ra rb : BitVec 5)
  /-- AND (R112). Bitwise AND of a register with a register or an unsigned immediate. -/
  | and (h : Hdr) (rd ra : BitVec 5) (b : Src)
  /-- OR (R112). Bitwise OR of a register with a register or an unsigned immediate. -/
  | or (h : Hdr) (rd ra : BitVec 5) (b : Src)
  /-- XOR (R112). Bitwise XOR of a register with a register or an unsigned immediate. -/
  | xor (h : Hdr) (rd ra : BitVec 5) (b : Src)
  /-- SHL (R113). Shifts a register left by a register or immediate amount, and sets C. -/
  | shl (h : Hdr) (rd ra : BitVec 5) (s : Amt)
  /-- SHR (R113). Shifts a register right with zero fill, and sets C. -/
  | shr (h : Hdr) (rd ra : BitVec 5) (s : Amt)
  /-- ASR (R113). Shifts a register right with sign fill, and sets C. -/
  | asr (h : Hdr) (rd ra : BitVec 5) (s : Amt)
  /-- ROL (R113). Rotates a register left by the amount modulo 24. -/
  | rol (h : Hdr) (rd ra : BitVec 5) (s : Amt)
  /-- MIN (R112). Writes the signed minimum of two registers. -/
  | min (h : Hdr) (rd ra rb : BitVec 5)
  /-- MAX (R112). Writes the signed maximum of two registers. -/
  | max (h : Hdr) (rd ra rb : BitVec 5)
  /-- CMP (R112). Compares a register with a register or an immediate, and sets the flags only. -/
  | cmp (h : Hdr) (ra : BitVec 5) (b : Src)
  /-- MOV (R112). Copies one register to another. -/
  | mov (h : Hdr) (rd ra : BitVec 5)
  /-- ABS (R112). Writes the absolute value of a register and flags the overflow of the most negative value. -/
  | abs (h : Hdr) (rd ra : BitVec 5)
  /-- NEG (R112). Writes zero minus a register. -/
  | neg (h : Hdr) (rd ra : BitVec 5)
  /-- MOVI (R112). Loads a sign-extended 15-bit immediate. -/
  | movi (h : Hdr) (rd : BitVec 5) (imm : BitVec 15)
  /-- MOVU (R112). Replaces bits 23:15 of a register with a 9-bit immediate. -/
  | movu (h : Hdr) (rd : BitVec 5) (imm : BitVec 9)
  /-- ADD_B (R86). Byte addition on bits 7:0 on a prompter with Glenex enabled. -/
  | addB (h : Hdr) (rd ra rb : BitVec 5)
  /-- ADDC_B (R86). Byte addition with carry on a prompter. -/
  | addcB (h : Hdr) (rd ra rb : BitVec 5)
  /-- SUB_B (R86). Byte subtraction on a prompter. -/
  | subB (h : Hdr) (rd ra rb : BitVec 5)
  /-- SUBB_B (R86). Byte subtraction with borrow on a prompter. -/
  | subbB (h : Hdr) (rd ra rb : BitVec 5)
  /-- CMP_B (R86). Byte compare on a prompter. -/
  | cmpB (h : Hdr) (ra rb : BitVec 5)
  /-- MPY (R114). Writes a product into an accumulator. -/
  | mpy (h : Hdr) (ad : BitVec 2) (xs xt : BitVec 5) (f : Bool)
  /-- MAC (R140). Adds a product to an accumulator under the accumulator mode. -/
  | mac (h : Hdr) (ad : BitVec 2) (xs xt : BitVec 5) (f : Bool)
  /-- MSU (R140). Subtracts a product from an accumulator under the accumulator mode. -/
  | msu (h : Hdr) (ad : BitVec 2) (xs xt : BitVec 5) (f : Bool)
  /-- MACR (R142). Multiply-accumulates and then rounds convergently at bit 24. -/
  | macr (h : Hdr) (ad : BitVec 2) (xs xt : BitVec 5) (f : Bool)
  /-- MAC2 (R115). Performs two multiply-accumulates into two accumulators in one word. -/
  | mac2 (h : Hdr) (a1 : BitVec 2) (s1 t1 : BitVec 3) (a2 : BitVec 2) (s2 t2 : BitVec 3) (m1 m2 f : Bool)
  /-- CLRA (R114). Clears the accumulators selected by the mask. -/
  | clra (h : Hdr) (mask : BitVec 4)
  /-- MOVA (R116). Writes an accumulator to a register with rounding and saturation. -/
  | mova (h : Hdr) (rd : BitVec 5) (as_ : BitVec 2) (rnd : BitVec 2) (ns : Bool)
  /-- EXP (R117). Writes the count of redundant sign bits of an accumulator. -/
  | exp (h : Hdr) (rd : BitVec 5) (as_ : BitVec 2)
  /-- NORM (R117). Normalises an accumulator and writes the shift that was applied. -/
  | norm (h : Hdr) (ad : BitVec 2) (rd : BitVec 5)
  /-- SCLA (R146). Shifts an accumulator by BE places, left or right. -/
  | scla (h : Hdr) (ad : BitVec 2) (right : Bool)
  /-- BXD (R117). Sets or lowers the block exponent BE from an accumulator. -/
  | bxd (h : Hdr) (as_ : BitVec 2) (start : Bool)
  /-- MFS (R124). Reads a special register into a register. -/
  | mfs (h : Hdr) (rd : BitVec 5) (sn : BitVec 6)
  /-- MTS (R124). Writes a special register, with the outcomes that depend on the target. -/
  | mts (h : Hdr) (rs : BitVec 5) (sn : BitVec 6)
  /-- LD (R118). Loads a Market or program-space word, visible three words later. -/
  | ld (h : Hdr) (sp : BitVec 2) (rd xa : BitVec 5) (bk : BitVec 2) (d : BitVec 8)
  /-- ST (R118). Stores a register to a Market word. -/
  | st (h : Hdr) (sp : BitVec 2) (rs xa : BitVec 5) (bk : BitVec 2) (d : BitVec 8)
  /-- LDP (R118). Loads a pocket or local data word. -/
  | ldp (h : Hdr) (rd xa : BitVec 5) (d : BitVec 10)
  /-- STP (R118). Stores a register to a pocket or local data word. -/
  | stp (h : Hdr) (rs xa : BitVec 5) (d : BitVec 10)
  /-- LDC (R82). Reads a control-space address. -/
  | ldc (h : Hdr) (rd xa : BitVec 5) (d : BitVec 10)
  /-- STC (R82). Writes a control-space address from a prompter, and is dropped with UND on an engine. -/
  | stc (h : Hdr) (rs xa : BitVec 5) (d : BitVec 10)
  /-- LDB (R85). Loads a byte of the Glenex byte space. -/
  | ldb (h : Hdr) (rd xa : BitVec 5) (d : BitVec 10)
  /-- STB (R85). Stores a byte to the Glenex byte space and clears bits 23:8 of the word. -/
  | stb (h : Hdr) (rs xa : BitVec 5) (d : BitVec 10)
  /-- LDW (R81). Loads a word from a circular window at an offset from its head. -/
  | ldw (h : Hdr) (rd : BitVec 5) (wr : WinRef)
  /-- STW (R81). Stores a word to a circular window at an offset from its head. -/
  | stw (h : Hdr) (rs : BitVec 5) (wr : WinRef)
  /-- BSET (R121). Sets a local bit, or queues a set of a Board bit. -/
  | bset (h : Hdr) (b : BitRef)
  /-- BCLR (R121). Clears a local bit, or queues a clear of a Board bit. -/
  | bclr (h : Hdr) (b : BitRef)
  /-- BTGL (R121). Toggles a local bit, or queues a toggle of a Board bit. -/
  | btgl (h : Hdr) (b : BitRef)
  /-- BTST (R121). Sets Z from a local bit or Board bit. -/
  | btst (h : Hdr) (b : BitRef)
  /-- BMOV (R121). Copies a local bit or Board bit into a predicate. -/
  | bmov (h : Hdr) (p : BitVec 3) (b : BitRef)
  /-- BPUT (R121). Writes a predicate into a local bit or Board bit. -/
  | bput (h : Hdr) (p : BitVec 3) (b : BitRef)
  /-- PAND (R121). ANDs two optionally inverted predicates into a predicate. -/
  | pand (h : Hdr) (pd pa pb : BitVec 3) (na nb : Bool)
  /-- POR (R121). ORs two optionally inverted predicates into a predicate. -/
  | por (h : Hdr) (pd pa pb : BitVec 3) (na nb : Bool)
  /-- PXOR (R121). XORs two optionally inverted predicates into a predicate. -/
  | pxor (h : Hdr) (pd pa pb : BitVec 3) (na nb : Bool)
  /-- DYN (R123). Sends a sample to a dynamics channel and receives the processed sample five words later. -/
  | dyn (h : Hdr) (rd rs : BitVec 5) (ch : ChRef)
  /-- COLLECT (R234). Sends an accumulator contribution to a bus through the Collector. -/
  | collect (h : Hdr) (as_ : BitVec 2) (idle : Bool) (bus : BitVec 9)
  /-- TUCMD (R151). Queues a transform descriptor at a transform unit. -/
  | tucmd (h : Hdr) (unit bk : BitVec 2) (xa : BitVec 5) (d : BitVec 8)
  /-- BRA (R122). Branches relative to the PC. -/
  | bra (h : Hdr) (off : BitVec 15)
  /-- CALL (R72). Calls a routine, sliding the register window, with the overflow outcome of its profile. -/
  | call (h : Hdr) (off : BitVec 15)
  /-- CALLR (R72). Calls a routine whose address is held in a register. -/
  | callr (h : Hdr) (xs : BitVec 5)
  /-- RET (R72). Returns to lk and slides the window back. -/
  | ret (h : Hdr)
  /-- LOOP (R94). Pushes a hardware loop level with an immediate count. -/
  | loop (h : Hdr) (count : BitVec 12) (e : BitVec 8)
  /-- LOOPR (R94). Pushes a hardware loop level with a count held in a register. -/
  | loopr (h : Hdr) (xc : BitVec 5) (e : BitVec 15)
  /-- LEAVE (R96). Pops the top loop level. -/
  | leave (h : Hdr)
  /-- REP (R97). Latches an immediate repeat count for the following word. -/
  | rep (h : Hdr) (n : BitVec 13)
  /-- REPR (R97). Latches a repeat count from a register for the following word. -/
  | repr (h : Hdr) (xs : BitVec 5)
  /-- END (R122). Ends the engine's program for the tick, and slack is measured from it. -/
  | endProg (h : Hdr)
  /-- TRAP (R103). Traps a prompter to vector 0040h with the trap number. -/
  | trap (h : Hdr) (num : BitVec 4)
  /-- RETI (R101). Returns from an interrupt or trap context. -/
  | reti (h : Hdr)
  /-- WAIT (R105). Stops a prompter until an unmasked interrupt source is pending. -/
  | wait (h : Hdr)
  /-- DUET (R126). Executes a duet word whose two short operations read before either writes. -/
  | duet (h : Hdr) (sa : BitVec 5) (oa : BitVec 9) (sb : BitVec 5) (ob : BitVec 9)
  /-- UNASSIGNED_OPCODE (R131). Executes an unassigned long opcode, which acts as NOP, ends the program or traps according to UDTRAP. -/
  | unassigned (h : Hdr) (op : BitVec 7) (opd : BitVec 20)
  /-- LOAD_DATA_ARRIVAL (R92). Late load data arrives and releases a word held on it. -/
  | loadDataArrival (c : Fin 19) (r : BitVec 7)
  /-- COLLECT_FIFO_ROOM (R236). A source FIFO entry frees and releases an engine held on COLLECT. -/
  | collectFifoRoom (c : Fin 17)
  /-- TICK_EDGE (R31). A tick edge starts the tick sequence with the egress latch and the cue point. -/
  | tickEdge (dt : BitVec 16)
  /-- INGRESS_LATCH (R311). Publishes the sample of every ingress channel to the ingress frame. -/
  | ingressLatch (loc : List LocSample)
  /-- RAMP_PHASE (R228). Writes one step to every active ramp slot. -/
  | rampPhase
  /-- WINDOW_HEAD_ADVANCE (R187). Advances every window head by its step. -/
  | windowHeadAdvance
  /-- ENGINE_RUN (R69). Each running engine starts at stage word 0 from the start-of-tick state. -/
  | engineRun
  /-- CUT_OFF_POINT (R40). TICK stops every engine that has not reached END. -/
  | cutOffPoint
  /-- COLLECTOR_DRAIN (R235). A lane takes one contribution from a source FIFO and adds it exactly into its bus sum. -/
  | collectorDrain (lane : Fin 4) (ns : BitVec 15)
  /-- BUS_OUTPUT_STAGE (R242). Scales, saturates and curtains each bus sample in the tick after its sum. -/
  | busOutputStage
  /-- DYN_SERVICE (R248). A dynamics unit serves one call: key, delay, detector, gain and output. -/
  | dynService (u : Fin 4)
  /-- SU_KAT_END (R263). SU's known-answer test reaches END, and its signature is judged. -/
  | suKatEnd
  /-- SU_TAKEOVER_CMD (R269). A write of SU.CMD.TAKEOVER requests a takeover of a position. -/
  | suTakeoverCmd (w : BitVec 6) (v : W24)
  /-- SU_RELEASE (R270). A write of SU.CMD.RELEASE returns the position to its engine with a retest. -/
  | suRelease (w : BitVec 6) (v : W24)
  /-- SU_CLRFAULT (R271). A write of CLRFAULT makes SU run its test again from FAULT. -/
  | suClrfault (w : BitVec 6) (v : W24)
  /-- SU_ENABLE_WRITE (R270). A write of SU.CTRL.ENABLE starts SU, or drains and releases it. -/
  | suEnableWrite (w : BitVec 6) (v : W24)
  /-- SE_ENABLE_WRITE (R134). A write of ENG_CTRL.ENABLE starts an engine, or drains it and closes its curtains. -/
  | seEnableWrite (w : BitVec 6) (n : Fin 16) (v : W24)
  /-- OVR_STAT_REOPEN (R43). A write of REOPEN opens closed overrun curtains. -/
  | ovrStatReopen (w : BitVec 6) (n : Fin 16) (v : W24)
  /-- OVR_STAT_CLR (R45). Clears an engine's overrun COUNT. -/
  | ovrStatClr (w : BitVec 6) (n : Fin 16) (v : W24)
  /-- DUET_CLASH_CLR (R129). Clears a clash counter. -/
  | duetClashClr (w : BitVec 6) (n : Fin 18) (v : W24)
  /-- UND_PC_CLR (R135). Clears an engine's UND record. -/
  | undPcClr (w : BitVec 6) (n : Fin 16) (v : W24)
  /-- STICKY_CLR (R272). Clears an engine's mismatch count. -/
  | stickyClr (w : BitVec 6) (n : Fin 16) (v : W24)
  /-- PKT_ECC_CLR (R191). Clears a pocket's ECC counts. -/
  | pktEccClr (w : BitVec 6) (n : Fin 17) (v : W24)
  /-- MMLOG_CLR (R262). Clears SU.MMLOG. -/
  | mmlogClr (w : BitVec 6) (v : W24)
  /-- MARKET_ACCESS (R170). A stall grants one access, with ECC correction or poisoning on a read. -/
  | marketAccess (m : BitVec 6) (a : BitVec 26) (wr : Option W24) (flips : BitVec 30) (wait : W24)
  /-- SCRUB_WRITE (R171). A stall writes a corrected word back in a handshake with no grant. -/
  | scrubWrite (k : Fin 129)
  /-- BAR2_WRITE (R166). A host write to the Market, merged by read-modify-write when partial. -/
  | bar2Write (a : BitVec 26) (be : HostBytes) (v : W32)
  /-- MKTS_CLR (R171). Clears a stall's CE and UE counts. -/
  | mktsClr (w : BitVec 6) (n : Fin 129) (v : W24)
  /-- UE_LOG_CLR (R173). Clears MKT.UE_LOG0 and UE_LOG1. -/
  | ueLogClr (w : BitVec 6) (v : W24)
  /-- SPARE_GO (R177). A write of MKT.SPARE.GO starts sparing of a stall. -/
  | spareGo (w : BitVec 6) (v : W24)
  /-- SPARING_REDIRECT (R177). Sparing completes its copy and redirects the stall to STU for good. -/
  | sparingRedirect
  /-- REHEARSAL_SLOT_START (R180). A rehearsal slot starts the copy-out of a stall into STU, or a scan or STU test. -/
  | rehearsalSlotStart
  /-- REHEARSAL_COPY_OUT_DONE (R180). Copy-out completes, and accesses are redirected to STU for the test. -/
  | rehearsalCopyOutDone
  /-- REHEARSAL_TEST_DONE (R180). The March test of the stall ends, and copy-back or sparing follows. -/
  | rehearsalTestDone (failed : Bool)
  /-- REHEARSAL_COPY_BACK_DONE (R180). Copy-back completes, and the stall returns to service. -/
  | rehearsalCopyBackDone
  /-- REH_ENABLE_WRITE (R184). A write of REH.CTRL.EN starts or drains rehearsal. -/
  | rehEnableWrite (w : BitVec 6) (v : W24)
  /-- WIN_HEAD_WRITE (R187). A write sets a window head modulo its length. -/
  | winHeadWrite (w : BitVec 6) (n : BitVec 12) (v : W24)
  /-- WLIVE_LOAD (R189). Copies a live window into the staging fields. -/
  | wliveLoad (w : BitVec 6) (v : W24)
  /-- WLIVE_APPLY (R189). Installs the staging fields as the live and next copies of a window. -/
  | wliveApply (w : BitVec 6) (v : W24)
  /-- WLIVE_DONE (R189). A live-port LOAD or APPLY completes, and held writes proceed. -/
  | wliveDone
  /-- WCLAMP_CLR (R189). Clears the window clamp count. -/
  | wclampClr (w : BitVec 6) (v : W24)
  /-- BOARD_VIEW_SET (R193). A write to MKT.BOARD queues a set of up to 16 Board bits. -/
  | boardViewSet (w : BitVec 6) (i : BitVec 12) (v : W24)
  /-- BOARD_VIEW_CLR (R193). A write to MKT.BOARD_CLR queues a clear of up to 16 Board bits. -/
  | boardViewClr (w : BitVec 6) (i : BitVec 12) (v : W24)
  /-- TU_QPUSH (R151). A write to QPUSH submits a transform descriptor. -/
  | tuQpush (w : BitVec 6) (u : Fin 2) (v : W24)
  /-- TU_DESCRIPTOR_START (R147). A transform unit starts a queued descriptor and reads its words. -/
  | tuDescriptorStart (u : Fin 2)
  /-- TU_DESCRIPTOR_END (R161). A transform completes: destination, status, then the Board bit. -/
  | tuDescriptorEnd (u : Fin 2)
  /-- TU_ENABLE_WRITE (R163). A write of TUn.CTRL.ENABLE runs the unit or drains it. -/
  | tuEnableWrite (w : BitVec 6) (u : Fin 2) (v : W24)
  /-- TU_CNT_CLR (R164). Clears a transform unit's counters. -/
  | tuCntClr (w : BitVec 6) (u : Fin 2) (v : W24)
  /-- VAULT_DATA_ACCESS (R194). A secure access to VAULT.DATA reaches a vault word, and ADDR auto-increments. -/
  | vaultDataAccess (w : BitVec 6) (wr : Option W24) (upset : BitVec 30)
  /-- WRAP (R196). Starts sealing vault words into a blob under the battery key. -/
  | wrap (w : BitVec 6) (v : W24)
  /-- UNWRAP (R198). Starts opening and checking a vault blob. -/
  | unwrap (w : BitVec 6) (v : W24)
  /-- VAULT_CMD_DONE (R198). WRAP or UNWRAP completes and sets RESULT. -/
  | vaultCmdDone
  /-- SHA384 (R405). Crypto command that hashes CLEN bytes. -/
  | sha384 (w : BitVec 6) (v : W24)
  /-- GCMENC (R405). Crypto command that encrypts with AES-256-GCM. -/
  | gcmenc (w : BitVec 6) (v : W24)
  /-- GCMDEC (R405). Crypto command that decrypts and verifies with AES-256-GCM. -/
  | gcmdec (w : BitVec 6) (v : W24)
  /-- SIGN (R405). Crypto command that makes an ECDSA P-384 signature. -/
  | sign (w : BitVec 6) (v : W24)
  /-- VERIFY (R405). Crypto command that checks an ECDSA P-384 signature. -/
  | verify (w : BitVec 6) (v : W24)
  /-- KEYGEN (R405). Crypto command that makes a P-384 key pair. -/
  | keygen (w : BitVec 6) (v : W24)
  /-- RANDOM (R405). Crypto command that draws random bytes. -/
  | random (w : BitVec 6) (v : W24)
  /-- CRYPTO_DONE (R405). A crypto command ends and raises interrupt source 22. -/
  | cryptoDone
  /-- CUE_SUBMIT (R215). A write of CTL.VALID = 1 submits a cue entry. -/
  | cueSubmit (w : BitVec 6) (n : Fin 64) (v : W24)
  /-- CUE_ENTRY_CANCEL (R215). A write of CTL.VALID = 0 cancels an entry. -/
  | cueEntryCancel (w : BitVec 6) (n : Fin 64) (v : W24)
  /-- CUE_LOAD (R210). CUE.LOAD.GO with MODE LOAD starts the load of an image slot. -/
  | cueLoad (w : BitVec 6) (v : W24)
  /-- CUE_VERIFY (R212). CUE.LOAD.GO with MODE VERIFY checks wings already written against a slot. -/
  | cueVerify (w : BitVec 6) (v : W24)
  /-- AUTOLOAD (R217). The cue unit starts a load of the head entry's slot by itself. -/
  | autoload
  /-- CUE_LOAD_DONE (R212). A load or verify completes with its RESULT and validates or invalidates the wings. -/
  | cueLoadDone
  /-- CUE_SLOT_WRITE (R214). A write to CUE.SLOTn moves a slot base and may invalidate the wings. -/
  | cueSlotWrite (w : BitVec 6) (n : Fin 16) (hi : Bool) (v : W24)
  /-- CUE_ENABLE_WRITE (R221). A write of CUE.CTRL.ENABLE starts or drains the execution of cues. -/
  | cueEnableWrite (w : BitVec 6) (v : W24)
  /-- WINGS_WRITE (R200). A porter or BAR4 write to wings invalidates them and disarms the cue. -/
  | wingsWrite (p : Fin 17) (a : BitVec 14) (v : W32)
  /-- RAMP_GO (R230). Makes a slot's next copies live and starts a ramp. -/
  | rampGo (w : BitVec 6) (n : BitVec 12) (v : W24)
  /-- RAMP_ENABLE_WRITE (R232). Enables the ramp unit, or drains it. -/
  | rampEnableWrite (w : BitVec 6) (v : W24)
  /-- RAMP_STAT_CLR (R232). Clears RAMP.STAT.REFUSED. -/
  | rampStatClr (w : BitVec 6) (v : W24)
  /-- COLL_ENABLE_WRITE (R246). Enables the Collector, or drains it with the DIS cause on every bus. -/
  | collEnableWrite (w : BitVec 6) (v : W24)
  /-- COLL_STAT_CLR (R237). Clears the Collector's DROPPED and LATE counts. -/
  | collStatClr (w : BitVec 6) (v : W24)
  /-- CURT_CLOSE (R258). Sets the SW cause of an egress channel's curtain. -/
  | curtClose (w : BitVec 6) (v : W24)
  /-- CURT_OPEN (R258). Clears the SW cause of an egress channel's curtain. -/
  | curtOpen (w : BitVec 6) (v : W24)
  /-- DU_ENABLE_WRITE (R253). Enables a dynamics unit, or drains it. -/
  | duEnableWrite (w : BitVec 6) (n : Fin 4) (v : W24)
  /-- DU_STAT_CLR (R253). Clears a unit's MAXCALLS and REFUSED. -/
  | duStatClr (w : BitVec 6) (n : Fin 4) (v : W24)
  /-- GOV_WINDOW_END (R49). At each governor window end, vreq is updated from the least slack. -/
  | govWindowEnd
  /-- AVS_TRANSACTION_END (R55). An AVSBus transaction ends, is acknowledged or is retried, and may freeze vreq. -/
  | avsTransactionEnd (ok : AvsEnd)
  /-- AVS_RETRY (R55). The frozen governor retries the pending voltage write every 100 ms. -/
  | avsRetry
  /-- GOV_LIMITS_WRITE (R53). A write to GOV_LIMITS is taken, or refused with CFGERR. -/
  | govLimitsWrite (w : BitVec 6) (v : W24)
  /-- WATCHDOG_KICK (R29). Reloads a prompter watchdog count. -/
  | watchdogKick (w : BitVec 6) (n : Fin 2) (v : W24)
  /-- WATCHDOG_EXPIRY (R30). A prompter watchdog count reaches zero: report, alert and optional prompter reset. -/
  | watchdogExpiry (n : Fin 2)
  /-- LINK_UP (R274). A training port holds block lock for 10 ms and comes UP. -/
  | linkUp (n : Fin 4)
  /-- LINK_DOWN (R275). A port falls DOWN on loss of signal, lock, link PLL, disable, step or configuration change. -/
  | linkDown (n : Fin 4) (cause : BitVec 3)
  /-- PORT_CONFIG_WRITE (R274). A write of SPEED, FEC or LPSEL retrains the link. -/
  | portConfigWrite (w : BitVec 6) (n : Fin 4) (v : W24)
  /-- PORT_ENABLE_WRITE (R300). Enables a port, or drains it and takes the link down. -/
  | portEnableWrite (w : BitVec 6) (n : Fin 4) (v : W24)
  /-- FRAME_RECEIVE (R277). A received frame is accepted or discarded and dispatched. -/
  | frameReceive (n : Fin 4) (f : RxFrame)
  /-- STREAM_PACKET (R313). A stream packet's samples are written into the jitter buffer. -/
  | streamPacket (n : Fin 4) (bytes : List Byte)
  /-- PAUSE_FRAME (R283). A PAUSE frame pauses, refreshes or resumes the paused class. -/
  | pauseFrame (n : Fin 4) (q : BitVec 16)
  /-- PAUSE_END (R283). The pause time runs out, and the paused class resumes. -/
  | pauseEnd (n : Fin 4)
  /-- PAUSE_STORM (R284). Continuous pause reaches the watchdog, and the port resumes and holds off. -/
  | pauseStorm (n : Fin 4)
  /-- HOLDOFF_END (R284). The PAUSE holdoff period ends. -/
  | holdoffEnd (n : Fin 4)
  /-- EXPRESS_DISCARD (R286). An express frame that has waited XHOLD is discarded. -/
  | expressDiscard (n : Waiter)
  /-- VERIFY_MPACKET (R280). A received verify mPacket is answered with a respond mPacket. -/
  | verifyMpacket (n : Fin 4)
  /-- RESPOND_MPACKET (R280). A received respond mPacket makes preemption ACTIVE. -/
  | respondMpacket (n : Fin 4)
  /-- VERIFY_TIMER (R280). VTIME expires, and the port resends a verify or fails. -/
  | verifyTimer (n : Fin 4)
  /-- FRAME_BOUNDARY (R279). At a frame or fragment boundary, the transmitter chooses the next frame. -/
  | frameBoundary (n : TxPoint)
  /-- STEP_REQUEST (R291). A port whose step conditions hold sends a rate-step REQ. -/
  | stepRequest (n : Fin 4)
  /-- STEP_REQ_FRAME (R291). A received REQ is answered with ACK or NAK. -/
  | stepReqFrame (n : Fin 4) (bytes : List Byte)
  /-- STEP_ACK_FRAME (R291). A received ACK sets the switch time and STEP SWITCHING. -/
  | stepAckFrame (n : Fin 4) (bytes : List Byte)
  /-- STEP_NAK_FRAME (R291). A received NAK fails the step request. -/
  | stepNakFrame (n : Fin 4) (bytes : List Byte)
  /-- STEP_REQ_TIMEOUT (R291). No answer within 2 ms, and the REQ is resent or the step fails. -/
  | stepReqTimeout (n : Fin 4)
  /-- STEP_SWITCH (R291). At the switch time, the port closes its frame and changes rate. -/
  | stepSwitch (n : Fin 4)
  /-- STEP_UP_TIMEOUT (R291). The link is not UP 500 ms after the switch, and the port fails back to SPEED. -/
  | stepUpTimeout (n : Fin 4)
  /-- PARTNER_EXPIRY (R292). The LLDP time-to-live of the Ouvlor TLV ends, and PARTNER clears. -/
  | partnerExpiry (n : Fin 4)
  /-- PORT_STEP_WRITE (R305). A write to PORTn.STEP is taken, or refused with CFGERR. -/
  | portStepWrite (w : BitVec 6) (n : Fin 4) (v : W24)
  /-- PORT_CNTCLR (R307). Clears every counter of a port. -/
  | portCntclr (w : BitVec 6) (n : Fin 4) (v : W24)
  /-- RING_TAIL_WRITE (R293). Software advances a ring's TAIL and gives descriptors to the port. -/
  | ringTailWrite (w : BitVec 6) (r : Fin 8) (v : W24)
  /-- RING_ENABLE_WRITE (R299). Enables a host frame ring, or drains it. -/
  | ringEnableWrite (w : BitVec 6) (r : Fin 8) (v : W24)
  /-- RING_CLR (R299). Clears a ring's DISCARD count. -/
  | ringClr (w : BitVec 6) (r : Fin 8) (v : W24)
  /-- TWI_GO (R276). Starts a two-wire transaction on a module bus. -/
  | twiGo (w : BitVec 6) (v : W24)
  /-- TWI_DONE (R276). A two-wire transaction ends with its RESULT. -/
  | twiDone (res : BitVec 2) (data : List Byte)
  /-- STREAM_ENABLE (R318). A write of EN = 1 enables a stream after the checks, or records CFGERR. -/
  | streamEnable (w : BitVec 6) (tx : Bool) (s : BitVec 10) (v : W24)
  /-- RX_STREAM_DISABLE (R319). A write of EN = 0 drains a receive stream. -/
  | rxStreamDisable (w : BitVec 6) (s : BitVec 10) (v : W24)
  /-- TX_STREAM_DISABLE (R323). A write of EN = 0 drains a transmit stream after its last packet. -/
  | txStreamDisable (w : BitVec 6) (s : BitVec 10) (v : W24)
  /-- STRM_ENABLE_WRITE (R311). Drains or restarts every stream. -/
  | strmEnableWrite (w : BitVec 6) (v : W24)
  /-- STRM_CLR (R311). Clears the counters of one stream. -/
  | strmClr (w : BitVec 6) (v : W24)
  /-- LIVE_TIMEOUT (R314). A leg accepts no packet for 8 packet times and LIVE clears. -/
  | liveTimeout (s : BitVec 10) (legB : Bool)
  /-- MC_HI_READ (R442). A read of MC_HI latches MC_LO. -/
  | mcHiRead (w : BitVec 6)
  /-- TIME_SNAP (R333). Latches the time base into the RD registers. -/
  | timeSnap (w : BitVec 6) (v : W24)
  /-- TIME_SET (R329). Requests that the time base be loaded from the WR registers. -/
  | timeSet (w : BitVec 6) (v : W24)
  /-- TIME_ADD (R329). Requests that a signed offset be added to the time base. -/
  | timeAdd (w : BitVec 6) (v : W24)
  /-- TIME_STEP_APPLY (R329). A SET or ADD takes effect at an LP0 boundary, posting PTP_JUMP when large. -/
  | timeStepApply
  /-- TAI_SECOND (R378). TIME passes a whole TAI second. -/
  | taiSecond
  /-- S1EN_WRITE (R341). Enables or stops stage-1 steering. -/
  | s1enWrite (w : BitVec 6) (v : W24)
  /-- S2EN_WRITE (R335). Starts or stops stage 2. -/
  | s2enWrite (w : BitVec 6) (v : W24)
  /-- FAMILY_CHANGE (R352). A write of MCS.CTRL.FAMILY changes the rate family. -/
  | familyChange (w : BitVec 6) (v : W24)
  /-- REF_SEL_WRITE (R344). A change of reference coasts stage 1 and selects the new reference. -/
  | refSelWrite (w : BitVec 6) (v : W24)
  /-- S2CAL_GO (R337). Starts the measurement of a stage-2 band. -/
  | s2calGo (w : BitVec 6) (v : W24)
  /-- S2CAL_DONE (R337). A band measurement reports VTUNE. -/
  | s2calDone (vtune : BitVec 8)
  /-- S2_LOCK_ATTEMPT (R335). Stage 2 chooses its band from the table and tries to lock. -/
  | s2LockAttempt (tj : BitVec 8)
  /-- S2_LOCKED (R335). Stage 2 locks, and the tick returns to it from the fallback synthesiser. -/
  | s2Locked
  /-- S2_UNLOCK (R336). Stage 2 is declared unlocked, and the tick moves to the fallback synthesiser. -/
  | s2Unlock (tj : BitVec 8)
  /-- REF_VALID (R339). The reference becomes valid, and stage 1 starts to acquire. -/
  | refValid
  /-- REF_QUALIFIED (R339). The reference stays valid for RQUAL, and stage 1 sets the DAC to the measured frequency. -/
  | refQualified (dac : BitVec 20)
  /-- REF_INVALID (R344). The reference stops being valid, and stage 1 coasts. -/
  | refInvalid
  /-- LOOP_UPDATE (R340). The stage-1 loop updates the DAC every 1 ms. -/
  | loopUpdate (err : BitVec 32) (dac : BitVec 24)
  /-- LOCK_DECLARED (R342). The comparator has stayed high for 5 ms, and lock is declared. -/
  | lockDeclared
  /-- LOCK_LOST (R342). The comparator falls, and lock is lost. -/
  | lockLost
  /-- NOLOCK_TIMEOUT (R343). No lock has been declared 2 s after acquisition starts. -/
  | nolockTimeout (win : Bool)
  /-- RETURN (R345). Stage 1 leaves COAST or sees a jump, and slews or realigns. -/
  | mcsReturn (err : BitVec 32)
  /-- SLEW_DONE (R346). The slew brings the tick error to zero. -/
  | slewDone
  /-- LP_LOCK_ATTEMPT (R353). A link PLL searches its bands and locks. -/
  | lpLockAttempt (n : Fin 2) (band : BitVec 5) (locks : Bool)
  /-- LP_LOSS (R353). A link PLL loses lock. -/
  | lpLoss (n : Fin 2) (absent : Bool)
  /-- LP_ENABLE_WRITE (R353). Starts or stops a link PLL. -/
  | lpEnableWrite (w : BitVec 6) (n : Fin 2) (v : W24)
  /-- SLAVE_FRAME (R357). A slave-timed frame is received and placed in a tick window. -/
  | slaveFrame (p : Fin 26) (inGuard badLen : Bool) (phase : BitVec 11) (samples : List LocSample)
  /-- INPUT_LOCK_CHANGE (R358). An AES3 or MADI input gains or loses lock. -/
  | inputLockChange (p : Fin 26) (locked : Bool) (code : BitVec 18)
  /-- ASRC_SETTLED (R364). An ASRC ratio settles, and the input publishes audio. -/
  | asrcSettled (a : Fin 8)
  /-- LOC_PORT_ENABLE_WRITE (R359). Enables a TDM, AES3 or MADI port, or drains it. -/
  | locPortEnableWrite (w : BitVec 6) (p : Fin 34) (v : W24)
  /-- TDM_STAT_CLR (R363). Clears a TDM port's SLIPS. -/
  | tdmStatClr (w : BitVec 6) (p : Fin 16) (v : W24)
  /-- AESI_STAT_CLR (R366). Clears an AES3 input's SLIPS. -/
  | aesiStatClr (w : BitVec 6) (a : Fin 8) (v : W24)
  /-- MADI_STAT_CLR (R368). Clears a MADI port's SLIPS. -/
  | madiStatClr (w : BitVec 6) (m : Fin 2) (v : W24)
  /-- TIP_SWITCH_CHANGE (R370). A debounced insertion or removal on a talkback jack. -/
  | tipSwitchChange (t : Fin 2) (ins : Bool) (ms : BitVec 16)
  /-- TYPE_MEASURED (R370). The accessory is classified and TYPE is set. -/
  | typeMeasured (t : Fin 2) (z : Accessory) (ms : BitVec 16)
  /-- MIC_UNMUTE (R369). 20 ms after bias on or a button release, the microphone goes live. -/
  | micUnmute (t : MuteEnd)
  /-- BUTTON_PRESS (R371). A debounced button press on a headset. -/
  | buttonPress (t : Fin 2) (ohm : BitVec 10) (ms : BitVec 16)
  /-- BUTTON_RELEASE (R371). A debounced button release on a headset. -/
  | buttonRelease (t : Fin 2) (ms : BitVec 16)
  /-- BUTTON_LONG (R371). A button has been held 1 s, and LONG is set. -/
  | buttonLong (t : Fin 2) (ms : BitVec 16)
  /-- HP_CURRENT_LIMIT (R370). The headphone amplifier has stayed in current limit for 10 ms, and FAULT is set. -/
  | hpCurrentLimit (t : Fin 2) (ms : BitVec 16)
  /-- REMEASURE (R370). 1 s after a fault, the accessory is measured again. -/
  | remeasure (t : Fin 2) (ms : BitVec 16)
  /-- TB_ENABLE_WRITE (R374). Enables a talkback port, or disables it and clears its Board bits. -/
  | tbEnableWrite (w : BitVec 6) (t : Fin 2) (v : W24)
  /-- BIASEN_WRITE (R374). Turns the microphone bias on or off. -/
  | biasenWrite (w : BitVec 6) (t : Fin 2) (v : W24)
  /-- TB_BOARD_BASE_WRITE (R372). Moves the detection Board bits to a new base. -/
  | tbBoardBaseWrite (w : BitVec 6) (t : Fin 2) (v : W24)
  /-- TB_EVT_READ (R373). A read of TBt.EVT removes the oldest event. -/
  | tbEvtRead (w : BitVec 6) (t : Fin 2)
  /-- PC_RUN_WRITE (R377). Starts a prompter, or halts it at a word boundary. -/
  | pcRunWrite (w : BitVec 6) (n : Fin 2) (v : W24)
  /-- PC_RESET_WRITE (R377). Resets one prompter core alone. -/
  | pcResetWrite (w : BitVec 6) (n : Fin 2) (v : W24)
  /-- INTERRUPT_ENTRY (R101). A prompter takes the winning interrupt source and enters its context. -/
  | interruptEntry (n : Fin 2)
  /-- WAIT_WAKE (R105). A pending unmasked source ends a WAIT. -/
  | waitWake (n : Fin 2)
  /-- SWSET (R378). Sets the PEND bit of a software interrupt source. -/
  | swset (w : BitVec 6) (s : BitVec 6) (v : W24)
  /-- MSIX_UNMASK (R380). Unmasking a vector sends its pending MSI-X message. -/
  | msixUnmask (s : BitVec 6)
  /-- BAR4_WRITE (R382). A host write to program space: wings, prompter memory or a dropped stage write. -/
  | bar4Write (word : BitVec 20) (be : BitVec 4) (v : W32)
  /-- HOST_RESET (R383). A PCIe link-down, hot reset, FLR or PERST_N resets the host side and the porters. -/
  | hostReset
  /-- HOST_STAT_CLR (R382). Clears PARTIAL and DENIED. -/
  | hostStatClr (w : BitVec 6) (v : W24)
  /-- PORTER_DESCRIPTOR_START (R384). A porter takes an owned descriptor and starts the move. -/
  | porterDescriptorStart (n : Fin 4)
  /-- PORTER_DESCRIPTOR_END (R384). A porter ends a descriptor with STATUS and DONE. -/
  | porterDescriptorEnd (n : Fin 4) (host : List Byte) (hostErr : Option (BitVec 24))
  /-- PT_CLR (R384). Clears a porter's FAILS. -/
  | ptClr (w : BitVec 6) (n : Fin 4) (v : W24)
  /-- POWER_GOOD (R418). Power good starts bring-up: HOUSE, fuse load and memory tests. -/
  | powerGood (addr : BitVec 3)
  /-- POWER_LOSS (R418). Power good is lost or RST_N falls, and the device resets. -/
  | powerLoss
  /-- MEM_TEST_DONE (R397). The memory tests end, holding failed positions and prompters. -/
  | memTestDone (fails : List (BitVec 6 × BitVec 17))
  /-- BOOT_IMAGE_CHECKED (R387). The flash boot image is fetched and checked, and the prompters start or BOOT_FAIL is posted. -/
  | bootImageChecked (a b : Option (List Byte))
  /-- RUN_CMD (R394). A RUN state command wakes the device from HUSH. -/
  | runCmd (w : BitVec 6) (pec : BitVec 2)
  /-- HUSH_CMD (R393). A HUSH state command chooses a depth and starts entry, or is refused. -/
  | hushCmd (w : BitVec 6) (pec : BitVec 2)
  /-- DARK_CMD (R396). A DARK command closes curtains, flushes the ledger and drives CORE_EN low. -/
  | darkCmd (w : BitVec 6) (pec : BitVec 2)
  /-- HUSH_WAKE (R394). HOUSE starts the wake at tev less the wake time and margin. -/
  | hushWake
  /-- WAKE_N (R396). WAKE_N held low for 1 ms requests a wake from DARK. -/
  | wakeN
  /-- CORE_EN_RISE (R396). The VBAT domain drives CORE_EN high after DARK. -/
  | coreEnRise
  /-- GRANT (R394). A write of the depth grants and wake margin, which may start a wake. -/
  | grant (w : BitVec 6) (pec : BitVec 2) (v : W24)
  /-- NEXT_EVENT (R394). A write of the next event time, which may start a wake. -/
  | nextEvent (w : BitVec 6) (pec : BitVec 2) (sec : BitVec 48) (ns : BitVec 30) (valid : Bool)
  /-- LC_ADVANCE (R399). A life-cycle transition request wipes secrets, blows a fuse and resets. -/
  | lcAdvance (w : BitVec 6) (pec : BitVec 2) (target : BitVec 3) (confirm : BitVec 16)
  /-- SMB_STATE (R390). SMBus command 00h returns the state. -/
  | smbState (pec : BitVec 2)
  /-- SMB_GRANT_READ (R390). SMBus command 02h read returns the grants. -/
  | smbGrantRead (pec : BitVec 2)
  /-- SMB_NEXT_EVENT_READ (R390). SMBus command 03h read returns NEXT_EVENT. -/
  | smbNextEventRead (pec : BitVec 2)
  /-- SMB_SERIAL (R390). SMBus command 10h returns the serial number. -/
  | smbSerial (pec : BitVec 2)
  /-- SMB_LC (R390). SMBus command 11h returns the life-cycle state. -/
  | smbLc (pec : BitVec 2)
  /-- SMB_TEMP (R390). SMBus command 13h returns Tj. -/
  | smbTemp (pec : BitVec 2) (tj : BitVec 16)
  /-- SMB_VCORE (R390). SMBus command 14h returns VREQ. -/
  | smbVcore (pec : BitVec 2)
  /-- SMB_ALERT (R390). SMBus command 20h returns the alert causes. -/
  | smbAlert (pec : BitVec 2)
  /-- SMB_ALERT_CLR (R391). SMBus command 21h clears alert causes. -/
  | smbAlertClr (pec : BitVec 2) (v : BitVec 16)
  /-- SMB_ALERT_MASK (R391). SMBus command 22h writes or reads the alert mask. -/
  | smbAlertMask (pec : BitVec 2) (wr : Option (BitVec 16))
  /-- SMB_LEDGER (R414). SMBus command 30h returns the entry at SMBPTR and advances it. -/
  | smbLedger (pec : BitVec 2)
  /-- SMB_RESET_DEVICE (R390). SMBus command 40h with 01h resets the device. -/
  | smbResetDevice (pec : BitVec 2)
  /-- SMB_RESET_PC (R390). SMBus command 40h with 02h or 03h resets one prompter. -/
  | smbResetPc (pec : BitVec 2) (n : Fin 2)
  /-- SMB_TAMPER (R390). SMBus command 41h returns the tamper record. -/
  | smbTamper (pec : BitVec 2)
  /-- SMB_ALERT_RESPONSE (R391). HOUSE answers the Alert Response Address and releases ALERT_N. -/
  | smbAlertResponse
  /-- TAMPER_EVENT (R401). A tamper cause zeroes the battery key, records the event and wipes secrets. -/
  | tamperEvent (causes : BitVec 4)
  /-- PB_DATA_ACCESS (R404). A byte access to the prompt book through PB.DATA. -/
  | pbDataAccess (w : BitVec 6) (wr : Option W24)
  /-- PB_DATA3_ACCESS (R404). A three-byte access to the prompt book through PB.DATA3. -/
  | pbData3Access (w : BitVec 6) (wr : Option W24)
  /-- PB_WRITE_DONE (R404). An MRAM write completes, BUSY clears and held accesses proceed. -/
  | pbWriteDone
  /-- LEDGER_POST (R412). An acceptance cycle accepts posts into the ledger queue, or counts them as drops. -/
  | ledgerPost
  /-- LEDGER_STORE (R412). An entry leaves the queue and is counted, suppressed, stored and persisted. -/
  | ledgerStore
  /-- LEDGER_TAIL_WRITE (R414). Software consumes ledger entries by writing TAIL. -/
  | ledgerTailWrite (w : BitVec 6) (v : W24)
  /-- LEDGER_CLEAR (R414). Sets TAIL and SMBPTR to HEAD. -/
  | ledgerClear (w : BitVec 6) (v : W24)
  /-- LEDGER_ENTRY0_READ (R414). A read of ENTRY0 latches the six words of entry SEL. -/
  | ledgerEntry0Read (w : BitVec 6)
  /-- LEDG_CNTCLR_ALL (R416). Zeroes every code counter. -/
  | ledgCntclrAll (w : BitVec 6) (v : W24)
  /-- LEDG_STATCLR (R416). Zeroes DROPS, OVWR, SUPP and PSKIP. -/
  | ledgStatclr (w : BitVec 6) (v : W24)
  /-- LEDG_CNTCLR_CODE (R416). Zeroes the counter of one code. -/
  | ledgCntclrCode (w : BitVec 6) (v : W24)
  /-- FLUSH (R415). A FLUSH write starts a flush of the counters to the prompt book. -/
  | flush (w : BitVec 6) (v : W24)
  /-- FLUSH_PERIOD (R415). A flush starts every PFLUSH seconds. -/
  | flushPeriod
  /-- FLUSH_DONE (R415). A flush of the persistent summary completes. -/
  | flushDone
  /-- SWPOST (R432). A write of SWPOST0.GO posts a company code to the ledger. -/
  | swpost (w : BitVec 6) (v : W24)
  /-- TALLY_WINDOW_END (R408). A tally window ends, and its buffers are exchanged into a snapshot. -/
  | tallyWindowEnd (n : Fin 64)
  /-- TALLY_ENABLE_WRITE (R407). Starts a tally unit, or drains it to a last snapshot. -/
  | tallyEnableWrite (w : BitVec 6) (n : Fin 64) (v : W24)
  /-- TALLY_CONFIG_WRITE (R408). A change of probe settings clears the back buffer and restarts the window. -/
  | tallyConfigWrite (w : BitVec 6) (n : Fin 64) (off : Fin 6) (v : W24)
  /-- FEED (R406). A write to FEED gives a SOFT probe value. -/
  | feed (w : BitVec 6) (n : Fin 64) (v : W24)
  /-- TALLY_CLR (R410). Clears a unit's LOST count. -/
  | tallyClr (w : BitVec 6) (n : Fin 64) (v : W24)
  /-- REGISTER_WRITE (R10). A write to a register that has no row of its own acts by its field types. -/
  | registerWrite (w : BitVec 6) (a : W24) (v : BusWord)
  /-- VAULT_WIPE_DONE (R195). The wipe of the vault, and of the prompt book's secure section, completes: WIPING clears and WRAP, UNWRAP and DATA accesses act again. -/
  | vaultWipeDone
  /-- TJ_ABOVE_105 (R391). The junction temperature rises above 105 °C and HOUSE sets alert cause 7, asserting ALERT_N unless masked. -/
  | tjAbove105
  /-- RAW_BUTTON_SIGN (R369). The first raw, undebounced sign of a headset button under bias mutes the microphone channel while MUTEBTN = 1. -/
  | rawButtonSign (t : Fin 2)
  /-- PCIE_LINK_UP (R381). The PCIe link trains and comes up, and HOST.STAT shows its speed and width so that BAR accesses can reach the device. -/
  | pcieLinkUp (speed width : BitVec 2)
deriving DecidableEq, Repr

end Sys2Proof
end

