-- ==== Sys2Proof/Machine/Crypto.lean ====
section
/-!
DEFINITION. Byte strings as numbers, and the algorithms that R197, R210 and R405 name by their standards: SHA-384
(FIPS 180-4), AES-256-GCM (FIPS 197, SP 800-38D) and ECDSA P-384 (FIPS 186).
-/
namespace Sys2Proof.Machine

/-! ## Numbers -/

/-- The `n` little-endian bytes of a number. -/
def leBytes : Nat → Nat → List Byte
  | 0, _ => []
  | n + 1, x => BitVec.ofNat 8 x :: leBytes n (x / 256)

/-- The big-endian number of a byte list. -/
def beNat (l : List Byte) : Nat := l.foldl (fun x b => x * 256 + b.toNat) 0

/-- The `n` big-endian bytes of a number. -/
def beBytes (n x : Nat) : List Byte := (leBytes n x).reverse

/-- A list cut into `n` pieces of `k`. -/
def pieces {α : Type} (k : Nat) : Nat → List α → List (List α)
  | 0, _ => []
  | n + 1, l => l.take k :: pieces k n (l.drop k)

/-! ## SHA-384 -/

/-- The round constants, first half. -/
def shaK0 : List (BitVec 64) :=
  [
   0x428A2F98D728AE22, 0x7137449123EF65CD, 0xB5C0FBCFEC4D3B2F, 0xE9B5DBA58189DBBC,
   0x3956C25BF348B538, 0x59F111F1B605D019, 0x923F82A4AF194F9B, 0xAB1C5ED5DA6D8118,
   0xD807AA98A3030242, 0x12835B0145706FBE, 0x243185BE4EE4B28C, 0x550C7DC3D5FFB4E2,
   0x72BE5D74F27B896F, 0x80DEB1FE3B1696B1, 0x9BDC06A725C71235, 0xC19BF174CF692694,
   0xE49B69C19EF14AD2, 0xEFBE4786384F25E3, 0x0FC19DC68B8CD5B5, 0x240CA1CC77AC9C65,
   0x2DE92C6F592B0275, 0x4A7484AA6EA6E483, 0x5CB0A9DCBD41FBD4, 0x76F988DA831153B5,
   0x983E5152EE66DFAB, 0xA831C66D2DB43210, 0xB00327C898FB213F, 0xBF597FC7BEEF0EE4,
   0xC6E00BF33DA88FC2, 0xD5A79147930AA725, 0x06CA6351E003826F, 0x142929670A0E6E70,
   0x27B70A8546D22FFC, 0x2E1B21385C26C926, 0x4D2C6DFC5AC42AED, 0x53380D139D95B3DF,
   0x650A73548BAF63DE, 0x766A0ABB3C77B2A8, 0x81C2C92E47EDAEE6, 0x92722C851482353B]

/-- The round constants, second half. -/
def shaK1 : List (BitVec 64) :=
  [
   0xA2BFE8A14CF10364, 0xA81A664BBC423001, 0xC24B8B70D0F89791, 0xC76C51A30654BE30,
   0xD192E819D6EF5218, 0xD69906245565A910, 0xF40E35855771202A, 0x106AA07032BBD1B8,
   0x19A4C116B8D2D0C8, 0x1E376C085141AB53, 0x2748774CDF8EEB99, 0x34B0BCB5E19B48A8,
   0x391C0CB3C5C95A63, 0x4ED8AA4AE3418ACB, 0x5B9CCA4F7763E373, 0x682E6FF3D6B2B8A3,
   0x748F82EE5DEFB2FC, 0x78A5636F43172F60, 0x84C87814A1F0AB72, 0x8CC702081A6439EC,
   0x90BEFFFA23631E28, 0xA4506CEBDE82BDE9, 0xBEF9A3F7B2C67915, 0xC67178F2E372532B,
   0xCA273ECEEA26619C, 0xD186B8C721C0C207, 0xEADA7DD6CDE0EB1E, 0xF57D4F7FEE6ED178,
   0x06F067AA72176FBA, 0x0A637DC5A2C898A6, 0x113F9804BEF90DAE, 0x1B710B35131C471B,
   0x28DB77F523047D84, 0x32CAAB7B40C72493, 0x3C9EBE0A15C9BEBC, 0x431D67C49C100D4C,
   0x4CC5D4BECB3E42B6, 0x597F299CFC657E2A, 0x5FCB6FAB3AD6FAEC, 0x6C44198C4A475817]

/-- The initial value of SHA-384. -/
def shaInit : List (BitVec 64) :=
  [
   0xCBBB9D5DC1059ED8, 0x629A292A367CD507, 0x9159015A3070DD17, 0x152FECD8F70E5939,
   0x67332667FFC00B31, 0x8EB44A8768581511, 0xDB0C2E0D64F98FA7, 0x47B5481DBEFA4FA4]

/-- The padded message: 80h, zeros, and the length in bits as 16 bytes. -/
def shaPad (b : List Byte) : List Byte :=
  b ++ [0x80] ++ List.replicate ((239 - b.length % 128) % 128) 0 ++ beBytes 16 (8 * b.length)

/-- The message schedule, last word first, after `n` more words. -/
def shaSchedule : Nat → List (BitVec 64) → List (BitVec 64)
  | 0, w => w
  | n + 1, w =>
    let at_ (i : Nat) : BitVec 64 := w.getD (i - 1) 0
    let s0 := (at_ 15).rotateRight 1 ^^^ (at_ 15).rotateRight 8 ^^^ (at_ 15 >>> 7)
    let s1 := (at_ 2).rotateRight 19 ^^^ (at_ 2).rotateRight 61 ^^^ (at_ 2 >>> 6)
    shaSchedule n ((at_ 16 + s0 + at_ 7 + s1) :: w)

/-- One round on the working variables a to h. -/
def shaRound (v : List (BitVec 64)) (kw : BitVec 64 × BitVec 64) : List (BitVec 64) :=
  match v with
  | [a, b, c, d, e, f, g, h] =>
    let s1 := e.rotateRight 14 ^^^ e.rotateRight 18 ^^^ e.rotateRight 41
    let t1 := h + s1 + ((e &&& f) ^^^ (~~~e &&& g)) + kw.1 + kw.2
    let s0 := a.rotateRight 28 ^^^ a.rotateRight 34 ^^^ a.rotateRight 39
    [t1 + s0 + ((a &&& b) ^^^ (a &&& c) ^^^ (b &&& c)), a, b, c, d + t1, e, f, g]
  | _ => v

/-- One block of 128 bytes. -/
def shaBlock (hash : List (BitVec 64)) (b : List Byte) : List (BitVec 64) :=
  let w := (pieces 8 16 b).map fun x => BitVec.ofNat 64 (beNat x)
  let w := (shaSchedule 64 w.reverse).reverse
  List.zipWith (· + ·) hash (((shaK0 ++ shaK1).zip w).foldl shaRound hash)

/-- SHA-384: 48 bytes. -/
def sha384 (b : List Byte) : List Byte :=
  let m := shaPad b
  let h := (pieces 128 (m.length / 128) m).foldl shaBlock shaInit
  (h.flatMap fun x => beBytes 8 x.toNat).take 48

/-! ## AES-256 -/

/-- The double of a field element. -/
def gfDouble (b : Byte) : Byte := (b <<< 1) ^^^ (if b.msb then 0x1B else 0)

/-- The product of two field elements. -/
def gfMul (a b : Byte) : Byte :=
  ((List.range 8).foldl
    (fun (r, a) i => (if b.getLsbD i then r ^^^ a else r, gfDouble a)) ((0 : Byte), a)).1

/-- The inverse of a field element, its 254th power; 0 for 0. -/
def gfInv (b : Byte) : Byte :=
  ((List.range 7).foldl (fun (r, s) _ => let s := gfMul s s; (gfMul r s, s)) ((1 : Byte), b)).1

/-- The substitution box. -/
def aesSub (b : Byte) : Byte :=
  let x := gfInv b
  x ^^^ x.rotateLeft 1 ^^^ x.rotateLeft 2 ^^^ x.rotateLeft 3 ^^^ x.rotateLeft 4 ^^^ 0x63

/-- Bytes added in the field. -/
def xorBytes (a b : List Byte) : List Byte := List.zipWith (· ^^^ ·) a b

/-- Word `i` of the key schedule from the words before it, the last first. -/
def aesNext (i : Nat) (w : List (List Byte)) : List Byte :=
  let t := w.headD []
  let t := if i % 8 = 0 then
      xorBytes ((t.tail ++ t.take 1).map aesSub) [(List.range (i / 8 - 1)).foldl (fun r _ => gfDouble r) 1, 0, 0, 0]
    else if i % 8 = 4 then t.map aesSub
    else t
  xorBytes (w.getD 7 []) t

/-- The 15 round keys of 16 bytes. -/
def aesKeys (key : List Byte) : List (List Byte) :=
  let w := (List.range 52).foldl (fun w i => aesNext (i + 8) w :: w) (pieces 4 8 key).reverse
  pieces 16 15 w.reverse.flatten

/-- Rows shifted: byte `r` of column `c` comes from column `c + r`. -/
def aesShift (s : List Byte) : List Byte :=
  (List.range 16).map fun i => s.getD (4 * ((i / 4 + i % 4) % 4) + i % 4) 0

/-- One column mixed. -/
def aesMix (c : List Byte) : List Byte :=
  (List.range 4).map fun r =>
    let at_ (k : Nat) : Byte := c.getD ((r + k) % 4) 0
    gfDouble (at_ 0) ^^^ (gfDouble (at_ 1) ^^^ at_ 1) ^^^ at_ 2 ^^^ at_ 3

/-- One block of 16 bytes encrypted. -/
def aesBlock (keys : List (List Byte)) (b : List Byte) : List Byte :=
  let start := xorBytes b (keys.headD [])
  let mid := ((keys.drop 1).take 13).foldl
    (fun s k => xorBytes ((pieces 4 4 (aesShift (s.map aesSub))).flatMap aesMix) k) start
  xorBytes (aesShift (mid.map aesSub)) (keys.getD 14 [])

/-! ## GCM -/

/-- The product of two blocks in the field of GHASH. -/
def ghashMul (x y : BitVec 128) : BitVec 128 :=
  ((List.range 128).foldl
    (fun (z, v) i =>
      (if x.getMsbD i then z ^^^ v else z, if v.getLsbD 0 then (v >>> 1) ^^^ (0xE1#128 <<< 120) else v >>> 1))
    ((0 : BitVec 128), y)).1

/-- Blocks of 16 bytes, the last padded with zeros. -/
def gcmBlocks (b : List Byte) : List (BitVec 128) :=
  let k := (b.length + 15) / 16
  (pieces 16 k (b ++ List.replicate (16 * k - b.length) 0)).map fun x => BitVec.ofNat 128 (beNat x)

/-- The block of the counter `n` under a 96-bit IV. -/
def gcmCounter (keys : List (List Byte)) (iv : List Byte) (n : Nat) : List Byte := aesBlock keys (iv ++ beBytes 4 n)

/-- AES-256-GCM's keystream over `b`: the ciphertext of a plaintext, and the plaintext of a ciphertext. -/
def gcmStream (key iv b : List Byte) : List Byte :=
  let keys := aesKeys key
  let k := (b.length + 15) / 16
  xorBytes b ((List.range k).flatMap fun i => gcmCounter keys iv (i + 2))

/-- AES-256-GCM: the 16-byte tag of a ciphertext under key, IV and additional data. -/
def gcmTag (key iv ad b : List Byte) : List Byte :=
  let keys := aesKeys key
  let h := BitVec.ofNat 128 (beNat (aesBlock keys (List.replicate 16 0)))
  let lens := BitVec.ofNat 128 (8 * ad.length * 2 ^ 64 + 8 * b.length)
  let s := (gcmBlocks ad ++ gcmBlocks b ++ [lens]).foldl (fun y x => ghashMul (y ^^^ x) h) 0
  xorBytes (beBytes 16 s.toNat) (gcmCounter keys iv 1)

/-! ## ECDSA P-384 -/

/-- The field's prime. -/
def p384p : Nat := 2 ^ 384 - 2 ^ 128 - 2 ^ 96 + 2 ^ 32 - 1

/-- The order of the group. -/
def p384n : Nat :=
  0xFFFFFFFFFFFFFFFFFFFFFFFFFFFFFFFFFFFFFFFFFFFFFFFFC7634D81F4372DDF581A0DB248B0A77AECEC196ACCC52973

/-- The coefficient b of the curve; a is -3. -/
def p384b : Nat :=
  0xB3312FA7E23EE7E4988E056BE3F82D19181D9C6EFE8141120314088F5013875AC656398D8A2ED19D2A85C8EDD3EC2AEF

/-- The base point. -/
def p384g : Nat × Nat :=
  (0xAA87CA22BE8B05378EB1C71EF320AD746E1D3B628BA79B9859F741E082542A385502F25DBF55296C3A545E3872760AB7,
   0x3617DE4A96262C6F5D9E98BF9292DC29F8F41DBD289A147CE9DA3113B5F0B8C00A60B1CE1D7E819D7A431D7C90EA0E5F)

/-- A power modulo `m`, by the 384 bits of the exponent. -/
def powMod (a e m : Nat) : Nat :=
  ((List.range 384).reverse).foldl (fun r i => let r := r * r % m; if e.testBit i then r * a % m else r) 1

/-- A difference modulo `m`. -/
def subMod (a b m : Nat) : Nat := (a + (m - b % m)) % m

/-- A quotient modulo the prime `m`. -/
def divMod (a b m : Nat) : Nat := a * powMod b (m - 2) m % m

/-- A point of the curve; `none` is the point at infinity. -/
abbrev P384 := Option (Nat × Nat)

/-- The point of slope `l` through two points. -/
def p384Chord (l : Nat) (a b : Nat × Nat) : P384 :=
  let x := subMod (l * l) (a.1 + b.1) p384p
  some (x, subMod (l * subMod a.1 x p384p) a.2 p384p)

/-- The sum of two points. -/
def p384Add (a b : P384) : P384 :=
  match a, b with
  | none, _ => b
  | _, none => a
  | some p, some q =>
    if p.1 = q.1 then
      if (p.2 + q.2) % p384p = 0 then none
      else p384Chord (divMod (subMod (3 * p.1 * p.1) 3 p384p) (2 * p.2) p384p) p q
    else p384Chord (divMod (subMod q.2 p.2 p384p) (subMod q.1 p.1 p384p) p384p) p q

/-- A multiple of a point. -/
def p384Mul (k : Nat) (p : P384) : P384 :=
  ((List.range 384).reverse).foldl (fun r i => let r := p384Add r r; if k.testBit i then p384Add r p else r) none

/-- The public key of a private key: x then y, 96 bytes. -/
def ecdsaPublic (key : List Byte) : List Byte :=
  match p384Mul (beNat key % p384n) (some p384g) with
  | some (x, y) => beBytes 48 x ++ beBytes 48 y
  | none => List.replicate 96 0

/-- A scalar from 1 to n - 1 drawn from 48 random bytes. -/
def p384Scalar (random : List Byte) : Nat := beNat random % (p384n - 1) + 1

/-- The signature of a digest under a private key with the ephemeral scalar `k`: r then s, 96 bytes. -/
def ecdsaSign (key digest : List Byte) (k : Nat) : List Byte :=
  let r := (match p384Mul k (some p384g) with | some (x, _) => x | none => 0) % p384n
  let s := divMod (beNat digest + r * beNat key) k p384n
  beBytes 48 r ++ beBytes 48 s

/-- A signature of a digest verifies under a public key. -/
def ecdsaVerify (key digest sig : List Byte) : Bool :=
  let q := (beNat (key.take 48), beNat (key.drop 48))
  let r := beNat (sig.take 48)
  let s := beNat (sig.drop 48)
  let onCurve := q.1 < p384p && q.2 < p384p && q.2 * q.2 % p384p == (q.1 * subMod (q.1 * q.1) 3 p384p + p384b) % p384p
  let sum := p384Add (p384Mul (divMod (beNat digest) s p384n) (some p384g)) (p384Mul (divMod r s p384n) (some q))
  onCurve && 0 < r && r < p384n && 0 < s && s < p384n && (match sum with | some (x, _) => x % p384n == r | none => false)

end Sys2Proof.Machine
end

