-- ==== Sys2Proof/Machine/Tab.lean ====
section
/-!
DEFINITION. Sparse storage. Every array of the machine (the Market, the pockets, the program stores, the control
registers, the per-unit records) is a list of key and value pairs in one canonical form: keys strictly rising, and no
entry equal to what an unlisted key reads as.
-/
namespace Sys2Proof.Machine

/-- A sparse array: listed keys hold their value, every other key reads as its default. -/
abbrev Tab (α : Type) := List (Nat × α)

/-- What key `k` reads as, `d` being its default. -/
def Tab.get {α : Type} (d : α) : Tab α → Nat → α
  | [], _ => d
  | (k', v) :: t, k => if k = k' then v else Tab.get d t k

/-- Key `k` listed with the value `v`, in the place its number gives it. -/
def Tab.put {α : Type} : Tab α → Nat → α → Tab α
  | [], k, v => [(k, v)]
  | (k', v') :: t, k, v =>
    if k < k' then (k, v) :: (k', v') :: t
    else if k = k' then (k, v) :: t
    else (k', v') :: Tab.put t k v

/-- Key `k` listed no more. -/
def Tab.drop {α : Type} : Tab α → Nat → Tab α
  | [], _ => []
  | (k', v') :: t, k => if k = k' then Tab.drop t k else (k', v') :: Tab.drop t k

/-- Key `k` set to `v`, `d` being its default: the canonical form is kept. -/
def Tab.set {α : Type} [DecidableEq α] (d : α) (t : Tab α) (k : Nat) (v : α) : Tab α :=
  if v = d then Tab.drop t k else Tab.put t k v

/-- Every key of `t` lies above `lo`. -/
def Tab.above {α : Type} (lo : Nat) : Tab α → Bool
  | [] => true
  | (k, _) :: _ => decide (lo < k)

/-- The canonical form, for the default `d k` of each key: keys strictly rising, no entry equal to its default. -/
def Tab.wf {α : Type} [DecidableEq α] (d : Nat → α) : Tab α → Bool
  | [] => true
  | (k, v) :: t => Tab.above k t && decide (v ≠ d k) && Tab.wf d t

/-- Key `k` changed by `f`. -/
def Tab.upd {α : Type} [DecidableEq α] (d : α) (t : Tab α) (k : Nat) (f : α → α) : Tab α :=
  Tab.set d t k (f (Tab.get d t k))

/-- The keys from `lo` to `hi - 1` set to their default. -/
def Tab.clear {α : Type} (t : Tab α) (lo hi : Nat) : Tab α := t.filter fun e => !(decide (lo ≤ e.1) && decide (e.1 < hi))

/-- The canonical form of a memory whose unlisted words all read as `d`. -/
abbrev Memory.wf {α : Type} [DecidableEq α] (d : α) (t : Tab α) : Bool := Tab.wf (fun _ => d) t

end Sys2Proof.Machine
end

