-- ==== Sys2Proof/Machine/RegMap.lean ====
section
/-!
DEFINITION. The control-space map (R434 to R447 and the register tables of every chapter): each register's address,
stride, instances, and its fields with their access type (R10) and reset value (R8), and the names by which the
meanings reach a field.
-/
namespace Sys2Proof.Machine

/-- The access types of R10 and R11. -/
inductive Ty where
  | rw | ro | w1c | wo | rwc | rws
deriving DecidableEq, Repr

/-- One field of a register table: bits `hi` to `lo`, its type, its reset value, and the enumerated values its table
leaves unassigned (R441). -/
structure FieldRow where
  hi : Nat
  lo : Nat
  ty : Ty
  rst : Nat
  bad : List Nat := []
deriving DecidableEq, Repr

/-- One register table: `count` instances, `stride` words apart, from `base`. -/
structure RegRow where
  base : Nat
  stride : Nat
  count : Nat
  fields : List FieldRow
deriving DecidableEq, Repr

/-- A named field of a register array: instance `i` stands at `base + stride * i`, in bits `hi` to `lo`. -/
structure Fld where
  base : Nat
  stride : Nat
  hi : Nat
  lo : Nat
deriving DecidableEq, Repr

/-- The address of instance `i` of a field's register. -/
def Fld.addr (f : Fld) (i : Nat) : Nat := f.base + f.stride * i

/-- The number of values of a field. -/
def Fld.size (f : Fld) : Nat := 2 ^ (f.hi + 1 - f.lo)

namespace RegMap

/-- Register tables, part 0: ID_VENDOR to HOUSE_GRANT. -/
def part0 : List RegRow := [
  -- ID_VENDOR
  ⟨0x000000, 0x1, 1, [⟨15, 0, .ro, 0x1DF7, []⟩]⟩,
  -- ID_DEVICE
  ⟨0x000001, 0x1, 1, [⟨15, 0, .ro, 0x8B08, []⟩]⟩,
  -- ID_REV
  ⟨0x000002, 0x1, 1, [⟨23, 16, .ro, 0x41, []⟩, ⟨15, 8, .ro, 0x1, []⟩, ⟨7, 0, .ro, 0xA1, []⟩]⟩,
  -- ID_OUI
  ⟨0x000003, 0x1, 1, [⟨23, 0, .ro, 0x4AD0E7, []⟩]⟩,
  -- ID_MAPVER
  ⟨0x000004, 0x1, 1, [⟨15, 8, .ro, 0x1, []⟩, ⟨7, 0, .ro, 0x0, []⟩]⟩,
  -- ID_SCRATCH
  ⟨0x000010, 0x1, 1, [⟨23, 0, .rw, 0x0, []⟩]⟩,
  -- FEAT0
  ⟨0x000040, 0x1, 1, [⟨23, 16, .ro, 0x1, []⟩, ⟨15, 8, .ro, 0x0, []⟩, ⟨7, 6, .ro, 0x2, []⟩, ⟨5, 5, .ro, 0x1, []⟩, ⟨4, 0, .ro, 0x10, []⟩]⟩,
  -- FEAT1
  ⟨0x000041, 0x1, 1, [⟨23, 22, .ro, 0x1, []⟩, ⟨21, 20, .ro, 0x2, []⟩, ⟨19, 17, .ro, 0x4, []⟩, ⟨16, 13, .ro, 0xF, []⟩, ⟨12, 12, .ro, 0x0, []⟩, ⟨11, 11, .ro, 0x0, []⟩, ⟨10, 10, .ro, 0x1, []⟩, ⟨9, 6, .ro, 0x8, []⟩]⟩,
  -- FEAT2
  ⟨0x000042, 0x1, 1, [⟨23, 22, .ro, 0x2, []⟩, ⟨21, 20, .ro, 0x1, []⟩, ⟨19, 17, .ro, 0x4, []⟩, ⟨16, 13, .ro, 0xF, []⟩, ⟨12, 12, .ro, 0x1, []⟩, ⟨11, 11, .ro, 0x1, []⟩, ⟨10, 10, .ro, 0x0, []⟩, ⟨9, 6, .ro, 0x8, []⟩]⟩,
  -- FEATZ
  ⟨0x000043, 0x1, 12, [⟨23, 0, .ro, 0x0, []⟩]⟩,
  -- FEAT15
  ⟨0x00004F, 0x1, 1, [⟨23, 23, .ro, 0x0, []⟩, ⟨22, 21, .ro, 0x0, []⟩, ⟨4, 0, .ro, 0x0, []⟩]⟩,
  -- HOUSE_STATE
  ⟨0x000400, 0x1, 1, [⟨23, 21, .ro, 0x0, []⟩, ⟨20, 19, .ro, 0x0, []⟩, ⟨18, 16, .ro, 0x0, []⟩]⟩,
  -- HOUSE_STATE_CMD
  ⟨0x000401, 0x1, 1, [⟨23, 21, .wo, 0x0, [4, 5, 6, 7]⟩]⟩,
  -- HOUSE_GRANT
  ⟨0x000402, 0x1, 1, [⟨23, 23, .rw, 0x0, []⟩, ⟨22, 22, .rw, 0x0, []⟩, ⟨21, 21, .rw, 0x0, []⟩, ⟨15, 0, .rw, 0xA, []⟩]⟩]

/-- Register tables, part 1: HOUSE_NE_SEC_HI to HOUSE_PCWD. -/
def part1 : List RegRow := [
  -- HOUSE_NE_SEC_HI
  ⟨0x000403, 0x1, 1, [⟨23, 0, .rw, 0x0, []⟩]⟩,
  -- HOUSE_NE_SEC_LO
  ⟨0x000404, 0x1, 1, [⟨23, 0, .rw, 0x0, []⟩]⟩,
  -- HOUSE_NE_NS_HI
  ⟨0x000405, 0x1, 1, [⟨23, 23, .rw, 0x0, []⟩, ⟨5, 0, .rw, 0x0, []⟩]⟩,
  -- HOUSE_NE_NS_LO
  ⟨0x000406, 0x1, 1, [⟨23, 0, .rw, 0x0, []⟩]⟩,
  -- HOUSE_SERIAL
  ⟨0x000408, 0x1, 3, [⟨23, 0, .ro, 0x0, []⟩]⟩,
  -- HOUSE_LC
  ⟨0x00040B, 0x1, 1, [⟨23, 21, .ro, 0x0, []⟩, ⟨20, 18, .wo, 0x0, []⟩, ⟨15, 0, .wo, 0x0, []⟩]⟩,
  -- HOUSE_BOOT
  ⟨0x00040C, 0x1, 1, [⟨23, 23, .ro, 0x0, []⟩, ⟨22, 20, .ro, 0x0, []⟩, ⟨19, 19, .ro, 0x0, []⟩]⟩,
  -- HOUSE_MEMFAIL
  ⟨0x00040D, 0x1, 1, [⟨16, 0, .ro, 0x0, []⟩, ⟨17, 17, .ro, 0x0, []⟩, ⟨18, 18, .ro, 0x0, []⟩]⟩,
  -- HOUSE_POLICY
  ⟨0x000410, 0x1, 1, [⟨23, 23, .rw, 0x1, []⟩, ⟨22, 22, .rw, 0x0, []⟩, ⟨21, 21, .rw, 0x0, []⟩]⟩,
  -- HOUSE_ALERT
  ⟨0x000411, 0x1, 1, [⟨11, 0, .w1c, 0x0, []⟩]⟩,
  -- HOUSE_ALERT_MASK
  ⟨0x000412, 0x1, 1, [⟨11, 0, .rw, 0x0, []⟩]⟩,
  -- HOUSE_TAMPER
  ⟨0x000414, 0x1, 1, [⟨23, 23, .rw, 0x0, []⟩, ⟨22, 22, .rw, 0x0, []⟩, ⟨21, 18, .w1c, 0x0, []⟩, ⟨17, 10, .ro, 0x0, []⟩]⟩,
  -- HOUSE_TAMPER_T
  ⟨0x000415, 0x1, 1, [⟨23, 0, .ro, 0x0, []⟩]⟩,
  -- HOUSE_PCWD
  ⟨0x000420, 0x1, 2, [⟨19, 19, .w1c, 0x0, []⟩, ⟨18, 17, .rw, 0x0, [2, 3]⟩, ⟨16, 16, .wo, 0x0, []⟩, ⟨15, 0, .rw, 0x0, []⟩]⟩]

/-- Register tables, part 2: PB_ADDR to LEDG_ENTRY. -/
def part2 : List RegRow := [
  -- PB_ADDR
  ⟨0x000800, 0x1, 1, [⟨23, 23, .rw, 0x0, []⟩, ⟨18, 0, .rw, 0x0, []⟩]⟩,
  -- PB_DATA
  ⟨0x000801, 0x1, 1, [⟨7, 0, .rw, 0x0, []⟩]⟩,
  -- PB_DATA3
  ⟨0x000802, 0x1, 1, [⟨23, 0, .rw, 0x0, []⟩]⟩,
  -- PB_STAT
  ⟨0x000803, 0x1, 1, [⟨23, 23, .ro, 0x0, []⟩, ⟨22, 22, .w1c, 0x0, []⟩]⟩,
  -- LEDG_CTRL
  ⟨0x001000, 0x1, 1, [⟨23, 23, .rw, 0x0, []⟩, ⟨22, 21, .rw, 0x2, []⟩, ⟨20, 19, .rw, 0x0, []⟩, ⟨18, 18, .wo, 0x0, []⟩, ⟨7, 0, .rw, 0x0, []⟩]⟩,
  -- LEDG_HEAD
  ⟨0x001001, 0x1, 1, [⟨11, 0, .ro, 0x0, []⟩]⟩,
  -- LEDG_TAIL
  ⟨0x001002, 0x1, 1, [⟨11, 0, .rw, 0x0, []⟩]⟩,
  -- LEDG_COUNT
  ⟨0x001003, 0x1, 1, [⟨12, 0, .ro, 0x0, []⟩]⟩,
  -- LEDG_DROPS
  ⟨0x001004, 0x1, 1, [⟨23, 0, .ro, 0x0, []⟩]⟩,
  -- LEDG_OVWR
  ⟨0x001005, 0x1, 1, [⟨23, 0, .ro, 0x0, []⟩]⟩,
  -- LEDG_SUPP
  ⟨0x001006, 0x1, 1, [⟨23, 0, .ro, 0x0, []⟩]⟩,
  -- LEDG_SMBPTR
  ⟨0x001007, 0x1, 1, [⟨11, 0, .ro, 0x0, []⟩]⟩,
  -- LEDG_SEL
  ⟨0x001008, 0x1, 1, [⟨11, 0, .rw, 0x0, []⟩]⟩,
  -- LEDG_ENTRY
  ⟨0x001009, 0x1, 6, [⟨23, 0, .ro, 0x0, []⟩]⟩]

/-- Register tables, part 3: LEDG_CNTCLR to LEDG_CNT. -/
def part3 : List RegRow := [
  -- LEDG_CNTCLR
  ⟨0x00100F, 0x1, 1, [⟨23, 23, .wo, 0x0, []⟩, ⟨22, 22, .wo, 0x0, []⟩, ⟨7, 0, .wo, 0x0, []⟩]⟩,
  -- LEDG_PCTRL
  ⟨0x001010, 0x1, 1, [⟨23, 23, .wo, 0x0, []⟩, ⟨22, 22, .ro, 0x0, []⟩, ⟨21, 20, .rw, 0x3, []⟩, ⟨7, 0, .rw, 0x3C, []⟩]⟩,
  -- LEDG_PSTAT
  ⟨0x001011, 0x1, 1, [⟨11, 0, .ro, 0x0, []⟩]⟩,
  -- LEDG_SWPOST0
  ⟨0x001012, 0x1, 1, [⟨23, 23, .wo, 0x0, []⟩, ⟨7, 0, .wo, 0x0, []⟩]⟩,
  -- LEDG_SWPOST1
  ⟨0x001013, 0x1, 1, [⟨23, 0, .rw, 0x0, []⟩]⟩,
  -- LEDG_SWPOST2
  ⟨0x001014, 0x1, 1, [⟨23, 0, .rw, 0x0, []⟩]⟩,
  -- LEDG_CNT
  ⟨0x001100, 0x1, 256, [⟨23, 0, .ro, 0x0, []⟩]⟩]

/-- Register tables, part 4: TL_CTRL to TL_LOST. -/
def part4 : List RegRow := [
  -- TL_CTRL
  ⟨0x002000, 0x20, 64, [⟨23, 23, .rw, 0x0, []⟩, ⟨22, 21, .ro, 0x0, []⟩, ⟨20, 20, .rw, 0x0, []⟩, ⟨19, 19, .rw, 0x0, []⟩, ⟨18, 18, .rw, 0x0, []⟩, ⟨17, 14, .rw, 0x0, [10, 11, 12, 13, 14, 15]⟩]⟩,
  -- TL_TGT_LO
  ⟨0x002001, 0x20, 64, [⟨23, 0, .rw, 0x0, []⟩]⟩,
  -- TL_TGT_HI
  ⟨0x002002, 0x20, 64, [⟨23, 23, .rw, 0x0, []⟩, ⟨1, 0, .rw, 0x0, []⟩]⟩,
  -- TL_WIN
  ⟨0x002003, 0x20, 64, [⟨23, 0, .rw, 0xBB80, []⟩]⟩,
  -- TL_LO
  ⟨0x002004, 0x20, 64, [⟨23, 0, .rw, 0x0, []⟩]⟩,
  -- TL_SHIFT
  ⟨0x002005, 0x20, 64, [⟨4, 0, .rw, 0x0, []⟩]⟩,
  -- TL_FEED
  ⟨0x002006, 0x20, 64, [⟨23, 0, .wo, 0x0, []⟩]⟩,
  -- TL_CUR
  ⟨0x002007, 0x20, 64, [⟨23, 0, .ro, 0x0, []⟩]⟩,
  -- TL_SEQ
  ⟨0x002008, 0x20, 64, [⟨23, 23, .ro, 0x0, []⟩, ⟨22, 0, .ro, 0x0, []⟩]⟩,
  -- TL_TICKS
  ⟨0x002009, 0x20, 64, [⟨23, 0, .ro, 0x0, []⟩]⟩,
  -- TL_NSAMP
  ⟨0x00200A, 0x20, 64, [⟨23, 0, .ro, 0x0, []⟩]⟩,
  -- TL_MIN
  ⟨0x00200B, 0x20, 64, [⟨23, 0, .ro, 0x7FFFFF, []⟩]⟩,
  -- TL_MAX
  ⟨0x00200C, 0x20, 64, [⟨23, 0, .ro, 0x800000, []⟩]⟩,
  -- TL_UNDER
  ⟨0x00200D, 0x20, 64, [⟨23, 0, .ro, 0x0, []⟩]⟩,
  -- TL_OVER
  ⟨0x00200E, 0x20, 64, [⟨23, 0, .ro, 0x0, []⟩]⟩,
  -- TL_LOST
  ⟨0x00200F, 0x20, 64, [⟨23, 23, .wo, 0x0, []⟩, ⟨15, 0, .ro, 0x0, []⟩]⟩]

/-- Register tables, part 5: TALLY_DONE to MCS_BANDN. -/
def part5 : List RegRow := [
  -- TALLY_DONE
  ⟨0x002800, 0x1, 2, [⟨23, 0, .w1c, 0x0, []⟩]⟩,
  -- TALLY_DONE2
  ⟨0x002802, 0x1, 1, [⟨15, 0, .w1c, 0x0, []⟩]⟩,
  -- TLBIN
  ⟨0x003000, 0x1, 4096, [⟨23, 0, .ro, 0x0, []⟩]⟩,
  -- MCS_CTRL
  ⟨0x004000, 0x1, 1, [⟨23, 23, .rw, 0x1, []⟩, ⟨22, 22, .rw, 0x1, []⟩, ⟨21, 21, .rw, 0x0, []⟩]⟩,
  -- MCS_REF
  ⟨0x004001, 0x1, 1, [⟨23, 22, .rw, 0x1, []⟩, ⟨21, 21, .rw, 0x0, []⟩, ⟨20, 13, .rw, 0xA, []⟩]⟩,
  -- MCS_LOOP
  ⟨0x004002, 0x1, 1, [⟨23, 22, .rw, 0x1, [3]⟩, ⟨21, 14, .rw, 0x14, []⟩, ⟨13, 6, .rw, 0x64, []⟩]⟩,
  -- MCS_RETURN
  ⟨0x004003, 0x1, 1, [⟨23, 23, .rw, 0x0, []⟩, ⟨15, 0, .rw, 0xA, []⟩]⟩,
  -- MCS_STAT
  ⟨0x004004, 0x1, 1, [⟨23, 21, .ro, 0x0, []⟩, ⟨20, 20, .ro, 0x0, []⟩, ⟨19, 19, .ro, 0x0, []⟩, ⟨18, 18, .ro, 0x0, []⟩, ⟨17, 17, .ro, 0x0, []⟩, ⟨16, 16, .ro, 0x0, []⟩, ⟨15, 10, .ro, 0x0, []⟩]⟩,
  -- MCS_DAC
  ⟨0x004005, 0x1, 1, [⟨19, 0, .rw, 0x80000, []⟩]⟩,
  -- MCS_PD_WIN
  ⟨0x004006, 0x1, 1, [⟨23, 23, .ro, 0x0, []⟩, ⟨22, 0, .ro, 0x0, []⟩]⟩,
  -- MCS_S2CAL
  ⟨0x004008, 0x1, 1, [⟨23, 23, .wo, 0x0, []⟩, ⟨22, 22, .ro, 0x0, []⟩, ⟨21, 16, .rw, 0x0, []⟩, ⟨15, 15, .rw, 0x0, []⟩, ⟨7, 0, .ro, 0x0, []⟩]⟩,
  -- MCS_BAND0
  ⟨0x004010, 0x1, 1, [⟨23, 23, .rw, 0x0, []⟩, ⟨22, 22, .rw, 0x0, []⟩, ⟨21, 16, .rw, 0x0, []⟩, ⟨15, 8, .rw, 0xEC, []⟩, ⟨7, 0, .rw, 0x69, []⟩]⟩,
  -- MCS_BAND1
  ⟨0x004011, 0x1, 1, [⟨23, 23, .rw, 0x0, []⟩, ⟨22, 22, .rw, 0x1, []⟩, ⟨21, 16, .rw, 0x0, []⟩, ⟨15, 8, .rw, 0xEC, []⟩, ⟨7, 0, .rw, 0x69, []⟩]⟩,
  -- MCS_BANDN
  ⟨0x004012, 0x1, 14, [⟨23, 23, .rw, 0x0, []⟩, ⟨22, 22, .rw, 0x0, []⟩, ⟨21, 16, .rw, 0x0, []⟩, ⟨15, 8, .rw, 0x0, []⟩, ⟨7, 0, .rw, 0x0, []⟩]⟩]

/-- Register tables, part 6: MCS_MCLK to TIME_WR_NS_HI. -/
def part6 : List RegRow := [
  -- MCS_MCLK
  ⟨0x004020, 0x1, 4, [⟨23, 23, .rw, 0x0, []⟩, ⟨11, 0, .rw, 0x80, []⟩]⟩,
  -- LP_CTRL
  ⟨0x004100, 0x8, 2, [⟨23, 23, .rw, 0x1, []⟩]⟩,
  -- LP_STAT
  ⟨0x004101, 0x8, 2, [⟨23, 22, .ro, 0x0, []⟩, ⟨21, 17, .ro, 0x0, []⟩, ⟨11, 0, .ro, 0x0, []⟩]⟩,
  -- TICK_CUTOFF
  ⟨0x004200, 0x1, 1, [⟨14, 0, .rw, 0x0, []⟩]⟩,
  -- TICK_CUTOFF_EFF
  ⟨0x004201, 0x1, 1, [⟨14, 0, .ro, 0x0, []⟩]⟩,
  -- TICK_RATE
  ⟨0x004202, 0x1, 1, [⟨1, 0, .ro, 0x1, []⟩]⟩,
  -- TIME_CTRL
  ⟨0x005000, 0x1, 1, [⟨23, 23, .wo, 0x0, []⟩, ⟨22, 22, .wo, 0x0, []⟩, ⟨21, 21, .wo, 0x0, []⟩, ⟨20, 20, .ro, 0x1, []⟩, ⟨19, 19, .w1c, 0x0, []⟩, ⟨18, 15, .rw, 0x0, []⟩]⟩,
  -- TIME_RD_SEC_HI
  ⟨0x005001, 0x1, 1, [⟨23, 0, .ro, 0x0, []⟩]⟩,
  -- TIME_RD_SEC_LO
  ⟨0x005002, 0x1, 1, [⟨23, 0, .ro, 0x0, []⟩]⟩,
  -- TIME_RD_NS_HI
  ⟨0x005003, 0x1, 1, [⟨15, 8, .ro, 0x0, []⟩, ⟨5, 0, .ro, 0x0, []⟩]⟩,
  -- TIME_RD_NS_LO
  ⟨0x005004, 0x1, 1, [⟨23, 0, .ro, 0x0, []⟩]⟩,
  -- TIME_WR_SEC_HI
  ⟨0x005005, 0x1, 1, [⟨23, 0, .rw, 0x0, []⟩]⟩,
  -- TIME_WR_SEC_LO
  ⟨0x005006, 0x1, 1, [⟨23, 0, .rw, 0x0, []⟩]⟩,
  -- TIME_WR_NS_HI
  ⟨0x005007, 0x1, 1, [⟨15, 8, .rw, 0x0, []⟩, ⟨5, 0, .rw, 0x0, []⟩]⟩]

/-- Register tables, part 7: TIME_WR_NS_LO to TIME_PCORR. -/
def part7 : List RegRow := [
  -- TIME_WR_NS_LO
  ⟨0x005008, 0x1, 1, [⟨23, 0, .rw, 0x0, []⟩]⟩,
  -- TIME_RATE
  ⟨0x005009, 0x1, 1, [⟨23, 0, .rw, 0x0, []⟩]⟩,
  -- TIME_PCORR
  ⟨0x005010, 0x1, 4, [⟨23, 12, .rw, 0x0, []⟩, ⟨11, 0, .rw, 0x0, []⟩]⟩]

/-- Register tables, part 8: PORT_CTRL01 to PORT_CTRL23. -/
def part8 : List RegRow := [
  -- PORT_CTRL01
  ⟨0x008000, 0x1000, 2, [⟨23, 23, .rw, 0x0, []⟩, ⟨22, 21, .ro, 0x0, []⟩, ⟨20, 20, .rw, 0x0, []⟩, ⟨19, 18, .rw, 0x2, [3]⟩, ⟨17, 17, .rw, 0x0, []⟩, ⟨16, 16, .rw, 0x0, []⟩, ⟨15, 15, .rw, 0x0, []⟩, ⟨14, 14, .rw, 0x0, []⟩]⟩,
  -- PORT_STAT
  ⟨0x008001, 0x1000, 4, [⟨23, 22, .ro, 0x0, []⟩, ⟨21, 21, .ro, 0x0, []⟩, ⟨20, 20, .ro, 0x0, []⟩, ⟨19, 19, .ro, 0x0, []⟩, ⟨18, 18, .ro, 0x0, []⟩, ⟨17, 15, .ro, 0x0, []⟩, ⟨14, 14, .ro, 0x0, []⟩, ⟨13, 13, .ro, 0x0, []⟩, ⟨12, 10, .ro, 0x0, []⟩, ⟨9, 9, .ro, 0x0, []⟩, ⟨8, 8, .ro, 0x0, []⟩, ⟨7, 7, .ro, 0x0, []⟩, ⟨6, 6, .ro, 0x0, []⟩, ⟨5, 3, .ro, 0x0, []⟩]⟩,
  -- PORT_PREEMPT
  ⟨0x008002, 0x1000, 4, [⟨23, 23, .rw, 0x1, []⟩, ⟨22, 22, .rw, 0x0, []⟩, ⟨21, 20, .rw, 0x0, []⟩, ⟨19, 12, .rw, 0xA, []⟩, ⟨11, 4, .rw, 0x8, []⟩]⟩,
  -- PORT_PAUSE
  ⟨0x008003, 0x1000, 4, [⟨23, 23, .rw, 0x1, []⟩, ⟨22, 22, .rw, 0x0, []⟩, ⟨21, 9, .rw, 0x32, []⟩, ⟨8, 0, .rw, 0x64, []⟩]⟩,
  -- PORT_PAUSE2
  ⟨0x008004, 0x1000, 4, [⟨23, 20, .rw, 0x3, []⟩, ⟨15, 0, .rw, 0xFA, []⟩]⟩,
  -- PORT_STEP
  ⟨0x008005, 0x1000, 4, [⟨23, 23, .rw, 0x0, []⟩, ⟨22, 16, .rw, 0x3C, []⟩, ⟨15, 9, .rw, 0x50, []⟩, ⟨8, 0, .rw, 0xA, []⟩]⟩,
  -- PORT_STEP2
  ⟨0x008006, 0x1000, 4, [⟨23, 23, .w1c, 0x0, []⟩, ⟨7, 0, .rw, 0xA, []⟩]⟩,
  -- PORT_STEER
  ⟨0x008007, 0x1000, 4, [⟨5, 4, .rw, 0x2, []⟩, ⟨3, 2, .rw, 0x0, []⟩, ⟨1, 0, .rw, 0x1, []⟩]⟩,
  -- PORT_MAC_HI
  ⟨0x008008, 0x1000, 4, [⟨23, 0, .rw, 0x0, []⟩]⟩,
  -- PORT_MAC_LO
  ⟨0x008009, 0x1000, 4, [⟨23, 0, .rw, 0x0, []⟩]⟩,
  -- PORT_RXFRAMES
  ⟨0x008010, 0x1000, 4, [⟨23, 0, .ro, 0x0, []⟩]⟩,
  -- PORT_TXFRAMES
  ⟨0x008011, 0x1000, 4, [⟨23, 0, .ro, 0x0, []⟩]⟩,
  -- PORT_RXBAD
  ⟨0x008012, 0x1000, 4, [⟨23, 0, .ro, 0x0, []⟩]⟩,
  -- PORT_NOBUF
  ⟨0x008013, 0x1000, 4, [⟨23, 0, .ro, 0x0, []⟩]⟩,
  -- PORT_MACCTL
  ⟨0x008014, 0x1000, 4, [⟨23, 0, .ro, 0x0, []⟩]⟩,
  -- PORT_PAUSE_RX
  ⟨0x008015, 0x1000, 4, [⟨23, 0, .ro, 0x0, []⟩]⟩,
  -- PORT_PAUSE_IGN
  ⟨0x008016, 0x1000, 4, [⟨23, 0, .ro, 0x0, []⟩]⟩,
  -- PORT_PAUSE_ZERO
  ⟨0x008017, 0x1000, 4, [⟨23, 0, .ro, 0x0, []⟩]⟩,
  -- PORT_FRAGERR
  ⟨0x008018, 0x1000, 4, [⟨23, 0, .ro, 0x0, []⟩]⟩,
  -- PORT_XDROP
  ⟨0x008019, 0x1000, 4, [⟨23, 0, .ro, 0x0, []⟩]⟩,
  -- PORT_STEPS
  ⟨0x00801A, 0x1000, 4, [⟨23, 0, .ro, 0x0, []⟩]⟩,
  -- PORT_CNTCLR
  ⟨0x00801F, 0x1000, 4, [⟨23, 23, .wo, 0x0, []⟩]⟩,
  -- PORT_CTRL23
  ⟨0x00A000, 0x1000, 2, [⟨23, 23, .rw, 0x0, []⟩, ⟨22, 21, .ro, 0x0, []⟩, ⟨20, 20, .rw, 0x0, []⟩, ⟨19, 18, .rw, 0x2, [3]⟩, ⟨17, 17, .rw, 0x0, []⟩, ⟨16, 16, .rw, 0x1, []⟩, ⟨15, 15, .rw, 0x0, []⟩, ⟨14, 14, .rw, 0x0, []⟩]⟩]

/-- Register tables, part 9: RING_BASE to STRM_CLR. -/
def part9 : List RegRow := [
  -- RING_BASE
  ⟨0x00C000, 0x8, 8, [⟨23, 0, .rw, 0x0, []⟩]⟩,
  -- RING_CFG
  ⟨0x00C001, 0x8, 8, [⟨23, 23, .rw, 0x0, []⟩, ⟨22, 21, .ro, 0x0, []⟩, ⟨20, 17, .rw, 0x4, []⟩, ⟨1, 0, .rw, 0x0, []⟩]⟩,
  -- RING_TAIL
  ⟨0x00C002, 0x8, 8, [⟨11, 0, .rw, 0x0, []⟩]⟩,
  -- RING_HEAD
  ⟨0x00C003, 0x8, 8, [⟨11, 0, .ro, 0x0, []⟩]⟩,
  -- RING_DISC
  ⟨0x00C004, 0x8, 8, [⟨23, 23, .wo, 0x0, []⟩, ⟨11, 0, .ro, 0x0, []⟩]⟩,
  -- STRM_CTRL
  ⟨0x010000, 0x1, 1, [⟨23, 23, .rw, 0x1, []⟩, ⟨22, 21, .ro, 0x1, []⟩]⟩,
  -- STRM_IFRAME_LO
  ⟨0x010001, 0x1, 1, [⟨23, 0, .rwc, 0x0, []⟩]⟩,
  -- STRM_EFRAME_LO
  ⟨0x010002, 0x1, 1, [⟨23, 0, .rwc, 0x0, []⟩]⟩,
  -- STRM_IFLAG_LO
  ⟨0x010003, 0x1, 1, [⟨23, 0, .rwc, 0x0, []⟩]⟩,
  -- STRM_EFLAG_LO
  ⟨0x010004, 0x1, 1, [⟨23, 0, .rwc, 0x0, []⟩]⟩,
  -- STRM_FRAME_HI
  ⟨0x010005, 0x1, 1, [⟨7, 6, .rwc, 0x0, []⟩, ⟨5, 4, .rwc, 0x0, []⟩, ⟨3, 2, .rwc, 0x0, []⟩, ⟨1, 0, .rwc, 0x0, []⟩]⟩,
  -- STRM_MC_HI
  ⟨0x010006, 0x1, 1, [⟨7, 0, .ro, 0x0, []⟩]⟩,
  -- STRM_MC_LO
  ⟨0x010007, 0x1, 1, [⟨23, 0, .ro, 0x0, []⟩]⟩,
  -- STRM_CLR
  ⟨0x010008, 0x1, 1, [⟨23, 23, .wo, 0x0, []⟩, ⟨22, 22, .wo, 0x0, []⟩, ⟨9, 0, .wo, 0x0, []⟩]⟩]

/-- Register tables, part 10: STRM_CFGERR to RXS_LEGB. -/
def part10 : List RegRow := [
  -- STRM_CFGERR
  ⟨0x010009, 0x1, 1, [⟨23, 23, .w1c, 0x0, []⟩, ⟨22, 22, .ro, 0x0, []⟩, ⟨19, 16, .ro, 0x0, []⟩, ⟨9, 0, .ro, 0x0, []⟩]⟩,
  -- STRM_PIP_HI
  ⟨0x010010, 0x2, 4, [⟨23, 0, .rw, 0x0, []⟩]⟩,
  -- STRM_PIP_LO
  ⟨0x010011, 0x2, 4, [⟨23, 16, .rw, 0x0, []⟩]⟩,
  -- RXS_CFG
  ⟨0x014000, 0x8, 1024, [⟨23, 23, .rw, 0x0, []⟩, ⟨22, 21, .ro, 0x0, []⟩, ⟨20, 19, .rw, 0x1, [3]⟩, ⟨18, 17, .rw, 0x0, []⟩, ⟨16, 15, .rw, 0x1, []⟩, ⟨14, 14, .rw, 0x0, []⟩, ⟨13, 13, .rw, 0x0, []⟩, ⟨12, 6, .rw, 0x1, []⟩, ⟨5, 5, .ro, 0x0, []⟩, ⟨4, 4, .ro, 0x0, []⟩]⟩,
  -- RXS_LO
  ⟨0x014001, 0x8, 1024, [⟨21, 13, .rw, 0x30, []⟩, ⟨12, 0, .rw, 0x0, []⟩]⟩,
  -- RXS_PT
  ⟨0x014002, 0x8, 1024, [⟨23, 17, .rw, 0x61, []⟩, ⟨16, 13, .rw, 0x8, []⟩, ⟨12, 0, .rw, 0x1E0, []⟩]⟩,
  -- RXS_BUF_LO
  ⟨0x014003, 0x8, 1024, [⟨23, 0, .rw, 0x0, []⟩]⟩,
  -- RXS_MISS
  ⟨0x014004, 0x8, 1024, [⟨23, 16, .rw, 0x0, []⟩, ⟨15, 4, .ro, 0x0, []⟩, ⟨1, 0, .rw, 0x0, []⟩]⟩,
  -- RXS_TSOFF
  ⟨0x014005, 0x8, 1024, [⟨23, 0, .rw, 0x0, []⟩]⟩,
  -- RXS_LEGA
  ⟨0x014006, 0x8, 1024, [⟨23, 12, .ro, 0x0, []⟩, ⟨11, 0, .ro, 0x0, []⟩]⟩,
  -- RXS_LEGB
  ⟨0x014007, 0x8, 1024, [⟨23, 12, .ro, 0x0, []⟩, ⟨11, 0, .ro, 0x0, []⟩]⟩]

/-- Register tables, part 11: TXS_CFG to RXL_VID. -/
def part11 : List RegRow := [
  -- TXS_CFG
  ⟨0x016000, 0x8, 1024, [⟨23, 23, .rw, 0x0, []⟩, ⟨22, 21, .ro, 0x0, []⟩, ⟨20, 19, .rw, 0x1, [3]⟩, ⟨18, 17, .rw, 0x0, []⟩, ⟨16, 15, .rw, 0x1, []⟩, ⟨14, 14, .rw, 0x0, []⟩, ⟨12, 6, .rw, 0x1, []⟩]⟩,
  -- TXS_PT
  ⟨0x016001, 0x8, 1024, [⟨23, 17, .rw, 0x61, []⟩, ⟨12, 0, .rw, 0x0, []⟩]⟩,
  -- TXS_PHASE
  ⟨0x016002, 0x8, 1024, [⟨23, 17, .rw, 0x0, []⟩, ⟨16, 11, .rw, 0x22, []⟩, ⟨10, 3, .rw, 0x10, []⟩]⟩,
  -- TXS_TSOFF
  ⟨0x016003, 0x8, 1024, [⟨23, 0, .rw, 0x0, []⟩]⟩,
  -- TXS_SSRC
  ⟨0x016004, 0x8, 1024, [⟨23, 16, .rw, 0x0, []⟩, ⟨15, 0, .rw, 0x0, []⟩]⟩,
  -- TXS_SSRC_LO
  ⟨0x016005, 0x8, 1024, [⟨15, 0, .rw, 0x0, []⟩]⟩,
  -- TXS_SLIP
  ⟨0x016006, 0x8, 1024, [⟨23, 12, .ro, 0x0, []⟩]⟩,
  -- TXS_SEQ
  ⟨0x016007, 0x8, 1024, [⟨15, 0, .ro, 0x0, []⟩]⟩,
  -- DR
  ⟨0x018000, 0x1, 8192, [⟨23, 22, .rwc, 0x0, [3]⟩, ⟨13, 0, .rwc, 0x0, []⟩]⟩,
  -- RXL_DIP
  ⟨0x01A000, 0x4, 2048, [⟨23, 0, .rw, 0x0, []⟩]⟩,
  -- RXL_DPORT
  ⟨0x01A001, 0x4, 2048, [⟨23, 16, .rw, 0x0, []⟩, ⟨15, 0, .rw, 0x0, []⟩]⟩,
  -- RXL_SIP
  ⟨0x01A002, 0x4, 2048, [⟨23, 0, .rw, 0x0, []⟩]⟩,
  -- RXL_VID
  ⟨0x01A003, 0x4, 2048, [⟨23, 16, .rw, 0x0, []⟩, ⟨15, 15, .rw, 0x0, []⟩, ⟨14, 14, .rw, 0x0, []⟩, ⟨13, 12, .rw, 0x0, []⟩, ⟨11, 0, .rw, 0x0, []⟩]⟩]

/-- Register tables, part 12: TXL_DIP to SE_PKT_ECC. -/
def part12 : List RegRow := [
  -- TXL_DIP
  ⟨0x01C000, 0x8, 2048, [⟨23, 0, .rw, 0x0, []⟩]⟩,
  -- TXL_DPORT
  ⟨0x01C001, 0x8, 2048, [⟨23, 16, .rw, 0x0, []⟩, ⟨15, 0, .rw, 0x0, []⟩]⟩,
  -- TXL_PORT
  ⟨0x01C002, 0x8, 2048, [⟨23, 22, .rw, 0x0, []⟩, ⟨21, 21, .rw, 0x0, []⟩, ⟨20, 20, .rw, 0x0, []⟩, ⟨15, 0, .rw, 0x0, []⟩]⟩,
  -- TXL_VID
  ⟨0x01C003, 0x8, 2048, [⟨14, 12, .rw, 0x0, []⟩, ⟨11, 0, .rw, 0x0, []⟩]⟩,
  -- TXL_DMAC_HI
  ⟨0x01C004, 0x8, 2048, [⟨23, 0, .rw, 0x0, []⟩]⟩,
  -- TXL_DMAC_LO
  ⟨0x01C005, 0x8, 2048, [⟨23, 0, .rw, 0x0, []⟩]⟩,
  -- SE_ENG_CTRL
  ⟨0x020000, 0x400, 16, [⟨23, 23, .rw, 0x1, []⟩, ⟨22, 21, .ro, 0x0, []⟩, ⟨1, 1, .rw, 0x0, []⟩, ⟨0, 0, .rw, 0x0, []⟩]⟩,
  -- SE_OVR_CTRL
  ⟨0x020010, 0x400, 16, [⟨19, 12, .rw, 0x30, []⟩, ⟨11, 8, .rw, 0x8, []⟩, ⟨1, 0, .rw, 0x0, [3]⟩]⟩,
  -- SE_OVR_STAT
  ⟨0x020011, 0x400, 16, [⟨23, 23, .ro, 0x0, []⟩, ⟨22, 22, .wo, 0x0, []⟩, ⟨21, 20, .ro, 0x0, []⟩, ⟨19, 19, .wo, 0x0, []⟩, ⟨15, 0, .ro, 0x0, []⟩]⟩,
  -- SE_SLACK
  ⟨0x020012, 0x400, 16, [⟨23, 23, .ro, 0x0, []⟩, ⟨14, 0, .ro, 0x0, []⟩]⟩,
  -- SE_UND_PC
  ⟨0x020013, 0x400, 16, [⟨23, 23, .ro, 0x0, []⟩, ⟨22, 22, .wo, 0x0, []⟩, ⟨21, 18, .ro, 0x0, []⟩, ⟨13, 0, .ro, 0x0, []⟩]⟩,
  -- SE_DUET_CLASH
  ⟨0x020014, 0x400, 16, [⟨23, 23, .wo, 0x0, []⟩, ⟨15, 0, .ro, 0x0, []⟩]⟩,
  -- SE_STICKY
  ⟨0x020015, 0x400, 16, [⟨23, 23, .w1c, 0x0, []⟩, ⟨22, 22, .w1c, 0x0, []⟩, ⟨21, 21, .w1c, 0x0, []⟩, ⟨20, 20, .w1c, 0x0, []⟩, ⟨19, 19, .w1c, 0x0, []⟩, ⟨16, 16, .wo, 0x0, []⟩, ⟨15, 8, .ro, 0x0, []⟩]⟩,
  -- SE_PKT_ECC
  ⟨0x020018, 0x400, 16, [⟨23, 23, .w1c, 0x0, []⟩, ⟨22, 22, .wo, 0x0, []⟩, ⟨21, 12, .ro, 0x0, []⟩, ⟨11, 0, .ro, 0x0, []⟩]⟩]

/-- Register tables, part 13: SU_CTRL to CUE_WINGS. -/
def part13 : List RegRow := [
  -- SU_CTRL
  ⟨0x024000, 0x1, 1, [⟨23, 23, .rw, 0x1, []⟩, ⟨22, 21, .ro, 0x1, []⟩]⟩,
  -- SU_STAT
  ⟨0x024001, 0x1, 1, [⟨23, 21, .ro, 0x0, []⟩, ⟨15, 12, .ro, 0x0, []⟩, ⟨11, 10, .ro, 0x0, []⟩, ⟨9, 0, .ro, 0x0, []⟩]⟩,
  -- SU_CMD
  ⟨0x024002, 0x1, 1, [⟨23, 23, .wo, 0x0, []⟩, ⟨22, 22, .wo, 0x0, []⟩, ⟨21, 19, .ro, 0x0, []⟩, ⟨18, 18, .wo, 0x0, []⟩, ⟨3, 0, .rw, 0x0, []⟩]⟩,
  -- SU_KAT_SIG
  ⟨0x024003, 0x1, 1, [⟨23, 0, .rwc, 0x3C96A5, []⟩]⟩,
  -- SU_KAT_BUILTIN
  ⟨0x024004, 0x1, 1, [⟨23, 0, .ro, 0x3C96A5, []⟩]⟩,
  -- SU_KAT_LAST
  ⟨0x024005, 0x1, 1, [⟨23, 0, .ro, 0x0, []⟩]⟩,
  -- SU_MMLOG
  ⟨0x024006, 0x1, 1, [⟨23, 23, .ro, 0x0, []⟩, ⟨22, 22, .wo, 0x0, []⟩, ⟨21, 18, .ro, 0x0, []⟩, ⟨17, 14, .ro, 0x0, []⟩, ⟨13, 0, .ro, 0x0, []⟩]⟩,
  -- SU_PKT_ECC
  ⟨0x024018, 0x1, 1, [⟨23, 23, .w1c, 0x0, []⟩, ⟨22, 22, .wo, 0x0, []⟩, ⟨21, 12, .ro, 0x0, []⟩, ⟨11, 0, .ro, 0x0, []⟩]⟩,
  -- CUE_CTRL
  ⟨0x028000, 0x1, 1, [⟨23, 23, .rw, 0x1, []⟩, ⟨22, 21, .ro, 0x1, []⟩, ⟨20, 20, .rw, 0x1, []⟩, ⟨19, 18, .rw, 0x3, []⟩, ⟨17, 17, .ro, 0x0, []⟩]⟩,
  -- CUE_STAT
  ⟨0x028001, 0x1, 1, [⟨23, 23, .ro, 0x0, []⟩, ⟨22, 17, .ro, 0x0, []⟩, ⟨16, 16, .ro, 0x0, []⟩, ⟨15, 10, .ro, 0x0, []⟩, ⟨9, 0, .ro, 0x0, []⟩]⟩,
  -- CUE_SLOT_LO
  ⟨0x028010, 0x2, 16, [⟨23, 0, .rw, 0x0, []⟩]⟩,
  -- CUE_SLOT_HI
  ⟨0x028011, 0x2, 16, [⟨1, 0, .rw, 0x0, []⟩]⟩,
  -- CUE_LOAD
  ⟨0x028030, 0x1, 1, [⟨23, 23, .wo, 0x0, []⟩, ⟨22, 22, .rw, 0x0, []⟩, ⟨21, 21, .ro, 0x0, []⟩, ⟨20, 17, .ro, 0x0, []⟩, ⟨16, 10, .ro, 0x0, []⟩, ⟨3, 0, .rw, 0x0, []⟩]⟩,
  -- CUE_WINGS
  ⟨0x028031, 0x1, 1, [⟨23, 23, .ro, 0x0, []⟩, ⟨21, 18, .ro, 0x0, []⟩, ⟨17, 16, .ro, 0x0, []⟩, ⟨7, 0, .ro, 0x0, []⟩]⟩]

/-- Register tables, part 14: CUE_WINGS_ID to CUEN_STATE. -/
def part14 : List RegRow := [
  -- CUE_WINGS_ID
  ⟨0x028032, 0x1, 1, [⟨23, 0, .ro, 0x0, []⟩]⟩,
  -- CUE_STAGE
  ⟨0x028033, 0x1, 1, [⟨23, 23, .ro, 0x0, []⟩, ⟨21, 18, .ro, 0x0, []⟩, ⟨17, 16, .ro, 0x0, []⟩, ⟨7, 0, .ro, 0x0, []⟩]⟩,
  -- CUE_STAGE_ID
  ⟨0x028034, 0x1, 1, [⟨23, 0, .ro, 0x0, []⟩]⟩,
  -- CUE_PATH_SEL
  ⟨0x028040, 0x1, 1, [⟨13, 0, .rw, 0x0, []⟩]⟩,
  -- CUE_PATH_VAL
  ⟨0x028041, 0x1, 1, [⟨23, 23, .ro, 0x0, []⟩, ⟨22, 22, .ro, 0x0, []⟩, ⟨21, 0, .ro, 0x0, []⟩]⟩,
  -- CUE_PATH_CNT
  ⟨0x028042, 0x1, 1, [⟨14, 0, .ro, 0x0, []⟩]⟩,
  -- CUEN_CTL
  ⟨0x028100, 0x8, 64, [⟨23, 23, .rw, 0x0, []⟩, ⟨22, 22, .rw, 0x0, []⟩, ⟨21, 21, .rw, 0x0, []⟩, ⟨20, 20, .rw, 0x0, []⟩, ⟨19, 16, .rw, 0x0, []⟩, ⟨15, 12, .rw, 0x0, []⟩]⟩,
  -- CUEN_SEC_HI
  ⟨0x028101, 0x8, 64, [⟨23, 0, .rw, 0x0, []⟩]⟩,
  -- CUEN_SEC_LO
  ⟨0x028102, 0x8, 64, [⟨23, 0, .rw, 0x0, []⟩]⟩,
  -- CUEN_NS_HI
  ⟨0x028103, 0x8, 64, [⟨5, 0, .rw, 0x0, []⟩]⟩,
  -- CUEN_NS_LO
  ⟨0x028104, 0x8, 64, [⟨23, 0, .rw, 0x0, []⟩]⟩,
  -- CUEN_STATE
  ⟨0x028105, 0x8, 64, [⟨23, 21, .ro, 0x0, []⟩, ⟨20, 17, .ro, 0x0, []⟩, ⟨16, 16, .ro, 0x0, []⟩]⟩]

/-- Register tables, part 15: COLLN_CFG to RAMP_STAT. -/
def part15 : List RegRow := [
  -- COLLN_CFG
  ⟨0x029000, 0x4, 512, [⟨23, 23, .rwc, 0x0, []⟩, ⟨22, 21, .rwc, 0x0, []⟩, ⟨15, 0, .rwc, 0x0, []⟩]⟩,
  -- COLLN_RAMPT
  ⟨0x029001, 0x4, 512, [⟨15, 0, .rwc, 0x1E0, []⟩]⟩,
  -- COLLN_CTIME
  ⟨0x029002, 0x4, 512, [⟨23, 23, .rw, 0x0, []⟩, ⟨15, 0, .rwc, 0x1E0, []⟩]⟩,
  -- COLLN_STAT
  ⟨0x029003, 0x4, 512, [⟨23, 22, .ro, 0x2, []⟩, ⟨21, 18, .ro, 0x0, []⟩, ⟨17, 17, .ro, 0x0, []⟩, ⟨11, 0, .ro, 0x0, []⟩]⟩,
  -- COLL_ECPROF
  ⟨0x029800, 0x1, 1475, [⟨23, 20, .rw, 0x0, []⟩, ⟨19, 16, .rw, 0x0, []⟩, ⟨15, 12, .rw, 0x0, []⟩, ⟨11, 8, .rw, 0x0, []⟩, ⟨7, 4, .rw, 0x0, []⟩, ⟨3, 0, .rw, 0x0, []⟩]⟩,
  -- COLL_ECPROFL
  ⟨0x029DC3, 0x1, 1, [⟨7, 4, .rw, 0x0, []⟩, ⟨3, 0, .rw, 0x0, []⟩]⟩,
  -- COLL_CPROF
  ⟨0x029E00, 0x1, 16, [⟨15, 0, .rw, 0x1E0, []⟩]⟩,
  -- COLL_CURT_CMD
  ⟨0x029F00, 0x1, 1, [⟨23, 23, .wo, 0x0, []⟩, ⟨22, 22, .wo, 0x0, []⟩, ⟨13, 0, .wo, 0x0, []⟩]⟩,
  -- COLL_CURT_SEL
  ⟨0x029F01, 0x1, 1, [⟨13, 0, .rw, 0x0, []⟩]⟩,
  -- COLL_CURT_STAT
  ⟨0x029F02, 0x1, 1, [⟨23, 22, .ro, 0x2, []⟩, ⟨21, 18, .ro, 0x0, []⟩, ⟨15, 0, .ro, 0x0, []⟩]⟩,
  -- COLL_CTRL
  ⟨0x029F08, 0x1, 1, [⟨23, 23, .rw, 0x1, []⟩, ⟨22, 21, .ro, 0x1, []⟩]⟩,
  -- COLL_STAT
  ⟨0x029F09, 0x1, 1, [⟨23, 23, .wo, 0x0, []⟩, ⟨22, 12, .ro, 0x0, []⟩, ⟨11, 0, .ro, 0x0, []⟩]⟩,
  -- RAMP_CTRL
  ⟨0x02A000, 0x1, 1, [⟨23, 23, .rw, 0x1, []⟩, ⟨22, 21, .ro, 0x1, []⟩]⟩,
  -- RAMP_STAT
  ⟨0x02A001, 0x1, 1, [⟨23, 11, .ro, 0x0, []⟩, ⟨10, 10, .wo, 0x0, []⟩, ⟨9, 0, .ro, 0x0, []⟩]⟩]

/-- Register tables, part 16: DU_CTRL to RAMPN_GO. -/
def part16 : List RegRow := [
  -- DU_CTRL
  ⟨0x02C000, 0x10, 4, [⟨23, 23, .rw, 0x1, []⟩, ⟨22, 21, .ro, 0x1, []⟩]⟩,
  -- DU_STAT
  ⟨0x02C001, 0x10, 4, [⟨23, 23, .wo, 0x0, []⟩, ⟨22, 12, .ro, 0x0, []⟩, ⟨11, 0, .ro, 0x0, []⟩]⟩,
  -- TU_CTRL
  ⟨0x02E000, 0x40, 2, [⟨23, 23, .rw, 0x1, []⟩, ⟨22, 21, .ro, 0x1, []⟩]⟩,
  -- TU_QPUSH
  ⟨0x02E001, 0x40, 2, [⟨22, 0, .wo, 0x0, []⟩]⟩,
  -- TU_STAT
  ⟨0x02E002, 0x40, 2, [⟨23, 19, .ro, 0x0, []⟩, ⟨18, 18, .ro, 0x0, []⟩, ⟨17, 8, .ro, 0x0, []⟩]⟩,
  -- TU_CNT
  ⟨0x02E003, 0x40, 2, [⟨23, 23, .wo, 0x0, []⟩, ⟨22, 12, .ro, 0x0, []⟩, ⟨11, 0, .ro, 0x0, []⟩]⟩,
  -- RAMPN_ADDR
  ⟨0x030000, 0x4, 4096, [⟨23, 0, .rwc, 0x0, []⟩]⟩,
  -- RAMPN_CFG
  ⟨0x030001, 0x4, 4096, [⟨23, 23, .rwc, 0x0, []⟩, ⟨22, 22, .rwc, 0x0, []⟩, ⟨17, 16, .rwc, 0x0, []⟩, ⟨15, 0, .rwc, 0x1, []⟩]⟩,
  -- RAMPN_TARGET
  ⟨0x030002, 0x4, 4096, [⟨23, 0, .rwc, 0x0, []⟩]⟩,
  -- RAMPN_GO
  ⟨0x030003, 0x4, 4096, [⟨23, 23, .wo, 0x0, []⟩, ⟨22, 22, .ro, 0x0, []⟩, ⟨15, 0, .ro, 0x0, []⟩]⟩]

/-- Register tables, part 17: DCH0 to MKT_WLIVE_SEL. -/
def part17 : List RegRow := [
  -- DCH0
  ⟨0x034000, 0x8, 2048, [⟨23, 23, .rwc, 0x0, []⟩, ⟨22, 21, .rwc, 0x0, [3]⟩, ⟨20, 20, .rwc, 0x0, []⟩, ⟨19, 19, .rwc, 0x0, []⟩, ⟨9, 0, .rwc, 0x0, []⟩]⟩,
  -- DCH1
  ⟨0x034001, 0x8, 2048, [⟨23, 12, .rwc, 0x0, []⟩, ⟨7, 0, .rwc, 0x0, []⟩]⟩,
  -- DCH2
  ⟨0x034002, 0x8, 2048, [⟨23, 12, .rwc, 0x1, []⟩]⟩,
  -- DCH3
  ⟨0x034003, 0x8, 2048, [⟨23, 11, .rwc, 0x5, []⟩, ⟨10, 2, .rwc, 0x0, []⟩]⟩,
  -- DCH4
  ⟨0x034004, 0x8, 2048, [⟨23, 16, .rwc, 0x0, []⟩, ⟨11, 0, .rwc, 0x0, []⟩]⟩,
  -- DCH5
  ⟨0x034005, 0x8, 2048, [⟨23, 0, .rwc, 0x0, []⟩]⟩,
  -- DCH6
  ⟨0x034006, 0x8, 2048, [⟨23, 18, .rwc, 0x0, []⟩, ⟨17, 10, .rwc, 0x0, []⟩, ⟨1, 0, .rwc, 0x0, []⟩]⟩,
  -- DCH7
  ⟨0x034007, 0x8, 2048, [⟨23, 23, .ro, 0x0, []⟩, ⟨15, 0, .ro, 0x0, []⟩]⟩,
  -- MKT_CTRL
  ⟨0x040000, 0x1, 1, [⟨23, 23, .rw, 0x1, []⟩, ⟨22, 22, .rw, 0x1, []⟩, ⟨15, 8, .rw, 0x4, []⟩]⟩,
  -- MKT_RDERR
  ⟨0x040001, 0x1, 1, [⟨23, 0, .w1c, 0x0, []⟩]⟩,
  -- MKT_UE_LOG0
  ⟨0x040002, 0x1, 1, [⟨23, 0, .ro, 0x0, []⟩]⟩,
  -- MKT_UE_LOG1
  ⟨0x040003, 0x1, 1, [⟨23, 23, .ro, 0x0, []⟩, ⟨22, 22, .ro, 0x0, []⟩, ⟨21, 21, .wo, 0x0, []⟩, ⟨13, 8, .ro, 0x0, []⟩, ⟨1, 0, .ro, 0x0, []⟩]⟩,
  -- MKT_SPARE
  ⟨0x040004, 0x1, 1, [⟨23, 23, .wo, 0x0, []⟩, ⟨22, 21, .ro, 0x0, []⟩, ⟨6, 0, .rw, 0x0, []⟩]⟩,
  -- MKT_WLIVE_SEL
  ⟨0x040010, 0x1, 1, [⟨11, 0, .rw, 0x0, []⟩]⟩]

/-- Register tables, part 18: MKT_WLIVE_BASE to MKT_BOARD_CLR. -/
def part18 : List RegRow := [
  -- MKT_WLIVE_BASE
  ⟨0x040011, 0x1, 1, [⟨23, 0, .rw, 0x0, []⟩]⟩,
  -- MKT_WLIVE_CFG
  ⟨0x040012, 0x1, 1, [⟨23, 16, .rw, 0x0, []⟩, ⟨1, 0, .rw, 0x0, []⟩]⟩,
  -- MKT_WLIVE_LEN
  ⟨0x040013, 0x1, 1, [⟨23, 0, .rw, 0x0, []⟩]⟩,
  -- MKT_WLIVE_CMD
  ⟨0x040014, 0x1, 1, [⟨23, 23, .wo, 0x0, []⟩, ⟨22, 22, .wo, 0x0, []⟩, ⟨21, 21, .ro, 0x0, []⟩]⟩,
  -- MKT_WCLAMP
  ⟨0x040015, 0x1, 1, [⟨23, 23, .wo, 0x0, []⟩, ⟨15, 0, .ro, 0x0, []⟩]⟩,
  -- REH_CTRL
  ⟨0x040100, 0x1, 1, [⟨23, 23, .rw, 0x1, []⟩, ⟨22, 21, .ro, 0x1, []⟩, ⟨11, 0, .rw, 0x3C, []⟩]⟩,
  -- REH_STAT
  ⟨0x040101, 0x1, 1, [⟨23, 23, .ro, 0x0, []⟩, ⟨22, 20, .ro, 0x0, []⟩, ⟨19, 8, .ro, 0x0, []⟩, ⟨7, 0, .ro, 0x0, []⟩]⟩,
  -- MKTS_STATE
  ⟨0x041000, 0x8, 129, [⟨23, 21, .ro, 0x0, []⟩, ⟨7, 0, .ro, 0x0, []⟩]⟩,
  -- MKTS_CE
  ⟨0x041001, 0x8, 129, [⟨23, 0, .ro, 0x0, []⟩]⟩,
  -- MKTS_UE
  ⟨0x041002, 0x8, 129, [⟨23, 0, .ro, 0x0, []⟩]⟩,
  -- MKTS_REPAIR0
  ⟨0x041003, 0x8, 129, [⟨15, 0, .ro, 0x0, []⟩]⟩,
  -- MKTS_REPAIR1
  ⟨0x041004, 0x8, 129, [⟨15, 0, .ro, 0x0, []⟩]⟩,
  -- MKTS_CLR
  ⟨0x041005, 0x8, 129, [⟨23, 23, .wo, 0x0, []⟩]⟩,
  -- MKT_BOARD_CLR
  ⟨0x042000, 0x1, 4096, [⟨15, 0, .rw, 0x0, []⟩]⟩]

/-- Register tables, part 19: MKT_BOARD to VAULT_CSRC_HI. -/
def part19 : List RegRow := [
  -- MKT_BOARD
  ⟨0x043000, 0x1, 4096, [⟨15, 0, .rw, 0x0, []⟩]⟩,
  -- WIN_BASE
  ⟨0x044000, 0x4, 4096, [⟨23, 0, .rwc, 0x0, []⟩]⟩,
  -- WIN_CFG
  ⟨0x044001, 0x4, 4096, [⟨23, 16, .rwc, 0x0, []⟩, ⟨1, 0, .rwc, 0x0, []⟩]⟩,
  -- WIN_LEN
  ⟨0x044002, 0x4, 4096, [⟨23, 0, .rwc, 0x0, []⟩]⟩,
  -- WIN_HEAD
  ⟨0x044003, 0x4, 4096, [⟨23, 0, .rw, 0x0, []⟩]⟩,
  -- VAULT_ADDR
  ⟨0x048000, 0x1, 1, [⟨23, 23, .rw, 0x0, []⟩, ⟨15, 0, .rw, 0x0, []⟩]⟩,
  -- VAULT_DATA
  ⟨0x048001, 0x1, 1, [⟨23, 0, .rw, 0x0, []⟩]⟩,
  -- VAULT_STAT
  ⟨0x048002, 0x1, 1, [⟨23, 23, .ro, 0x0, []⟩, ⟨22, 22, .ro, 0x0, []⟩, ⟨21, 21, .ro, 0x0, []⟩, ⟨20, 18, .ro, 0x0, []⟩]⟩,
  -- VAULT_CMD
  ⟨0x048003, 0x1, 1, [⟨23, 23, .wo, 0x0, []⟩, ⟨22, 22, .wo, 0x0, []⟩, ⟨15, 0, .rw, 0x0, []⟩]⟩,
  -- VAULT_BLOB0
  ⟨0x048004, 0x1, 1, [⟨23, 0, .rw, 0x0, []⟩]⟩,
  -- VAULT_BLOB1
  ⟨0x048005, 0x1, 1, [⟨1, 0, .rw, 0x0, []⟩]⟩,
  -- VAULT_CCMD
  ⟨0x048010, 0x1, 1, [⟨23, 23, .wo, 0x0, []⟩, ⟨2, 0, .rw, 0x0, []⟩]⟩,
  -- VAULT_CSRC_LO
  ⟨0x048011, 0x1, 1, [⟨23, 0, .rw, 0x0, []⟩]⟩,
  -- VAULT_CSRC_HI
  ⟨0x048012, 0x1, 1, [⟨1, 0, .rw, 0x0, []⟩]⟩]

/-- Register tables, part 20: VAULT_CDST_LO to AESI_STAT. -/
def part20 : List RegRow := [
  -- VAULT_CDST_LO
  ⟨0x048013, 0x1, 1, [⟨23, 0, .rw, 0x0, []⟩]⟩,
  -- VAULT_CDST_HI
  ⟨0x048014, 0x1, 1, [⟨1, 0, .rw, 0x0, []⟩]⟩,
  -- VAULT_CLEN
  ⟨0x048015, 0x1, 1, [⟨23, 0, .rw, 0x0, []⟩]⟩,
  -- VAULT_CKEY
  ⟨0x048016, 0x1, 1, [⟨15, 0, .rw, 0x0, []⟩]⟩,
  -- VAULT_CSTAT
  ⟨0x048017, 0x1, 1, [⟨23, 23, .ro, 0x0, []⟩, ⟨22, 20, .ro, 0x0, []⟩]⟩,
  -- TDM_CTRL
  ⟨0x050000, 0x10, 16, [⟨23, 23, .rw, 0x0, []⟩, ⟨22, 21, .ro, 0x0, []⟩, ⟨20, 19, .rw, 0x0, [3]⟩, ⟨18, 18, .rw, 0x1, []⟩, ⟨17, 15, .rw, 0x4, [5, 6, 7]⟩, ⟨14, 14, .rw, 0x1, []⟩, ⟨13, 13, .rw, 0x0, []⟩, ⟨12, 12, .rw, 0x0, []⟩, ⟨11, 11, .rw, 0x0, []⟩]⟩,
  -- TDM_STAT
  ⟨0x050001, 0x10, 16, [⟨23, 23, .ro, 0x0, []⟩, ⟨22, 22, .wo, 0x0, []⟩, ⟨21, 11, .ro, 0x0, []⟩, ⟨10, 0, .ro, 0x0, []⟩]⟩,
  -- AESI_CTRL
  ⟨0x050100, 0x10, 8, [⟨23, 23, .rw, 0x0, []⟩, ⟨22, 21, .ro, 0x0, []⟩, ⟨20, 20, .rw, 0x0, []⟩]⟩,
  -- AESI_STAT
  ⟨0x050101, 0x10, 8, [⟨23, 23, .ro, 0x0, []⟩, ⟨22, 22, .wo, 0x0, []⟩, ⟨21, 18, .ro, 0x0, []⟩, ⟨11, 0, .ro, 0x0, []⟩]⟩]

/-- Register tables, part 21: AESO_CTRL to AESO_CS7. -/
def part21 : List RegRow := [
  -- AESO_CTRL
  ⟨0x050200, 0x10, 8, [⟨23, 23, .rw, 0x0, []⟩, ⟨22, 21, .ro, 0x0, []⟩, ⟨20, 20, .rw, 0x1, []⟩, ⟨19, 19, .rw, 0x0, []⟩]⟩,
  -- AESO_CS0
  ⟨0x050201, 0x10, 8, [⟨23, 0, .rw, 0x0, []⟩]⟩,
  -- AESO_CS1
  ⟨0x050202, 0x10, 8, [⟨23, 0, .rw, 0x0, []⟩]⟩,
  -- AESO_CS2
  ⟨0x050203, 0x10, 8, [⟨23, 0, .rw, 0x0, []⟩]⟩,
  -- AESO_CS3
  ⟨0x050204, 0x10, 8, [⟨23, 0, .rw, 0x0, []⟩]⟩,
  -- AESO_CS4
  ⟨0x050205, 0x10, 8, [⟨23, 0, .rw, 0x0, []⟩]⟩,
  -- AESO_CS5
  ⟨0x050206, 0x10, 8, [⟨23, 0, .rw, 0x0, []⟩]⟩,
  -- AESO_CS6
  ⟨0x050207, 0x10, 8, [⟨23, 0, .rw, 0x0, []⟩]⟩,
  -- AESO_CS7
  ⟨0x050208, 0x10, 8, [⟨23, 0, .rw, 0x0, []⟩]⟩]

/-- Register tables, part 22: MADI_CTRL to TB_BOARD0. -/
def part22 : List RegRow := [
  -- MADI_CTRL
  ⟨0x050300, 0x10, 2, [⟨23, 23, .rw, 0x0, []⟩, ⟨22, 21, .ro, 0x0, []⟩, ⟨20, 20, .rw, 0x0, []⟩, ⟨19, 19, .rw, 0x0, []⟩, ⟨18, 18, .rw, 0x1, []⟩]⟩,
  -- MADI_STAT
  ⟨0x050301, 0x10, 2, [⟨23, 23, .ro, 0x0, []⟩, ⟨22, 22, .wo, 0x0, []⟩, ⟨21, 15, .ro, 0x0, []⟩, ⟨10, 0, .ro, 0x0, []⟩]⟩,
  -- MADI_CS0
  ⟨0x050302, 0x10, 2, [⟨23, 0, .rw, 0x0, []⟩]⟩,
  -- MADI_CS1
  ⟨0x050303, 0x10, 2, [⟨23, 0, .rw, 0x0, []⟩]⟩,
  -- MADI_CS2
  ⟨0x050304, 0x10, 2, [⟨23, 0, .rw, 0x0, []⟩]⟩,
  -- MADI_CS3
  ⟨0x050305, 0x10, 2, [⟨23, 0, .rw, 0x0, []⟩]⟩,
  -- MADI_CS4
  ⟨0x050306, 0x10, 2, [⟨23, 0, .rw, 0x0, []⟩]⟩,
  -- MADI_CS5
  ⟨0x050307, 0x10, 2, [⟨23, 0, .rw, 0x0, []⟩]⟩,
  -- MADI_CS6
  ⟨0x050308, 0x10, 2, [⟨23, 0, .rw, 0x0, []⟩]⟩,
  -- MADI_CS7
  ⟨0x050309, 0x10, 2, [⟨23, 0, .rw, 0x0, []⟩]⟩,
  -- TB_CTRL
  ⟨0x058000, 0x40, 2, [⟨23, 23, .rw, 0x1, []⟩, ⟨22, 21, .ro, 0x1, []⟩, ⟨20, 20, .rw, 0x1, []⟩, ⟨19, 19, .rw, 0x1, []⟩, ⟨18, 15, .rw, 0x0, []⟩]⟩,
  -- TB_STAT
  ⟨0x058001, 0x40, 2, [⟨23, 23, .ro, 0x0, []⟩, ⟨22, 20, .ro, 0x0, []⟩, ⟨19, 19, .ro, 0x0, []⟩, ⟨18, 15, .ro, 0x0, []⟩, ⟨14, 11, .ro, 0x0, []⟩, ⟨10, 10, .ro, 0x0, []⟩, ⟨9, 9, .w1c, 0x0, []⟩]⟩,
  -- TB_EVT
  ⟨0x058002, 0x40, 2, [⟨23, 23, .ro, 0x0, []⟩, ⟨22, 19, .ro, 0x0, []⟩, ⟨18, 16, .ro, 0x0, []⟩, ⟨15, 0, .ro, 0x0, []⟩]⟩,
  -- TB_BOARD0
  ⟨0x058003, 0x1, 1, [⟨15, 5, .rw, 0x7F8, []⟩]⟩]

/-- Register tables, part 23: TB_BOARD1 to HOST_STAT. -/
def part23 : List RegRow := [
  -- TB_BOARD1
  ⟨0x058043, 0x1, 1, [⟨15, 5, .rw, 0x7F9, []⟩]⟩,
  -- PC_CTRL
  ⟨0x060000, 0x100, 2, [⟨23, 23, .rw, 0x0, []⟩, ⟨22, 21, .ro, 0x0, []⟩, ⟨20, 20, .wo, 0x0, []⟩, ⟨19, 19, .ro, 0x0, []⟩, ⟨18, 18, .ro, 0x0, []⟩, ⟨0, 0, .rw, 0x1, []⟩]⟩,
  -- PC_GLENEX
  ⟨0x060010, 0x100, 2, [⟨23, 23, .rw, 0x0, []⟩, ⟨9, 0, .rw, 0x0, []⟩]⟩,
  -- PC_DUET_CLASH
  ⟨0x060011, 0x100, 2, [⟨23, 23, .wo, 0x0, []⟩, ⟨15, 0, .ro, 0x0, []⟩]⟩,
  -- INTC_SRC_RO
  ⟨0x060200, 0x1, 14, [⟨23, 23, .w1c, 0x0, []⟩, ⟨22, 22, .wo, 0x0, []⟩, ⟨21, 21, .rw, 0x0, []⟩, ⟨20, 20, .rw, 0x0, []⟩, ⟨19, 19, .rw, 0x0, []⟩, ⟨18, 18, .rw, 0x0, []⟩, ⟨17, 17, .ro, 0x0, []⟩]⟩,
  -- INTC_SRC_LV
  ⟨0x06020E, 0x1, 2, [⟨23, 23, .ro, 0x0, []⟩, ⟨22, 22, .wo, 0x0, []⟩, ⟨21, 21, .rw, 0x0, []⟩, ⟨20, 20, .rw, 0x0, []⟩, ⟨19, 19, .rw, 0x0, []⟩, ⟨18, 18, .rw, 0x0, []⟩, ⟨17, 17, .ro, 0x1, []⟩]⟩,
  -- INTC_SRC_EV
  ⟨0x060210, 0x1, 48, [⟨23, 23, .w1c, 0x0, []⟩, ⟨22, 22, .wo, 0x0, []⟩, ⟨21, 21, .rw, 0x0, []⟩, ⟨20, 20, .rw, 0x0, []⟩, ⟨19, 19, .rw, 0x0, []⟩, ⟨18, 18, .rw, 0x0, []⟩, ⟨17, 17, .ro, 0x0, []⟩]⟩,
  -- TWI_CTRL
  ⟨0x060300, 0x1, 1, [⟨23, 23, .wo, 0x0, []⟩, ⟨22, 22, .ro, 0x0, []⟩, ⟨21, 20, .ro, 0x0, []⟩, ⟨19, 18, .rw, 0x0, []⟩, ⟨17, 17, .rw, 0x0, []⟩, ⟨16, 16, .rw, 0x1, []⟩, ⟨15, 8, .rw, 0x0, []⟩, ⟨7, 1, .rw, 0x50, []⟩]⟩,
  -- TWI_DATA
  ⟨0x060301, 0x1, 3, [⟨23, 0, .rw, 0x0, []⟩]⟩,
  -- HOST_STAT
  ⟨0x068000, 0x1, 1, [⟨23, 22, .ro, 0x0, []⟩, ⟨21, 20, .ro, 0x0, []⟩, ⟨19, 19, .wo, 0x0, []⟩, ⟨11, 6, .ro, 0x0, []⟩, ⟨5, 0, .ro, 0x0, []⟩]⟩]

/-- Register tables, part 24: PT_BASE to PWR_GOV_STAT. -/
def part24 : List RegRow := [
  -- PT_BASE
  ⟨0x068100, 0x10, 4, [⟨23, 0, .rw, 0x0, []⟩]⟩,
  -- PT_CFG
  ⟨0x068101, 0x10, 4, [⟨23, 23, .rw, 0x0, []⟩, ⟨22, 21, .ro, 0x0, []⟩, ⟨20, 17, .rw, 0x4, []⟩, ⟨1, 0, .rw, 0x0, []⟩]⟩,
  -- PT_TAIL
  ⟨0x068102, 0x10, 4, [⟨11, 0, .rw, 0x0, []⟩]⟩,
  -- PT_HEAD
  ⟨0x068103, 0x10, 4, [⟨11, 0, .ro, 0x0, []⟩]⟩,
  -- PT_FAILS
  ⟨0x068104, 0x10, 4, [⟨23, 23, .wo, 0x0, []⟩, ⟨11, 0, .ro, 0x0, []⟩]⟩,
  -- PWR_GOV_CTRL
  ⟨0x070000, 0x1, 1, [⟨23, 23, .rw, 0x1, []⟩, ⟨19, 16, .rw, 0x4, []⟩, ⟨15, 8, .rw, 0x64, []⟩, ⟨7, 0, .rw, 0x64, []⟩]⟩,
  -- PWR_GOV_STEP
  ⟨0x070001, 0x1, 1, [⟨23, 16, .rw, 0x32, []⟩, ⟨15, 8, .rw, 0xA, []⟩, ⟨7, 0, .rw, 0x5, []⟩]⟩,
  -- PWR_GOV_LIMITS
  ⟨0x070002, 0x1, 1, [⟨23, 12, .rw, 0x352, []⟩, ⟨11, 0, .rw, 0x2A8, []⟩]⟩,
  -- PWR_GOV_START
  ⟨0x070003, 0x1, 1, [⟨11, 0, .rw, 0x352, []⟩]⟩,
  -- PWR_GOV_STAT
  ⟨0x070004, 0x1, 1, [⟨23, 23, .w1c, 0x0, []⟩, ⟨22, 22, .ro, 0x0, []⟩, ⟨21, 21, .w1c, 0x0, []⟩, ⟨20, 12, .ro, 0x0, []⟩, ⟨11, 0, .ro, 0x352, []⟩]⟩]

/-- Every register table of the control space. -/
def rows : List RegRow := part0 ++ part1 ++ part2 ++ part3 ++ part4 ++ part5 ++ part6 ++ part7 ++ part8 ++ part9 ++
  part10 ++ part11 ++ part12 ++ part13 ++ part14 ++ part15 ++ part16 ++ part17 ++ part18 ++ part19 ++
  part20 ++ part21 ++ part22 ++ part23 ++ part24

/-- The part of the map whose tables can hold address `a`. -/
def partOf (a : Nat) : List RegRow :=
  if a < 0x01C000 then
    if a < 0x004020 then
      if a < 0x00100F then
        if a < 0x000403 then
          part0
        else
          if a < 0x000800 then
            part1
          else
            part2
      else
        if a < 0x002000 then
          part3
        else
          if a < 0x002800 then
            part4
          else
            part5
    else
      if a < 0x00C000 then
        if a < 0x005008 then
          part6
        else
          if a < 0x008000 then
            part7
          else
            part8
      else
        if a < 0x010009 then
          part9
        else
          if a < 0x016000 then
            part10
          else
            part11
  else
    if a < 0x040011 then
      if a < 0x029000 then
        if a < 0x024000 then
          part12
        else
          if a < 0x028032 then
            part13
          else
            part14
      else
        if a < 0x02C000 then
          part15
        else
          if a < 0x034000 then
            part16
          else
            part17
    else
      if a < 0x050200 then
        if a < 0x043000 then
          part18
        else
          if a < 0x048013 then
            part19
          else
            part20
      else
        if a < 0x058043 then
          if a < 0x050300 then
            part21
          else
            part22
        else
          if a < 0x068100 then
            part23
          else
            part24

/-- Address `a` is an instance of the table `r`. -/
def RegRow.holds (r : RegRow) (a : Nat) : Bool :=
  r.base ≤ a && (a - r.base) % r.stride == 0 && (a - r.base) / r.stride < r.count

/-- The first table that holds `a`. -/
def lookupIn : List RegRow → Nat → Option RegRow
  | [], _ => none
  | r :: t, a => if RegRow.holds r a then some r else lookupIn t a

/-- The register table that holds address `a`; `none` for an unimplemented address (R9). -/
def lookup (a : Nat) : Option RegRow := lookupIn (partOf a) a

/-- The reset word of a register table (R8). -/
def resetOf (r : RegRow) : Nat := r.fields.foldl (fun n f => n + f.rst * 2 ^ f.lo) 0

end RegMap

/-- The reset value of the register at `a` (R8); an unimplemented address reads 0 (R9). -/
def rstOf (a : Nat) : BitVec 24 :=
  match RegMap.lookup a with
  | some r => BitVec.ofNat 24 (RegMap.resetOf r)
  | none => 0

/-! Addresses of the registers that have effects of their own. -/
namespace A
def ID_VENDOR : Nat := 0x000000
def ID_DEVICE : Nat := 0x000001
def ID_REV : Nat := 0x000002
def ID_OUI : Nat := 0x000003
def ID_MAPVER : Nat := 0x000004
def ID_SCRATCH : Nat := 0x000010
def FEAT0 : Nat := 0x000040
def FEAT1 : Nat := 0x000041
def FEAT2 : Nat := 0x000042
def FEAT15 : Nat := 0x00004F
def HOUSE_STATE : Nat := 0x000400
def HOUSE_STATE_CMD : Nat := 0x000401
def HOUSE_GRANT : Nat := 0x000402
def HOUSE_NE_SEC_HI : Nat := 0x000403
def HOUSE_NE_SEC_LO : Nat := 0x000404
def HOUSE_NE_NS_HI : Nat := 0x000405
def HOUSE_NE_NS_LO : Nat := 0x000406
def HOUSE_SERIAL : Nat := 0x000408
def HOUSE_LC : Nat := 0x00040B
def HOUSE_BOOT : Nat := 0x00040C
def HOUSE_MEMFAIL : Nat := 0x00040D
def HOUSE_POLICY : Nat := 0x000410
def HOUSE_ALERT : Nat := 0x000411
def HOUSE_ALERT_MASK : Nat := 0x000412
def HOUSE_TAMPER : Nat := 0x000414
def HOUSE_TAMPER_T : Nat := 0x000415
def HOUSE_PCWD : Nat := 0x000420
def PB_ADDR : Nat := 0x000800
def PB_DATA : Nat := 0x000801
def PB_DATA3 : Nat := 0x000802
def PB_STAT : Nat := 0x000803
def LEDG_CTRL : Nat := 0x001000
def LEDG_HEAD : Nat := 0x001001
def LEDG_TAIL : Nat := 0x001002
def LEDG_COUNT : Nat := 0x001003
def LEDG_DROPS : Nat := 0x001004
def LEDG_OVWR : Nat := 0x001005
def LEDG_SUPP : Nat := 0x001006
def LEDG_SMBPTR : Nat := 0x001007
def LEDG_SEL : Nat := 0x001008
def LEDG_ENTRY : Nat := 0x001009
def LEDG_CNTCLR : Nat := 0x00100F
def LEDG_PCTRL : Nat := 0x001010
def LEDG_PSTAT : Nat := 0x001011
def LEDG_SWPOST0 : Nat := 0x001012
def LEDG_SWPOST1 : Nat := 0x001013
def LEDG_SWPOST2 : Nat := 0x001014
def LEDG_CNT : Nat := 0x001100
def TL_CTRL : Nat := 0x002000
def TL_TGT_LO : Nat := 0x002001
def TL_TGT_HI : Nat := 0x002002
def TL_WIN : Nat := 0x002003
def TL_LO : Nat := 0x002004
def TL_SHIFT : Nat := 0x002005
def TL_FEED : Nat := 0x002006
def TL_CUR : Nat := 0x002007
def TL_SEQ : Nat := 0x002008
def TL_TICKS : Nat := 0x002009
def TL_NSAMP : Nat := 0x00200A
def TL_MIN : Nat := 0x00200B
def TL_MAX : Nat := 0x00200C
def TL_UNDER : Nat := 0x00200D
def TL_OVER : Nat := 0x00200E
def TL_LOST : Nat := 0x00200F
def TALLY_DONE : Nat := 0x002800
def TALLY_DONE2 : Nat := 0x002802
def TLBIN : Nat := 0x003000
def MCS_CTRL : Nat := 0x004000
def MCS_REF : Nat := 0x004001
def MCS_LOOP : Nat := 0x004002
def MCS_RETURN : Nat := 0x004003
def MCS_STAT : Nat := 0x004004
def MCS_DAC : Nat := 0x004005
def MCS_PD_WIN : Nat := 0x004006
def MCS_S2CAL : Nat := 0x004008
def MCS_BAND : Nat := 0x004010
def MCS_MCLK : Nat := 0x004020
def LP_CTRL : Nat := 0x004100
def LP_STAT : Nat := 0x004101
def TICK_CUTOFF : Nat := 0x004200
def TICK_CUTOFF_EFF : Nat := 0x004201
def TICK_RATE : Nat := 0x004202
def TIME_CTRL : Nat := 0x005000
def TIME_RD_SEC_HI : Nat := 0x005001
def TIME_RD_SEC_LO : Nat := 0x005002
def TIME_RD_NS_HI : Nat := 0x005003
def TIME_RD_NS_LO : Nat := 0x005004
def TIME_WR_SEC_HI : Nat := 0x005005
def TIME_WR_SEC_LO : Nat := 0x005006
def TIME_WR_NS_HI : Nat := 0x005007
def TIME_WR_NS_LO : Nat := 0x005008
def TIME_RATE : Nat := 0x005009
def TIME_PCORR : Nat := 0x005010
def PORT_CTRL : Nat := 0x008000
def PORT_STAT : Nat := 0x008001
def PORT_PREEMPT : Nat := 0x008002
def PORT_PAUSE : Nat := 0x008003
def PORT_PAUSE2 : Nat := 0x008004
def PORT_STEP : Nat := 0x008005
def PORT_STEP2 : Nat := 0x008006
def PORT_STEER : Nat := 0x008007
def PORT_MAC_HI : Nat := 0x008008
def PORT_MAC_LO : Nat := 0x008009
def PORT_RXFRAMES : Nat := 0x008010
def PORT_TXFRAMES : Nat := 0x008011
def PORT_RXBAD : Nat := 0x008012
def PORT_NOBUF : Nat := 0x008013
def PORT_MACCTL : Nat := 0x008014
def PORT_PAUSE_RX : Nat := 0x008015
def PORT_PAUSE_IGN : Nat := 0x008016
def PORT_PAUSE_ZERO : Nat := 0x008017
def PORT_FRAGERR : Nat := 0x008018
def PORT_XDROP : Nat := 0x008019
def PORT_STEPS : Nat := 0x00801A
def PORT_CNTCLR : Nat := 0x00801F
def RING_BASE : Nat := 0x00C000
def RING_CFG : Nat := 0x00C001
def RING_TAIL : Nat := 0x00C002
def RING_HEAD : Nat := 0x00C003
def RING_DISC : Nat := 0x00C004
def STRM_CTRL : Nat := 0x010000
def STRM_IFRAME_LO : Nat := 0x010001
def STRM_EFRAME_LO : Nat := 0x010002
def STRM_IFLAG_LO : Nat := 0x010003
def STRM_EFLAG_LO : Nat := 0x010004
def STRM_FRAME_HI : Nat := 0x010005
def STRM_MC_HI : Nat := 0x010006
def STRM_MC_LO : Nat := 0x010007
def STRM_CLR : Nat := 0x010008
def STRM_CFGERR : Nat := 0x010009
def STRM_PIP_HI : Nat := 0x010010
def STRM_PIP_LO : Nat := 0x010011
def RXS_CFG : Nat := 0x014000
def RXS_LO : Nat := 0x014001
def RXS_PT : Nat := 0x014002
def RXS_BUF_LO : Nat := 0x014003
def RXS_MISS : Nat := 0x014004
def RXS_TSOFF : Nat := 0x014005
def RXS_LEGA : Nat := 0x014006
def RXS_LEGB : Nat := 0x014007
def TXS_CFG : Nat := 0x016000
def TXS_PT : Nat := 0x016001
def TXS_PHASE : Nat := 0x016002
def TXS_TSOFF : Nat := 0x016003
def TXS_SSRC : Nat := 0x016004
def TXS_SSRC_LO : Nat := 0x016005
def TXS_SLIP : Nat := 0x016006
def TXS_SEQ : Nat := 0x016007
def DR : Nat := 0x018000
def RXL_DIP : Nat := 0x01A000
def RXL_DPORT : Nat := 0x01A001
def RXL_SIP : Nat := 0x01A002
def RXL_VID : Nat := 0x01A003
def TXL_DIP : Nat := 0x01C000
def TXL_DPORT : Nat := 0x01C001
def TXL_PORT : Nat := 0x01C002
def TXL_VID : Nat := 0x01C003
def TXL_DMAC_HI : Nat := 0x01C004
def TXL_DMAC_LO : Nat := 0x01C005
def SE_ENG_CTRL : Nat := 0x020000
def SE_OVR_CTRL : Nat := 0x020010
def SE_OVR_STAT : Nat := 0x020011
def SE_SLACK : Nat := 0x020012
def SE_UND_PC : Nat := 0x020013
def SE_DUET_CLASH : Nat := 0x020014
def SE_STICKY : Nat := 0x020015
def SE_PKT_ECC : Nat := 0x020018
def SU_CTRL : Nat := 0x024000
def SU_STAT : Nat := 0x024001
def SU_CMD : Nat := 0x024002
def SU_KAT_SIG : Nat := 0x024003
def SU_KAT_BUILTIN : Nat := 0x024004
def SU_KAT_LAST : Nat := 0x024005
def SU_MMLOG : Nat := 0x024006
def SU_PKT_ECC : Nat := 0x024018
def CUE_CTRL : Nat := 0x028000
def CUE_STAT : Nat := 0x028001
def CUE_SLOT_LO : Nat := 0x028010
def CUE_SLOT_HI : Nat := 0x028011
def CUE_LOAD : Nat := 0x028030
def CUE_WINGS : Nat := 0x028031
def CUE_WINGS_ID : Nat := 0x028032
def CUE_STAGE : Nat := 0x028033
def CUE_STAGE_ID : Nat := 0x028034
def CUE_PATH_SEL : Nat := 0x028040
def CUE_PATH_VAL : Nat := 0x028041
def CUE_PATH_CNT : Nat := 0x028042
def CUEN_CTL : Nat := 0x028100
def CUEN_SEC_HI : Nat := 0x028101
def CUEN_SEC_LO : Nat := 0x028102
def CUEN_NS_HI : Nat := 0x028103
def CUEN_NS_LO : Nat := 0x028104
def CUEN_STATE : Nat := 0x028105
def COLLN_CFG : Nat := 0x029000
def COLLN_RAMPT : Nat := 0x029001
def COLLN_CTIME : Nat := 0x029002
def COLLN_STAT : Nat := 0x029003
def COLL_ECPROF : Nat := 0x029800
def COLL_CPROF : Nat := 0x029E00
def COLL_CURT_CMD : Nat := 0x029F00
def COLL_CURT_SEL : Nat := 0x029F01
def COLL_CURT_STAT : Nat := 0x029F02
def COLL_CTRL : Nat := 0x029F08
def COLL_STAT : Nat := 0x029F09
def RAMP_CTRL : Nat := 0x02A000
def RAMP_STAT : Nat := 0x02A001
def DU_CTRL : Nat := 0x02C000
def DU_STAT : Nat := 0x02C001
def TU_CTRL : Nat := 0x02E000
def TU_QPUSH : Nat := 0x02E001
def TU_STAT : Nat := 0x02E002
def TU_CNT : Nat := 0x02E003
def RAMPN_ADDR : Nat := 0x030000
def RAMPN_CFG : Nat := 0x030001
def RAMPN_TARGET : Nat := 0x030002
def RAMPN_GO : Nat := 0x030003
def DCH0 : Nat := 0x034000
def DCH1 : Nat := 0x034001
def DCH2 : Nat := 0x034002
def DCH3 : Nat := 0x034003
def DCH4 : Nat := 0x034004
def DCH5 : Nat := 0x034005
def DCH6 : Nat := 0x034006
def DCH7 : Nat := 0x034007
def MKT_CTRL : Nat := 0x040000
def MKT_RDERR : Nat := 0x040001
def MKT_UE_LOG0 : Nat := 0x040002
def MKT_UE_LOG1 : Nat := 0x040003
def MKT_SPARE : Nat := 0x040004
def MKT_WLIVE_SEL : Nat := 0x040010
def MKT_WLIVE_BASE : Nat := 0x040011
def MKT_WLIVE_CFG : Nat := 0x040012
def MKT_WLIVE_LEN : Nat := 0x040013
def MKT_WLIVE_CMD : Nat := 0x040014
def MKT_WCLAMP : Nat := 0x040015
def REH_CTRL : Nat := 0x040100
def REH_STAT : Nat := 0x040101
def MKTS_STATE : Nat := 0x041000
def MKTS_CE : Nat := 0x041001
def MKTS_UE : Nat := 0x041002
def MKTS_REPAIR0 : Nat := 0x041003
def MKTS_REPAIR1 : Nat := 0x041004
def MKTS_CLR : Nat := 0x041005
def MKT_BOARD_CLR : Nat := 0x042000
def MKT_BOARD : Nat := 0x043000
def WIN_BASE : Nat := 0x044000
def WIN_CFG : Nat := 0x044001
def WIN_LEN : Nat := 0x044002
def WIN_HEAD : Nat := 0x044003
def VAULT_ADDR : Nat := 0x048000
def VAULT_DATA : Nat := 0x048001
def VAULT_STAT : Nat := 0x048002
def VAULT_CMD : Nat := 0x048003
def VAULT_BLOB0 : Nat := 0x048004
def VAULT_BLOB1 : Nat := 0x048005
def VAULT_CCMD : Nat := 0x048010
def VAULT_CSRC_LO : Nat := 0x048011
def VAULT_CSRC_HI : Nat := 0x048012
def VAULT_CDST_LO : Nat := 0x048013
def VAULT_CDST_HI : Nat := 0x048014
def VAULT_CLEN : Nat := 0x048015
def VAULT_CKEY : Nat := 0x048016
def VAULT_CSTAT : Nat := 0x048017
def TDM_CTRL : Nat := 0x050000
def TDM_STAT : Nat := 0x050001
def AESI_CTRL : Nat := 0x050100
def AESI_STAT : Nat := 0x050101
def AESO_CTRL : Nat := 0x050200
def AESO_CS0 : Nat := 0x050201
def AESO_CS1 : Nat := 0x050202
def AESO_CS2 : Nat := 0x050203
def AESO_CS3 : Nat := 0x050204
def AESO_CS4 : Nat := 0x050205
def AESO_CS5 : Nat := 0x050206
def AESO_CS6 : Nat := 0x050207
def AESO_CS7 : Nat := 0x050208
def MADI_CTRL : Nat := 0x050300
def MADI_STAT : Nat := 0x050301
def MADI_CS0 : Nat := 0x050302
def MADI_CS1 : Nat := 0x050303
def MADI_CS2 : Nat := 0x050304
def MADI_CS3 : Nat := 0x050305
def MADI_CS4 : Nat := 0x050306
def MADI_CS5 : Nat := 0x050307
def MADI_CS6 : Nat := 0x050308
def MADI_CS7 : Nat := 0x050309
def TB_CTRL : Nat := 0x058000
def TB_STAT : Nat := 0x058001
def TB_EVT : Nat := 0x058002
def TB_BOARD : Nat := 0x058003
def PC_CTRL : Nat := 0x060000
def PC_GLENEX : Nat := 0x060010
def PC_DUET_CLASH : Nat := 0x060011
def INTC_SRC : Nat := 0x060200
def TWI_CTRL : Nat := 0x060300
def TWI_DATA : Nat := 0x060301
def HOST_STAT : Nat := 0x068000
def PT_BASE : Nat := 0x068100
def PT_CFG : Nat := 0x068101
def PT_TAIL : Nat := 0x068102
def PT_HEAD : Nat := 0x068103
def PT_FAILS : Nat := 0x068104
def PWR_GOV_CTRL : Nat := 0x070000
def PWR_GOV_STEP : Nat := 0x070001
def PWR_GOV_LIMITS : Nat := 0x070002
def PWR_GOV_START : Nat := 0x070003
def PWR_GOV_STAT : Nat := 0x070004
end A

/-! The named fields. -/
namespace F
def ID_VENDOR_VID : Fld := ⟨0x000000, 0x1, 15, 0⟩
def ID_DEVICE_DID : Fld := ⟨0x000001, 0x1, 15, 0⟩
def ID_REV_LETTER : Fld := ⟨0x000002, 0x1, 23, 16⟩
def ID_REV_STEP : Fld := ⟨0x000002, 0x1, 15, 8⟩
def ID_REV_PCIREV : Fld := ⟨0x000002, 0x1, 7, 0⟩
def ID_OUI_OUI : Fld := ⟨0x000003, 0x1, 23, 0⟩
def ID_MAPVER_MAJOR : Fld := ⟨0x000004, 0x1, 15, 8⟩
def ID_MAPVER_MINOR : Fld := ⟨0x000004, 0x1, 7, 0⟩
def ID_SCRATCH_VALUE : Fld := ⟨0x000010, 0x1, 23, 0⟩
def FEAT0_ISA_MAJ : Fld := ⟨0x000040, 0x1, 23, 16⟩
def FEAT0_ISA_MIN : Fld := ⟨0x000040, 0x1, 15, 8⟩
def FEAT0_NPC : Fld := ⟨0x000040, 0x1, 7, 6⟩
def FEAT0_SU : Fld := ⟨0x000040, 0x1, 5, 5⟩
def FEAT0_NSE : Fld := ⟨0x000040, 0x1, 4, 0⟩
def FEAT1_PROFILE : Fld := ⟨0x000041, 0x1, 23, 22⟩
def FEAT1_MACS : Fld := ⟨0x000041, 0x1, 21, 20⟩
def FEAT1_LOOPD : Fld := ⟨0x000041, 0x1, 19, 17⟩
def FEAT1_FRAMES : Fld := ⟨0x000041, 0x1, 16, 13⟩
def FEAT1_GLENEX : Fld := ⟨0x000041, 0x1, 12, 12⟩
def FEAT1_INTR : Fld := ⟨0x000041, 0x1, 11, 11⟩
def FEAT1_POCKET : Fld := ⟨0x000041, 0x1, 10, 10⟩
def FEAT1_WINSZ : Fld := ⟨0x000041, 0x1, 9, 6⟩
def FEAT2_PROFILE : Fld := ⟨0x000042, 0x1, 23, 22⟩
def FEAT2_MACS : Fld := ⟨0x000042, 0x1, 21, 20⟩
def FEAT2_LOOPD : Fld := ⟨0x000042, 0x1, 19, 17⟩
def FEAT2_FRAMES : Fld := ⟨0x000042, 0x1, 16, 13⟩
def FEAT2_GLENEX : Fld := ⟨0x000042, 0x1, 12, 12⟩
def FEAT2_INTR : Fld := ⟨0x000042, 0x1, 11, 11⟩
def FEAT2_POCKET : Fld := ⟨0x000042, 0x1, 10, 10⟩
def FEAT2_WINSZ : Fld := ⟨0x000042, 0x1, 9, 6⟩
def FEAT15_VALID : Fld := ⟨0x00004F, 0x1, 23, 23⟩
def FEAT15_PROFILE : Fld := ⟨0x00004F, 0x1, 22, 21⟩
def FEAT15_INST : Fld := ⟨0x00004F, 0x1, 4, 0⟩
def HOUSE_STATE_STATE : Fld := ⟨0x000400, 0x1, 23, 21⟩
def HOUSE_STATE_DEPTH : Fld := ⟨0x000400, 0x1, 20, 19⟩
def HOUSE_STATE_LASTRES : Fld := ⟨0x000400, 0x1, 18, 16⟩
def HOUSE_STATE_CMD_CMD : Fld := ⟨0x000401, 0x1, 23, 21⟩
def HOUSE_GRANT_D1 : Fld := ⟨0x000402, 0x1, 23, 23⟩
def HOUSE_GRANT_D2 : Fld := ⟨0x000402, 0x1, 22, 22⟩
def HOUSE_GRANT_D3 : Fld := ⟨0x000402, 0x1, 21, 21⟩
def HOUSE_GRANT_MARGIN : Fld := ⟨0x000402, 0x1, 15, 0⟩
def HOUSE_NE_SEC_HI_SEC : Fld := ⟨0x000403, 0x1, 23, 0⟩
def HOUSE_NE_SEC_LO_SEC : Fld := ⟨0x000404, 0x1, 23, 0⟩
def HOUSE_NE_NS_HI_VALID : Fld := ⟨0x000405, 0x1, 23, 23⟩
def HOUSE_NE_NS_HI_NS : Fld := ⟨0x000405, 0x1, 5, 0⟩
def HOUSE_NE_NS_LO_NS : Fld := ⟨0x000406, 0x1, 23, 0⟩
def HOUSE_SERIAL_S : Fld := ⟨0x000408, 0x1, 23, 0⟩
def HOUSE_LC_STATE : Fld := ⟨0x00040B, 0x1, 23, 21⟩
def HOUSE_LC_TARGET : Fld := ⟨0x00040B, 0x1, 20, 18⟩
def HOUSE_LC_CONFIRM : Fld := ⟨0x00040B, 0x1, 15, 0⟩
def HOUSE_BOOT_COPY : Fld := ⟨0x00040C, 0x1, 23, 23⟩
def HOUSE_BOOT_RESULT : Fld := ⟨0x00040C, 0x1, 22, 20⟩
def HOUSE_BOOT_SIGNED : Fld := ⟨0x00040C, 0x1, 19, 19⟩
def HOUSE_MEMFAIL_POS : Fld := ⟨0x00040D, 0x1, 16, 0⟩
def HOUSE_MEMFAIL_PC0 : Fld := ⟨0x00040D, 0x1, 17, 17⟩
def HOUSE_MEMFAIL_PC1 : Fld := ⟨0x00040D, 0x1, 18, 18⟩
def HOUSE_POLICY_TAKEOVER : Fld := ⟨0x000410, 0x1, 23, 23⟩
def HOUSE_POLICY_TAMPHALT : Fld := ⟨0x000410, 0x1, 22, 22⟩
def HOUSE_POLICY_PECREQ : Fld := ⟨0x000410, 0x1, 21, 21⟩
def HOUSE_ALERT_CAUSE : Fld := ⟨0x000411, 0x1, 11, 0⟩
def HOUSE_ALERT_MASK_MASK : Fld := ⟨0x000412, 0x1, 11, 0⟩
def HOUSE_TAMPER_EN0 : Fld := ⟨0x000414, 0x1, 23, 23⟩
def HOUSE_TAMPER_EN1 : Fld := ⟨0x000414, 0x1, 22, 22⟩
def HOUSE_TAMPER_CAUSE : Fld := ⟨0x000414, 0x1, 21, 18⟩
def HOUSE_TAMPER_COUNT : Fld := ⟨0x000414, 0x1, 17, 10⟩
def HOUSE_TAMPER_T_SEC : Fld := ⟨0x000415, 0x1, 23, 0⟩
def HOUSE_PCWD_EXPIRED : Fld := ⟨0x000420, 0x1, 19, 19⟩
def HOUSE_PCWD_ACTION : Fld := ⟨0x000420, 0x1, 18, 17⟩
def HOUSE_PCWD_KICK : Fld := ⟨0x000420, 0x1, 16, 16⟩
def HOUSE_PCWD_TIMEOUT : Fld := ⟨0x000420, 0x1, 15, 0⟩
def PB_ADDR_AINC : Fld := ⟨0x000800, 0x1, 23, 23⟩
def PB_ADDR_ADDR : Fld := ⟨0x000800, 0x1, 18, 0⟩
def PB_DATA_BYTE : Fld := ⟨0x000801, 0x1, 7, 0⟩
def PB_DATA3_BYTES : Fld := ⟨0x000802, 0x1, 23, 0⟩
def PB_STAT_BUSY : Fld := ⟨0x000803, 0x1, 23, 23⟩
def PB_STAT_DENIED : Fld := ⟨0x000803, 0x1, 22, 22⟩
def LEDG_CTRL_MODE : Fld := ⟨0x001000, 0x1, 23, 23⟩
def LEDG_CTRL_IRQSEV : Fld := ⟨0x001000, 0x1, 22, 21⟩
def LEDG_CTRL_MINSEV : Fld := ⟨0x001000, 0x1, 20, 19⟩
def LEDG_CTRL_CLEAR : Fld := ⟨0x001000, 0x1, 18, 18⟩
def LEDG_CTRL_RLIM : Fld := ⟨0x001000, 0x1, 7, 0⟩
def LEDG_HEAD_HEAD : Fld := ⟨0x001001, 0x1, 11, 0⟩
def LEDG_TAIL_TAIL : Fld := ⟨0x001002, 0x1, 11, 0⟩
def LEDG_COUNT_COUNT : Fld := ⟨0x001003, 0x1, 12, 0⟩
def LEDG_DROPS_COUNT : Fld := ⟨0x001004, 0x1, 23, 0⟩
def LEDG_OVWR_COUNT : Fld := ⟨0x001005, 0x1, 23, 0⟩
def LEDG_SUPP_COUNT : Fld := ⟨0x001006, 0x1, 23, 0⟩
def LEDG_SMBPTR_PTR : Fld := ⟨0x001007, 0x1, 11, 0⟩
def LEDG_SEL_SEL : Fld := ⟨0x001008, 0x1, 11, 0⟩
def LEDG_ENTRY_WORD : Fld := ⟨0x001009, 0x1, 23, 0⟩
def LEDG_CNTCLR_ALL : Fld := ⟨0x00100F, 0x1, 23, 23⟩
def LEDG_CNTCLR_STATCLR : Fld := ⟨0x00100F, 0x1, 22, 22⟩
def LEDG_CNTCLR_CODE : Fld := ⟨0x00100F, 0x1, 7, 0⟩
def LEDG_PCTRL_FLUSH : Fld := ⟨0x001010, 0x1, 23, 23⟩
def LEDG_PCTRL_BUSY : Fld := ⟨0x001010, 0x1, 22, 22⟩
def LEDG_PCTRL_PSEV : Fld := ⟨0x001010, 0x1, 21, 20⟩
def LEDG_PCTRL_PFLUSH : Fld := ⟨0x001010, 0x1, 7, 0⟩
def LEDG_PSTAT_PSKIP : Fld := ⟨0x001011, 0x1, 11, 0⟩
def LEDG_SWPOST0_GO : Fld := ⟨0x001012, 0x1, 23, 23⟩
def LEDG_SWPOST0_CODE : Fld := ⟨0x001012, 0x1, 7, 0⟩
def LEDG_SWPOST1_DETAIL1 : Fld := ⟨0x001013, 0x1, 23, 0⟩
def LEDG_SWPOST2_DETAIL2 : Fld := ⟨0x001014, 0x1, 23, 0⟩
def LEDG_CNT_COUNT : Fld := ⟨0x001100, 0x1, 23, 0⟩
def TL_CTRL_EN : Fld := ⟨0x002000, 0x20, 23, 23⟩
def TL_CTRL_STATUS : Fld := ⟨0x002000, 0x20, 22, 21⟩
def TL_CTRL_HOLD : Fld := ⟨0x002000, 0x20, 20, 20⟩
def TL_CTRL_IRQ : Fld := ⟨0x002000, 0x20, 19, 19⟩
def TL_CTRL_LOG : Fld := ⟨0x002000, 0x20, 18, 18⟩
def TL_CTRL_PROBE : Fld := ⟨0x002000, 0x20, 17, 14⟩
def TL_TGT_LO_TGT : Fld := ⟨0x002001, 0x20, 23, 0⟩
def TL_TGT_HI_LEG : Fld := ⟨0x002002, 0x20, 23, 23⟩
def TL_TGT_HI_TGT : Fld := ⟨0x002002, 0x20, 1, 0⟩
def TL_WIN_WIN : Fld := ⟨0x002003, 0x20, 23, 0⟩
def TL_LO_LO : Fld := ⟨0x002004, 0x20, 23, 0⟩
def TL_SHIFT_SHIFT : Fld := ⟨0x002005, 0x20, 4, 0⟩
def TL_FEED_FEED : Fld := ⟨0x002006, 0x20, 23, 0⟩
def TL_CUR_CUR : Fld := ⟨0x002007, 0x20, 23, 0⟩
def TL_SEQ_VALID : Fld := ⟨0x002008, 0x20, 23, 23⟩
def TL_SEQ_SEQ : Fld := ⟨0x002008, 0x20, 22, 0⟩
def TL_TICKS_TICKS : Fld := ⟨0x002009, 0x20, 23, 0⟩
def TL_NSAMP_NSAMP : Fld := ⟨0x00200A, 0x20, 23, 0⟩
def TL_MIN_MIN : Fld := ⟨0x00200B, 0x20, 23, 0⟩
def TL_MAX_MAX : Fld := ⟨0x00200C, 0x20, 23, 0⟩
def TL_UNDER_UNDER : Fld := ⟨0x00200D, 0x20, 23, 0⟩
def TL_OVER_OVER : Fld := ⟨0x00200E, 0x20, 23, 0⟩
def TL_LOST_CLR : Fld := ⟨0x00200F, 0x20, 23, 23⟩
def TL_LOST_LOST : Fld := ⟨0x00200F, 0x20, 15, 0⟩
def TALLY_DONE_DONE : Fld := ⟨0x002800, 0x1, 23, 0⟩
def TALLY_DONE2_DONE : Fld := ⟨0x002802, 0x1, 15, 0⟩
def TLBIN_BIN : Fld := ⟨0x003000, 0x1, 23, 0⟩
def MCS_CTRL_S1EN : Fld := ⟨0x004000, 0x1, 23, 23⟩
def MCS_CTRL_S2EN : Fld := ⟨0x004000, 0x1, 22, 22⟩
def MCS_CTRL_FAMILY : Fld := ⟨0x004000, 0x1, 21, 21⟩
def MCS_REF_SEL : Fld := ⟨0x004001, 0x1, 23, 22⟩
def MCS_REF_PTPOK : Fld := ⟨0x004001, 0x1, 21, 21⟩
def MCS_REF_RQUAL : Fld := ⟨0x004001, 0x1, 20, 13⟩
def MCS_LOOP_BW : Fld := ⟨0x004002, 0x1, 23, 22⟩
def MCS_LOOP_LOCKWIN : Fld := ⟨0x004002, 0x1, 21, 14⟩
def MCS_LOOP_PULL : Fld := ⟨0x004002, 0x1, 13, 6⟩
def MCS_RETURN_MODE : Fld := ⟨0x004003, 0x1, 23, 23⟩
def MCS_RETURN_SNAP : Fld := ⟨0x004003, 0x1, 15, 0⟩
def MCS_STAT_STATE : Fld := ⟨0x004004, 0x1, 23, 21⟩
def MCS_STAT_LOCK : Fld := ⟨0x004004, 0x1, 20, 20⟩
def MCS_STAT_S2LOCK : Fld := ⟨0x004004, 0x1, 19, 19⟩
def MCS_STAT_TICKSRC : Fld := ⟨0x004004, 0x1, 18, 18⟩
def MCS_STAT_REFVALID : Fld := ⟨0x004004, 0x1, 17, 17⟩
def MCS_STAT_LIMIT : Fld := ⟨0x004004, 0x1, 16, 16⟩
def MCS_STAT_BAND : Fld := ⟨0x004004, 0x1, 15, 10⟩
def MCS_DAC_WORD : Fld := ⟨0x004005, 0x1, 19, 0⟩
def MCS_PD_WIN_WIN : Fld := ⟨0x004006, 0x1, 23, 23⟩
def MCS_PD_WIN_ERR : Fld := ⟨0x004006, 0x1, 22, 0⟩
def MCS_S2CAL_GO : Fld := ⟨0x004008, 0x1, 23, 23⟩
def MCS_S2CAL_BUSY : Fld := ⟨0x004008, 0x1, 22, 22⟩
def MCS_S2CAL_BAND : Fld := ⟨0x004008, 0x1, 21, 16⟩
def MCS_S2CAL_FAM : Fld := ⟨0x004008, 0x1, 15, 15⟩
def MCS_S2CAL_VTUNE : Fld := ⟨0x004008, 0x1, 7, 0⟩
def MCS_BAND_VALID : Fld := ⟨0x004010, 0x1, 23, 23⟩
def MCS_BAND_FAM : Fld := ⟨0x004010, 0x1, 22, 22⟩
def MCS_BAND_BAND : Fld := ⟨0x004010, 0x1, 21, 16⟩
def MCS_BAND_TLO : Fld := ⟨0x004010, 0x1, 15, 8⟩
def MCS_BAND_THI : Fld := ⟨0x004010, 0x1, 7, 0⟩
def MCS_MCLK_EN : Fld := ⟨0x004020, 0x1, 23, 23⟩
def MCS_MCLK_DIV : Fld := ⟨0x004020, 0x1, 11, 0⟩
def LP_CTRL_ENABLE : Fld := ⟨0x004100, 0x8, 23, 23⟩
def LP_STAT_STATE : Fld := ⟨0x004101, 0x8, 23, 22⟩
def LP_STAT_BAND : Fld := ⟨0x004101, 0x8, 21, 17⟩
def LP_STAT_LOSSES : Fld := ⟨0x004101, 0x8, 11, 0⟩
def TICK_CUTOFF_CUTOFF : Fld := ⟨0x004200, 0x1, 14, 0⟩
def TICK_CUTOFF_EFF_EFF : Fld := ⟨0x004201, 0x1, 14, 0⟩
def TICK_RATE_RATE : Fld := ⟨0x004202, 0x1, 1, 0⟩
def TIME_CTRL_SNAP : Fld := ⟨0x005000, 0x1, 23, 23⟩
def TIME_CTRL_SET : Fld := ⟨0x005000, 0x1, 22, 22⟩
def TIME_CTRL_ADD : Fld := ⟨0x005000, 0x1, 21, 21⟩
def TIME_CTRL_COARSE : Fld := ⟨0x005000, 0x1, 20, 20⟩
def TIME_CTRL_CFGERR : Fld := ⟨0x005000, 0x1, 19, 19⟩
def TIME_CTRL_ONESTEP : Fld := ⟨0x005000, 0x1, 18, 15⟩
def TIME_RD_SEC_HI_SEC : Fld := ⟨0x005001, 0x1, 23, 0⟩
def TIME_RD_SEC_LO_SEC : Fld := ⟨0x005002, 0x1, 23, 0⟩
def TIME_RD_NS_HI_FRAC : Fld := ⟨0x005003, 0x1, 15, 8⟩
def TIME_RD_NS_HI_NS : Fld := ⟨0x005003, 0x1, 5, 0⟩
def TIME_RD_NS_LO_NS : Fld := ⟨0x005004, 0x1, 23, 0⟩
def TIME_WR_SEC_HI_SEC : Fld := ⟨0x005005, 0x1, 23, 0⟩
def TIME_WR_SEC_LO_SEC : Fld := ⟨0x005006, 0x1, 23, 0⟩
def TIME_WR_NS_HI_FRAC : Fld := ⟨0x005007, 0x1, 15, 8⟩
def TIME_WR_NS_HI_NS : Fld := ⟨0x005007, 0x1, 5, 0⟩
def TIME_WR_NS_LO_NS : Fld := ⟨0x005008, 0x1, 23, 0⟩
def TIME_RATE_RATE : Fld := ⟨0x005009, 0x1, 23, 0⟩
def TIME_PCORR_RXC : Fld := ⟨0x005010, 0x1, 23, 12⟩
def TIME_PCORR_TXC : Fld := ⟨0x005010, 0x1, 11, 0⟩
def PORT_CTRL_ENABLE : Fld := ⟨0x008000, 0x1000, 23, 23⟩
def PORT_CTRL_STATUS : Fld := ⟨0x008000, 0x1000, 22, 21⟩
def PORT_CTRL_SPEED : Fld := ⟨0x008000, 0x1000, 20, 20⟩
def PORT_CTRL_FEC25 : Fld := ⟨0x008000, 0x1000, 19, 18⟩
def PORT_CTRL_FEC10 : Fld := ⟨0x008000, 0x1000, 17, 17⟩
def PORT_CTRL_LPSEL : Fld := ⟨0x008000, 0x1000, 16, 16⟩
def PORT_CTRL_PROMISC : Fld := ⟨0x008000, 0x1000, 15, 15⟩
def PORT_CTRL_LPI : Fld := ⟨0x008000, 0x1000, 14, 14⟩
def PORT_STAT_LINK : Fld := ⟨0x008001, 0x1000, 23, 22⟩
def PORT_STAT_RATE : Fld := ⟨0x008001, 0x1000, 21, 21⟩
def PORT_STAT_MODABS : Fld := ⟨0x008001, 0x1000, 20, 20⟩
def PORT_STAT_LOS : Fld := ⟨0x008001, 0x1000, 19, 19⟩
def PORT_STAT_TXFLT : Fld := ⟨0x008001, 0x1000, 18, 18⟩
def PORT_STAT_PSTATE : Fld := ⟨0x008001, 0x1000, 17, 15⟩
def PORT_STAT_PAUSED : Fld := ⟨0x008001, 0x1000, 14, 14⟩
def PORT_STAT_HOLDOFF : Fld := ⟨0x008001, 0x1000, 13, 13⟩
def PORT_STAT_STEP : Fld := ⟨0x008001, 0x1000, 12, 10⟩
def PORT_STAT_PARTNER : Fld := ⟨0x008001, 0x1000, 9, 9⟩
def PORT_STAT_PPERMIT : Fld := ⟨0x008001, 0x1000, 8, 8⟩
def PORT_STAT_TWIN_OK : Fld := ⟨0x008001, 0x1000, 7, 7⟩
def PORT_STAT_PTWIN_OK : Fld := ⟨0x008001, 0x1000, 6, 6⟩
def PORT_STAT_DCAUSE : Fld := ⟨0x008001, 0x1000, 5, 3⟩
def PORT_PREEMPT_EN : Fld := ⟨0x008002, 0x1000, 23, 23⟩
def PORT_PREEMPT_VDIS : Fld := ⟨0x008002, 0x1000, 22, 22⟩
def PORT_PREEMPT_ADDFRAG : Fld := ⟨0x008002, 0x1000, 21, 20⟩
def PORT_PREEMPT_VTIME : Fld := ⟨0x008002, 0x1000, 19, 12⟩
def PORT_PREEMPT_ERRLIM : Fld := ⟨0x008002, 0x1000, 11, 4⟩
def PORT_PAUSE_EN : Fld := ⟨0x008003, 0x1000, 23, 23⟩
def PORT_PAUSE_SCOPE : Fld := ⟨0x008003, 0x1000, 22, 22⟩
def PORT_PAUSE_WD : Fld := ⟨0x008003, 0x1000, 21, 9⟩
def PORT_PAUSE_HOLDOFF : Fld := ⟨0x008003, 0x1000, 8, 0⟩
def PORT_PAUSE2_STORMMAX : Fld := ⟨0x008004, 0x1000, 23, 20⟩
def PORT_PAUSE2_XHOLD : Fld := ⟨0x008004, 0x1000, 15, 0⟩
def PORT_STEP_EN : Fld := ⟨0x008005, 0x1000, 23, 23⟩
def PORT_STEP_FLOOR : Fld := ⟨0x008005, 0x1000, 22, 16⟩
def PORT_STEP_CEIL : Fld := ⟨0x008005, 0x1000, 15, 9⟩
def PORT_STEP_HOLD : Fld := ⟨0x008005, 0x1000, 8, 0⟩
def PORT_STEP2_CFGERR : Fld := ⟨0x008006, 0x1000, 23, 23⟩
def PORT_STEP2_HEALTH : Fld := ⟨0x008006, 0x1000, 7, 0⟩
def PORT_STEER_CTLRING : Fld := ⟨0x008007, 0x1000, 5, 4⟩
def PORT_STEER_PTPRING : Fld := ⟨0x008007, 0x1000, 3, 2⟩
def PORT_STEER_DEFRING : Fld := ⟨0x008007, 0x1000, 1, 0⟩
def PORT_MAC_HI_ADDR : Fld := ⟨0x008008, 0x1000, 23, 0⟩
def PORT_MAC_LO_ADDR : Fld := ⟨0x008009, 0x1000, 23, 0⟩
def PORT_RXFRAMES_COUNT : Fld := ⟨0x008010, 0x1000, 23, 0⟩
def PORT_TXFRAMES_COUNT : Fld := ⟨0x008011, 0x1000, 23, 0⟩
def PORT_RXBAD_COUNT : Fld := ⟨0x008012, 0x1000, 23, 0⟩
def PORT_NOBUF_COUNT : Fld := ⟨0x008013, 0x1000, 23, 0⟩
def PORT_MACCTL_COUNT : Fld := ⟨0x008014, 0x1000, 23, 0⟩
def PORT_PAUSE_RX_COUNT : Fld := ⟨0x008015, 0x1000, 23, 0⟩
def PORT_PAUSE_IGN_COUNT : Fld := ⟨0x008016, 0x1000, 23, 0⟩
def PORT_PAUSE_ZERO_COUNT : Fld := ⟨0x008017, 0x1000, 23, 0⟩
def PORT_FRAGERR_COUNT : Fld := ⟨0x008018, 0x1000, 23, 0⟩
def PORT_XDROP_COUNT : Fld := ⟨0x008019, 0x1000, 23, 0⟩
def PORT_STEPS_COUNT : Fld := ⟨0x00801A, 0x1000, 23, 0⟩
def PORT_CNTCLR_CLR : Fld := ⟨0x00801F, 0x1000, 23, 23⟩
def RING_BASE_LO : Fld := ⟨0x00C000, 0x8, 23, 0⟩
def RING_CFG_EN : Fld := ⟨0x00C001, 0x8, 23, 23⟩
def RING_CFG_STATUS : Fld := ⟨0x00C001, 0x8, 22, 21⟩
def RING_CFG_LOG2SZ : Fld := ⟨0x00C001, 0x8, 20, 17⟩
def RING_CFG_BASE_HI : Fld := ⟨0x00C001, 0x8, 1, 0⟩
def RING_TAIL_TAIL : Fld := ⟨0x00C002, 0x8, 11, 0⟩
def RING_HEAD_HEAD : Fld := ⟨0x00C003, 0x8, 11, 0⟩
def RING_DISC_CLR : Fld := ⟨0x00C004, 0x8, 23, 23⟩
def RING_DISC_DISCARD : Fld := ⟨0x00C004, 0x8, 11, 0⟩
def STRM_CTRL_ENABLE : Fld := ⟨0x010000, 0x1, 23, 23⟩
def STRM_CTRL_STATUS : Fld := ⟨0x010000, 0x1, 22, 21⟩
def STRM_IFRAME_LO_LO : Fld := ⟨0x010001, 0x1, 23, 0⟩
def STRM_EFRAME_LO_LO : Fld := ⟨0x010002, 0x1, 23, 0⟩
def STRM_IFLAG_LO_LO : Fld := ⟨0x010003, 0x1, 23, 0⟩
def STRM_EFLAG_LO_LO : Fld := ⟨0x010004, 0x1, 23, 0⟩
def STRM_FRAME_HI_IFRAME : Fld := ⟨0x010005, 0x1, 7, 6⟩
def STRM_FRAME_HI_EFRAME : Fld := ⟨0x010005, 0x1, 5, 4⟩
def STRM_FRAME_HI_IFLAG : Fld := ⟨0x010005, 0x1, 3, 2⟩
def STRM_FRAME_HI_EFLAG : Fld := ⟨0x010005, 0x1, 1, 0⟩
def STRM_MC_HI_MC : Fld := ⟨0x010006, 0x1, 7, 0⟩
def STRM_MC_LO_MC : Fld := ⟨0x010007, 0x1, 23, 0⟩
def STRM_CLR_GO : Fld := ⟨0x010008, 0x1, 23, 23⟩
def STRM_CLR_TX : Fld := ⟨0x010008, 0x1, 22, 22⟩
def STRM_CLR_STREAM : Fld := ⟨0x010008, 0x1, 9, 0⟩
def STRM_CFGERR_ERR : Fld := ⟨0x010009, 0x1, 23, 23⟩
def STRM_CFGERR_TX : Fld := ⟨0x010009, 0x1, 22, 22⟩
def STRM_CFGERR_REASON : Fld := ⟨0x010009, 0x1, 19, 16⟩
def STRM_CFGERR_STREAM : Fld := ⟨0x010009, 0x1, 9, 0⟩
def STRM_PIP_HI_IP : Fld := ⟨0x010010, 0x2, 23, 0⟩
def STRM_PIP_LO_IP : Fld := ⟨0x010011, 0x2, 23, 16⟩
def RXS_CFG_EN : Fld := ⟨0x014000, 0x8, 23, 23⟩
def RXS_CFG_STATUS : Fld := ⟨0x014000, 0x8, 22, 21⟩
def RXS_CFG_FMT : Fld := ⟨0x014000, 0x8, 20, 19⟩
def RXS_CFG_PTIME : Fld := ⟨0x014000, 0x8, 18, 17⟩
def RXS_CFG_RATE : Fld := ⟨0x014000, 0x8, 16, 15⟩
def RXS_CFG_LEGB : Fld := ⟨0x014000, 0x8, 14, 14⟩
def RXS_CFG_SUBST : Fld := ⟨0x014000, 0x8, 13, 13⟩
def RXS_CFG_CH : Fld := ⟨0x014000, 0x8, 12, 6⟩
def RXS_CFG_LIVEA : Fld := ⟨0x014000, 0x8, 5, 5⟩
def RXS_CFG_LIVEB : Fld := ⟨0x014000, 0x8, 4, 4⟩
def RXS_LO_LO : Fld := ⟨0x014001, 0x8, 21, 13⟩
def RXS_LO_FIRSTCH : Fld := ⟨0x014001, 0x8, 12, 0⟩
def RXS_PT_PT : Fld := ⟨0x014002, 0x8, 23, 17⟩
def RXS_PT_HOLDN : Fld := ⟨0x014002, 0x8, 16, 13⟩
def RXS_PT_SFADE : Fld := ⟨0x014002, 0x8, 12, 0⟩
def RXS_BUF_LO_BUF : Fld := ⟨0x014003, 0x8, 23, 0⟩
def RXS_MISS_TSOFF_HI : Fld := ⟨0x014004, 0x8, 23, 16⟩
def RXS_MISS_MISS : Fld := ⟨0x014004, 0x8, 15, 4⟩
def RXS_MISS_BUF_HI : Fld := ⟨0x014004, 0x8, 1, 0⟩
def RXS_TSOFF_TSOFF_LO : Fld := ⟨0x014005, 0x8, 23, 0⟩
def RXS_LEGA_GAP : Fld := ⟨0x014006, 0x8, 23, 12⟩
def RXS_LEGA_LATE : Fld := ⟨0x014006, 0x8, 11, 0⟩
def RXS_LEGB_GAP : Fld := ⟨0x014007, 0x8, 23, 12⟩
def RXS_LEGB_LATE : Fld := ⟨0x014007, 0x8, 11, 0⟩
def TXS_CFG_EN : Fld := ⟨0x016000, 0x8, 23, 23⟩
def TXS_CFG_STATUS : Fld := ⟨0x016000, 0x8, 22, 21⟩
def TXS_CFG_FMT : Fld := ⟨0x016000, 0x8, 20, 19⟩
def TXS_CFG_PTIME : Fld := ⟨0x016000, 0x8, 18, 17⟩
def TXS_CFG_RATE : Fld := ⟨0x016000, 0x8, 16, 15⟩
def TXS_CFG_LEGB : Fld := ⟨0x016000, 0x8, 14, 14⟩
def TXS_CFG_CH : Fld := ⟨0x016000, 0x8, 12, 6⟩
def TXS_PT_PT : Fld := ⟨0x016001, 0x8, 23, 17⟩
def TXS_PT_FIRSTCH : Fld := ⟨0x016001, 0x8, 12, 0⟩
def TXS_PHASE_PHASE : Fld := ⟨0x016002, 0x8, 23, 17⟩
def TXS_PHASE_DSCP : Fld := ⟨0x016002, 0x8, 16, 11⟩
def TXS_PHASE_TTL : Fld := ⟨0x016002, 0x8, 10, 3⟩
def TXS_TSOFF_TSOFF_LO : Fld := ⟨0x016003, 0x8, 23, 0⟩
def TXS_SSRC_TSOFF_HI : Fld := ⟨0x016004, 0x8, 23, 16⟩
def TXS_SSRC_SSRC_HI : Fld := ⟨0x016004, 0x8, 15, 0⟩
def TXS_SSRC_LO_SSRC_LO : Fld := ⟨0x016005, 0x8, 15, 0⟩
def TXS_SLIP_SLIP : Fld := ⟨0x016006, 0x8, 23, 12⟩
def TXS_SEQ_SEQ : Fld := ⟨0x016007, 0x8, 15, 0⟩
def DR_KIND : Fld := ⟨0x018000, 0x1, 23, 22⟩
def DR_SRC : Fld := ⟨0x018000, 0x1, 13, 0⟩
def RXL_DIP_HI : Fld := ⟨0x01A000, 0x4, 23, 0⟩
def RXL_DPORT_DIP_LO : Fld := ⟨0x01A001, 0x4, 23, 16⟩
def RXL_DPORT_DPORT : Fld := ⟨0x01A001, 0x4, 15, 0⟩
def RXL_SIP_HI : Fld := ⟨0x01A002, 0x4, 23, 0⟩
def RXL_VID_SIP_LO : Fld := ⟨0x01A003, 0x4, 23, 16⟩
def RXL_VID_SIPEN : Fld := ⟨0x01A003, 0x4, 15, 15⟩
def RXL_VID_TAG : Fld := ⟨0x01A003, 0x4, 14, 14⟩
def RXL_VID_PORT : Fld := ⟨0x01A003, 0x4, 13, 12⟩
def RXL_VID_VID : Fld := ⟨0x01A003, 0x4, 11, 0⟩
def TXL_DIP_HI : Fld := ⟨0x01C000, 0x8, 23, 0⟩
def TXL_DPORT_DIP_LO : Fld := ⟨0x01C001, 0x8, 23, 16⟩
def TXL_DPORT_DPORT : Fld := ⟨0x01C001, 0x8, 15, 0⟩
def TXL_PORT_PORT : Fld := ⟨0x01C002, 0x8, 23, 22⟩
def TXL_PORT_TAG : Fld := ⟨0x01C002, 0x8, 21, 21⟩
def TXL_PORT_UCAST : Fld := ⟨0x01C002, 0x8, 20, 20⟩
def TXL_PORT_SPORT : Fld := ⟨0x01C002, 0x8, 15, 0⟩
def TXL_VID_PCP : Fld := ⟨0x01C003, 0x8, 14, 12⟩
def TXL_VID_VID : Fld := ⟨0x01C003, 0x8, 11, 0⟩
def TXL_DMAC_HI_HI : Fld := ⟨0x01C004, 0x8, 23, 0⟩
def TXL_DMAC_LO_LO : Fld := ⟨0x01C005, 0x8, 23, 0⟩
def SE_ENG_CTRL_ENABLE : Fld := ⟨0x020000, 0x400, 23, 23⟩
def SE_ENG_CTRL_STATUS : Fld := ⟨0x020000, 0x400, 22, 21⟩
def SE_ENG_CTRL_ACCMODE : Fld := ⟨0x020000, 0x400, 1, 1⟩
def SE_ENG_CTRL_UDTRAP : Fld := ⟨0x020000, 0x400, 0, 0⟩
def SE_OVR_CTRL_REOPEN : Fld := ⟨0x020010, 0x400, 19, 12⟩
def SE_OVR_CTRL_HOLDMAX : Fld := ⟨0x020010, 0x400, 11, 8⟩
def SE_OVR_CTRL_POLICY : Fld := ⟨0x020010, 0x400, 1, 0⟩
def SE_OVR_STAT_CURTAINED : Fld := ⟨0x020011, 0x400, 23, 23⟩
def SE_OVR_STAT_REOPEN : Fld := ⟨0x020011, 0x400, 22, 22⟩
def SE_OVR_STAT_LAST_CAUSE : Fld := ⟨0x020011, 0x400, 21, 20⟩
def SE_OVR_STAT_CLR : Fld := ⟨0x020011, 0x400, 19, 19⟩
def SE_OVR_STAT_COUNT : Fld := ⟨0x020011, 0x400, 15, 0⟩
def SE_SLACK_OVR : Fld := ⟨0x020012, 0x400, 23, 23⟩
def SE_SLACK_LAST : Fld := ⟨0x020012, 0x400, 14, 0⟩
def SE_UND_PC_VALID : Fld := ⟨0x020013, 0x400, 23, 23⟩
def SE_UND_PC_CLR : Fld := ⟨0x020013, 0x400, 22, 22⟩
def SE_UND_PC_CAUSE : Fld := ⟨0x020013, 0x400, 21, 18⟩
def SE_UND_PC_PC : Fld := ⟨0x020013, 0x400, 13, 0⟩
def SE_DUET_CLASH_CLR : Fld := ⟨0x020014, 0x400, 23, 23⟩
def SE_DUET_CLASH_COUNT : Fld := ⟨0x020014, 0x400, 15, 0⟩
def SE_STICKY_SUSPECT : Fld := ⟨0x020015, 0x400, 23, 23⟩
def SE_STICKY_AV : Fld := ⟨0x020015, 0x400, 22, 22⟩
def SE_STICKY_WOV : Fld := ⟨0x020015, 0x400, 21, 21⟩
def SE_STICKY_LOV : Fld := ⟨0x020015, 0x400, 20, 20⟩
def SE_STICKY_UND : Fld := ⟨0x020015, 0x400, 19, 19⟩
def SE_STICKY_CLR : Fld := ⟨0x020015, 0x400, 16, 16⟩
def SE_STICKY_MISMATCH : Fld := ⟨0x020015, 0x400, 15, 8⟩
def SE_PKT_ECC_UE : Fld := ⟨0x020018, 0x400, 23, 23⟩
def SE_PKT_ECC_CLR : Fld := ⟨0x020018, 0x400, 22, 22⟩
def SE_PKT_ECC_UECNT : Fld := ⟨0x020018, 0x400, 21, 12⟩
def SE_PKT_ECC_CECNT : Fld := ⟨0x020018, 0x400, 11, 0⟩
def SU_CTRL_ENABLE : Fld := ⟨0x024000, 0x1, 23, 23⟩
def SU_CTRL_STATUS : Fld := ⟨0x024000, 0x1, 22, 21⟩
def SU_STAT_MODE : Fld := ⟨0x024001, 0x1, 23, 21⟩
def SU_STAT_PARTNER : Fld := ⟨0x024001, 0x1, 15, 12⟩
def SU_STAT_KATRES : Fld := ⟨0x024001, 0x1, 11, 10⟩
def SU_STAT_KATRUNS : Fld := ⟨0x024001, 0x1, 9, 0⟩
def SU_CMD_TAKEOVER : Fld := ⟨0x024002, 0x1, 23, 23⟩
def SU_CMD_RELEASE : Fld := ⟨0x024002, 0x1, 22, 22⟩
def SU_CMD_RESULT : Fld := ⟨0x024002, 0x1, 21, 19⟩
def SU_CMD_CLRFAULT : Fld := ⟨0x024002, 0x1, 18, 18⟩
def SU_CMD_ENG : Fld := ⟨0x024002, 0x1, 3, 0⟩
def SU_KAT_SIG_SIG : Fld := ⟨0x024003, 0x1, 23, 0⟩
def SU_KAT_BUILTIN_SIG : Fld := ⟨0x024004, 0x1, 23, 0⟩
def SU_KAT_LAST_SIG : Fld := ⟨0x024005, 0x1, 23, 0⟩
def SU_MMLOG_VALID : Fld := ⟨0x024006, 0x1, 23, 23⟩
def SU_MMLOG_CLR : Fld := ⟨0x024006, 0x1, 22, 22⟩
def SU_MMLOG_ENG : Fld := ⟨0x024006, 0x1, 21, 18⟩
def SU_MMLOG_KIND : Fld := ⟨0x024006, 0x1, 17, 14⟩
def SU_MMLOG_WORD : Fld := ⟨0x024006, 0x1, 13, 0⟩
def SU_PKT_ECC_UE : Fld := ⟨0x024018, 0x1, 23, 23⟩
def SU_PKT_ECC_CLR : Fld := ⟨0x024018, 0x1, 22, 22⟩
def SU_PKT_ECC_UECNT : Fld := ⟨0x024018, 0x1, 21, 12⟩
def SU_PKT_ECC_CECNT : Fld := ⟨0x024018, 0x1, 11, 0⟩
def CUE_CTRL_ENABLE : Fld := ⟨0x028000, 0x1, 23, 23⟩
def CUE_CTRL_STATUS : Fld := ⟨0x028000, 0x1, 22, 21⟩
def CUE_CTRL_AUTOLOAD : Fld := ⟨0x028000, 0x1, 20, 20⟩
def CUE_CTRL_LPORT : Fld := ⟨0x028000, 0x1, 19, 18⟩
def CUE_CTRL_SIGREQ : Fld := ⟨0x028000, 0x1, 17, 17⟩
def CUE_STAT_HEADV : Fld := ⟨0x028001, 0x1, 23, 23⟩
def CUE_STAT_HEAD : Fld := ⟨0x028001, 0x1, 22, 17⟩
def CUE_STAT_LASTV : Fld := ⟨0x028001, 0x1, 16, 16⟩
def CUE_STAT_LAST : Fld := ⟨0x028001, 0x1, 15, 10⟩
def CUE_STAT_COUNT : Fld := ⟨0x028001, 0x1, 9, 0⟩
def CUE_SLOT_LO_BASE : Fld := ⟨0x028010, 0x2, 23, 0⟩
def CUE_SLOT_HI_BASE : Fld := ⟨0x028011, 0x2, 1, 0⟩
def CUE_LOAD_GO : Fld := ⟨0x028030, 0x1, 23, 23⟩
def CUE_LOAD_MODE : Fld := ⟨0x028030, 0x1, 22, 22⟩
def CUE_LOAD_BUSY : Fld := ⟨0x028030, 0x1, 21, 21⟩
def CUE_LOAD_RESULT : Fld := ⟨0x028030, 0x1, 20, 17⟩
def CUE_LOAD_SECT : Fld := ⟨0x028030, 0x1, 16, 10⟩
def CUE_LOAD_SLOT : Fld := ⟨0x028030, 0x1, 3, 0⟩
def CUE_WINGS_VALID : Fld := ⟨0x028031, 0x1, 23, 23⟩
def CUE_WINGS_SLOT : Fld := ⟨0x028031, 0x1, 21, 18⟩
def CUE_WINGS_RATE : Fld := ⟨0x028031, 0x1, 17, 16⟩
def CUE_WINGS_ID_HI : Fld := ⟨0x028031, 0x1, 7, 0⟩
def CUE_WINGS_ID_ID_LO : Fld := ⟨0x028032, 0x1, 23, 0⟩
def CUE_STAGE_LOADED : Fld := ⟨0x028033, 0x1, 23, 23⟩
def CUE_STAGE_SLOT : Fld := ⟨0x028033, 0x1, 21, 18⟩
def CUE_STAGE_RATE : Fld := ⟨0x028033, 0x1, 17, 16⟩
def CUE_STAGE_ID_HI : Fld := ⟨0x028033, 0x1, 7, 0⟩
def CUE_STAGE_ID_ID_LO : Fld := ⟨0x028034, 0x1, 23, 0⟩
def CUE_PATH_SEL_PATH : Fld := ⟨0x028040, 0x1, 13, 0⟩
def CUE_PATH_VAL_VALID : Fld := ⟨0x028041, 0x1, 23, 23⟩
def CUE_PATH_VAL_PRESENT : Fld := ⟨0x028041, 0x1, 22, 22⟩
def CUE_PATH_VAL_TOTAL : Fld := ⟨0x028041, 0x1, 21, 0⟩
def CUE_PATH_CNT_COUNT : Fld := ⟨0x028042, 0x1, 14, 0⟩
def CUEN_CTL_VALID : Fld := ⟨0x028100, 0x8, 23, 23⟩
def CUEN_CTL_NOW : Fld := ⟨0x028100, 0x8, 22, 22⟩
def CUEN_CTL_MODE : Fld := ⟨0x028100, 0x8, 21, 21⟩
def CUEN_CTL_LATE : Fld := ⟨0x028100, 0x8, 20, 20⟩
def CUEN_CTL_SLOT : Fld := ⟨0x028100, 0x8, 19, 16⟩
def CUEN_CTL_FSLOT : Fld := ⟨0x028100, 0x8, 15, 12⟩
def CUEN_SEC_HI_SEC : Fld := ⟨0x028101, 0x8, 23, 0⟩
def CUEN_SEC_LO_SEC : Fld := ⟨0x028102, 0x8, 23, 0⟩
def CUEN_NS_HI_NS : Fld := ⟨0x028103, 0x8, 5, 0⟩
def CUEN_NS_LO_NS : Fld := ⟨0x028104, 0x8, 23, 0⟩
def CUEN_STATE_STATE : Fld := ⟨0x028105, 0x8, 23, 21⟩
def CUEN_STATE_CAUSE : Fld := ⟨0x028105, 0x8, 20, 17⟩
def CUEN_STATE_LATEFLAG : Fld := ⟨0x028105, 0x8, 16, 16⟩
def COLLN_CFG_EN : Fld := ⟨0x029000, 0x4, 23, 23⟩
def COLLN_CFG_SCALE : Fld := ⟨0x029000, 0x4, 22, 21⟩
def COLLN_CFG_SRCMASK : Fld := ⟨0x029000, 0x4, 15, 0⟩
def COLLN_RAMPT_RAMPT : Fld := ⟨0x029001, 0x4, 15, 0⟩
def COLLN_CTIME_SWCLOSE : Fld := ⟨0x029002, 0x4, 23, 23⟩
def COLLN_CTIME_CTIME : Fld := ⟨0x029002, 0x4, 15, 0⟩
def COLLN_STAT_CSTATE : Fld := ⟨0x029003, 0x4, 23, 22⟩
def COLLN_STAT_CAUSE : Fld := ⟨0x029003, 0x4, 21, 18⟩
def COLLN_STAT_LATE : Fld := ⟨0x029003, 0x4, 17, 17⟩
def COLLN_STAT_NLAST : Fld := ⟨0x029003, 0x4, 11, 0⟩
def COLL_ECPROF_P5 : Fld := ⟨0x029800, 0x1, 23, 20⟩
def COLL_ECPROF_P4 : Fld := ⟨0x029800, 0x1, 19, 16⟩
def COLL_ECPROF_P3 : Fld := ⟨0x029800, 0x1, 15, 12⟩
def COLL_ECPROF_P2 : Fld := ⟨0x029800, 0x1, 11, 8⟩
def COLL_ECPROF_P1 : Fld := ⟨0x029800, 0x1, 7, 4⟩
def COLL_ECPROF_P0 : Fld := ⟨0x029800, 0x1, 3, 0⟩
def COLL_CPROF_TIME : Fld := ⟨0x029E00, 0x1, 15, 0⟩
def COLL_CURT_CMD_CLOSE : Fld := ⟨0x029F00, 0x1, 23, 23⟩
def COLL_CURT_CMD_OPEN : Fld := ⟨0x029F00, 0x1, 22, 22⟩
def COLL_CURT_CMD_CH : Fld := ⟨0x029F00, 0x1, 13, 0⟩
def COLL_CURT_SEL_CH : Fld := ⟨0x029F01, 0x1, 13, 0⟩
def COLL_CURT_STAT_CSTATE : Fld := ⟨0x029F02, 0x1, 23, 22⟩
def COLL_CURT_STAT_CAUSE : Fld := ⟨0x029F02, 0x1, 21, 18⟩
def COLL_CURT_STAT_POS : Fld := ⟨0x029F02, 0x1, 15, 0⟩
def COLL_CTRL_ENABLE : Fld := ⟨0x029F08, 0x1, 23, 23⟩
def COLL_CTRL_STATUS : Fld := ⟨0x029F08, 0x1, 22, 21⟩
def COLL_STAT_CLR : Fld := ⟨0x029F09, 0x1, 23, 23⟩
def COLL_STAT_DROPPED : Fld := ⟨0x029F09, 0x1, 22, 12⟩
def COLL_STAT_LATE : Fld := ⟨0x029F09, 0x1, 11, 0⟩
def RAMP_CTRL_ENABLE : Fld := ⟨0x02A000, 0x1, 23, 23⟩
def RAMP_CTRL_STATUS : Fld := ⟨0x02A000, 0x1, 22, 21⟩
def RAMP_STAT_ACTIVE : Fld := ⟨0x02A001, 0x1, 23, 11⟩
def RAMP_STAT_CLR : Fld := ⟨0x02A001, 0x1, 10, 10⟩
def RAMP_STAT_REFUSED : Fld := ⟨0x02A001, 0x1, 9, 0⟩
def DU_CTRL_ENABLE : Fld := ⟨0x02C000, 0x10, 23, 23⟩
def DU_CTRL_STATUS : Fld := ⟨0x02C000, 0x10, 22, 21⟩
def DU_STAT_CLR : Fld := ⟨0x02C001, 0x10, 23, 23⟩
def DU_STAT_MAXCALLS : Fld := ⟨0x02C001, 0x10, 22, 12⟩
def DU_STAT_REFUSED : Fld := ⟨0x02C001, 0x10, 11, 0⟩
def TU_CTRL_ENABLE : Fld := ⟨0x02E000, 0x40, 23, 23⟩
def TU_CTRL_STATUS : Fld := ⟨0x02E000, 0x40, 22, 21⟩
def TU_QPUSH_DESC : Fld := ⟨0x02E001, 0x40, 22, 0⟩
def TU_STAT_QLEN : Fld := ⟨0x02E002, 0x40, 23, 19⟩
def TU_STAT_BUSY : Fld := ⟨0x02E002, 0x40, 18, 18⟩
def TU_STAT_BADDESC : Fld := ⟨0x02E002, 0x40, 17, 8⟩
def TU_CNT_CLR : Fld := ⟨0x02E003, 0x40, 23, 23⟩
def TU_CNT_REFUSED : Fld := ⟨0x02E003, 0x40, 22, 12⟩
def TU_CNT_DONE : Fld := ⟨0x02E003, 0x40, 11, 0⟩
def RAMPN_ADDR_ADDR_LO : Fld := ⟨0x030000, 0x4, 23, 0⟩
def RAMPN_CFG_EN : Fld := ⟨0x030001, 0x4, 23, 23⟩
def RAMPN_CFG_SHAPE : Fld := ⟨0x030001, 0x4, 22, 22⟩
def RAMPN_CFG_ADDR_HI : Fld := ⟨0x030001, 0x4, 17, 16⟩
def RAMPN_CFG_LEN : Fld := ⟨0x030001, 0x4, 15, 0⟩
def RAMPN_TARGET_TARGET : Fld := ⟨0x030002, 0x4, 23, 0⟩
def RAMPN_GO_GO : Fld := ⟨0x030003, 0x4, 23, 23⟩
def RAMPN_GO_ACTIVE : Fld := ⟨0x030003, 0x4, 22, 22⟩
def RAMPN_GO_REMAIN : Fld := ⟨0x030003, 0x4, 15, 0⟩
def DCH0_EN : Fld := ⟨0x034000, 0x8, 23, 23⟩
def DCH0_TYPE : Fld := ⟨0x034000, 0x8, 22, 21⟩
def DCH0_DET : Fld := ⟨0x034000, 0x8, 20, 20⟩
def DCH0_KEYEN : Fld := ⟨0x034000, 0x8, 19, 19⟩
def DCH0_THR : Fld := ⟨0x034000, 0x8, 9, 0⟩
def DCH1_RATIO : Fld := ⟨0x034001, 0x8, 23, 12⟩
def DCH1_KNEE : Fld := ⟨0x034001, 0x8, 7, 0⟩
def DCH2_ATT : Fld := ⟨0x034002, 0x8, 23, 12⟩
def DCH3_REL : Fld := ⟨0x034003, 0x8, 23, 11⟩
def DCH3_MAKEUP : Fld := ⟨0x034003, 0x8, 10, 2⟩
def DCH4_LA : Fld := ⟨0x034004, 0x8, 23, 16⟩
def DCH4_LAWIN : Fld := ⟨0x034004, 0x8, 11, 0⟩
def DCH5_KEY_LO : Fld := ⟨0x034005, 0x8, 23, 0⟩
def DCH6_LINK : Fld := ⟨0x034006, 0x8, 23, 18⟩
def DCH6_RANGE : Fld := ⟨0x034006, 0x8, 17, 10⟩
def DCH6_KEY_HI : Fld := ⟨0x034006, 0x8, 1, 0⟩
def DCH7_CALLED : Fld := ⟨0x034007, 0x8, 23, 23⟩
def DCH7_GR : Fld := ⟨0x034007, 0x8, 15, 0⟩
def MKT_CTRL_SCRUB : Fld := ⟨0x040000, 0x1, 23, 23⟩
def MKT_CTRL_AUTOSPARE : Fld := ⟨0x040000, 0x1, 22, 22⟩
def MKT_CTRL_UE_RETIRE : Fld := ⟨0x040000, 0x1, 15, 8⟩
def MKT_RDERR_ERR : Fld := ⟨0x040001, 0x1, 23, 0⟩
def MKT_UE_LOG0_ADDR_LO : Fld := ⟨0x040002, 0x1, 23, 0⟩
def MKT_UE_LOG1_VALID : Fld := ⟨0x040003, 0x1, 23, 23⟩
def MKT_UE_LOG1_FIRST : Fld := ⟨0x040003, 0x1, 22, 22⟩
def MKT_UE_LOG1_CLR : Fld := ⟨0x040003, 0x1, 21, 21⟩
def MKT_UE_LOG1_MASTER : Fld := ⟨0x040003, 0x1, 13, 8⟩
def MKT_UE_LOG1_ADDR_HI : Fld := ⟨0x040003, 0x1, 1, 0⟩
def MKT_SPARE_GO : Fld := ⟨0x040004, 0x1, 23, 23⟩
def MKT_SPARE_STATUS : Fld := ⟨0x040004, 0x1, 22, 21⟩
def MKT_SPARE_STALL : Fld := ⟨0x040004, 0x1, 6, 0⟩
def MKT_WLIVE_SEL_WIN : Fld := ⟨0x040010, 0x1, 11, 0⟩
def MKT_WLIVE_BASE_BASE_LO : Fld := ⟨0x040011, 0x1, 23, 0⟩
def MKT_WLIVE_CFG_STEP : Fld := ⟨0x040012, 0x1, 23, 16⟩
def MKT_WLIVE_CFG_BASE_HI : Fld := ⟨0x040012, 0x1, 1, 0⟩
def MKT_WLIVE_LEN_LENM1 : Fld := ⟨0x040013, 0x1, 23, 0⟩
def MKT_WLIVE_CMD_LOAD : Fld := ⟨0x040014, 0x1, 23, 23⟩
def MKT_WLIVE_CMD_APPLY : Fld := ⟨0x040014, 0x1, 22, 22⟩
def MKT_WLIVE_CMD_BUSY : Fld := ⟨0x040014, 0x1, 21, 21⟩
def MKT_WCLAMP_CLR : Fld := ⟨0x040015, 0x1, 23, 23⟩
def MKT_WCLAMP_COUNT : Fld := ⟨0x040015, 0x1, 15, 0⟩
def REH_CTRL_EN : Fld := ⟨0x040100, 0x1, 23, 23⟩
def REH_CTRL_STATUS : Fld := ⟨0x040100, 0x1, 22, 21⟩
def REH_CTRL_ROTATION : Fld := ⟨0x040100, 0x1, 11, 0⟩
def REH_STAT_BEHIND : Fld := ⟨0x040101, 0x1, 23, 23⟩
def REH_STAT_STEP : Fld := ⟨0x040101, 0x1, 22, 20⟩
def REH_STAT_ROTATIONS : Fld := ⟨0x040101, 0x1, 19, 8⟩
def REH_STAT_STALL : Fld := ⟨0x040101, 0x1, 7, 0⟩
def MKTS_STATE_STATE : Fld := ⟨0x041000, 0x8, 23, 21⟩
def MKTS_STATE_PARTNER : Fld := ⟨0x041000, 0x8, 7, 0⟩
def MKTS_CE_COUNT : Fld := ⟨0x041001, 0x8, 23, 0⟩
def MKTS_UE_COUNT : Fld := ⟨0x041002, 0x8, 23, 0⟩
def MKTS_REPAIR0_ONE : Fld := ⟨0x041003, 0x8, 15, 0⟩
def MKTS_REPAIR1_TWO : Fld := ⟨0x041004, 0x8, 15, 0⟩
def MKTS_CLR_CLR : Fld := ⟨0x041005, 0x8, 23, 23⟩
def MKT_BOARD_CLR_BITS : Fld := ⟨0x042000, 0x1, 15, 0⟩
def MKT_BOARD_BITS : Fld := ⟨0x043000, 0x1, 15, 0⟩
def WIN_BASE_BASE_LO : Fld := ⟨0x044000, 0x4, 23, 0⟩
def WIN_CFG_STEP : Fld := ⟨0x044001, 0x4, 23, 16⟩
def WIN_CFG_BASE_HI : Fld := ⟨0x044001, 0x4, 1, 0⟩
def WIN_LEN_LENM1 : Fld := ⟨0x044002, 0x4, 23, 0⟩
def WIN_HEAD_HEAD : Fld := ⟨0x044003, 0x4, 23, 0⟩
def VAULT_ADDR_AINC : Fld := ⟨0x048000, 0x1, 23, 23⟩
def VAULT_ADDR_ADDR : Fld := ⟨0x048000, 0x1, 15, 0⟩
def VAULT_DATA_DATA : Fld := ⟨0x048001, 0x1, 23, 0⟩
def VAULT_STAT_WIPING : Fld := ⟨0x048002, 0x1, 23, 23⟩
def VAULT_STAT_BKEY : Fld := ⟨0x048002, 0x1, 22, 22⟩
def VAULT_STAT_BUSY : Fld := ⟨0x048002, 0x1, 21, 21⟩
def VAULT_STAT_RESULT : Fld := ⟨0x048002, 0x1, 20, 18⟩
def VAULT_CMD_WRAP : Fld := ⟨0x048003, 0x1, 23, 23⟩
def VAULT_CMD_UNWRAP : Fld := ⟨0x048003, 0x1, 22, 22⟩
def VAULT_CMD_WLENM1 : Fld := ⟨0x048003, 0x1, 15, 0⟩
def VAULT_BLOB0_LO : Fld := ⟨0x048004, 0x1, 23, 0⟩
def VAULT_BLOB1_HI : Fld := ⟨0x048005, 0x1, 1, 0⟩
def VAULT_CCMD_GO : Fld := ⟨0x048010, 0x1, 23, 23⟩
def VAULT_CCMD_CMD : Fld := ⟨0x048010, 0x1, 2, 0⟩
def VAULT_CSRC_LO_ADDR : Fld := ⟨0x048011, 0x1, 23, 0⟩
def VAULT_CSRC_HI_ADDR : Fld := ⟨0x048012, 0x1, 1, 0⟩
def VAULT_CDST_LO_ADDR : Fld := ⟨0x048013, 0x1, 23, 0⟩
def VAULT_CDST_HI_ADDR : Fld := ⟨0x048014, 0x1, 1, 0⟩
def VAULT_CLEN_LEN : Fld := ⟨0x048015, 0x1, 23, 0⟩
def VAULT_CKEY_ADDR : Fld := ⟨0x048016, 0x1, 15, 0⟩
def VAULT_CSTAT_BUSY : Fld := ⟨0x048017, 0x1, 23, 23⟩
def VAULT_CSTAT_RESULT : Fld := ⟨0x048017, 0x1, 22, 20⟩
def TDM_CTRL_ENABLE : Fld := ⟨0x050000, 0x10, 23, 23⟩
def TDM_CTRL_STATUS : Fld := ⟨0x050000, 0x10, 22, 21⟩
def TDM_CTRL_FMT : Fld := ⟨0x050000, 0x10, 20, 19⟩
def TDM_CTRL_MASTER : Fld := ⟨0x050000, 0x10, 18, 18⟩
def TDM_CTRL_SLOTS : Fld := ⟨0x050000, 0x10, 17, 15⟩
def TDM_CTRL_DELAY : Fld := ⟨0x050000, 0x10, 14, 14⟩
def TDM_CTRL_FSPOL : Fld := ⟨0x050000, 0x10, 13, 13⟩
def TDM_CTRL_BCLKPOL : Fld := ⟨0x050000, 0x10, 12, 12⟩
def TDM_CTRL_FSW : Fld := ⟨0x050000, 0x10, 11, 11⟩
def TDM_STAT_FRAMED : Fld := ⟨0x050001, 0x10, 23, 23⟩
def TDM_STAT_CLR : Fld := ⟨0x050001, 0x10, 22, 22⟩
def TDM_STAT_PHASE : Fld := ⟨0x050001, 0x10, 21, 11⟩
def TDM_STAT_SLIPS : Fld := ⟨0x050001, 0x10, 10, 0⟩
def AESI_CTRL_ENABLE : Fld := ⟨0x050100, 0x10, 23, 23⟩
def AESI_CTRL_STATUS : Fld := ⟨0x050100, 0x10, 22, 21⟩
def AESI_CTRL_MODE : Fld := ⟨0x050100, 0x10, 20, 20⟩
def AESI_STAT_LOCK : Fld := ⟨0x050101, 0x10, 23, 23⟩
def AESI_STAT_CLR : Fld := ⟨0x050101, 0x10, 22, 22⟩
def AESI_STAT_FSIN : Fld := ⟨0x050101, 0x10, 21, 18⟩
def AESI_STAT_SLIPS : Fld := ⟨0x050101, 0x10, 11, 0⟩
def AESO_CTRL_ENABLE : Fld := ⟨0x050200, 0x10, 23, 23⟩
def AESO_CTRL_STATUS : Fld := ⟨0x050200, 0x10, 22, 21⟩
def AESO_CTRL_CRCC : Fld := ⟨0x050200, 0x10, 20, 20⟩
def AESO_CTRL_HOLD : Fld := ⟨0x050200, 0x10, 19, 19⟩
def AESO_CS0_BYTES : Fld := ⟨0x050201, 0x10, 23, 0⟩
def AESO_CS1_BYTES : Fld := ⟨0x050202, 0x10, 23, 0⟩
def AESO_CS2_BYTES : Fld := ⟨0x050203, 0x10, 23, 0⟩
def AESO_CS3_BYTES : Fld := ⟨0x050204, 0x10, 23, 0⟩
def AESO_CS4_BYTES : Fld := ⟨0x050205, 0x10, 23, 0⟩
def AESO_CS5_BYTES : Fld := ⟨0x050206, 0x10, 23, 0⟩
def AESO_CS6_BYTES : Fld := ⟨0x050207, 0x10, 23, 0⟩
def AESO_CS7_BYTES : Fld := ⟨0x050208, 0x10, 23, 0⟩
def MADI_CTRL_ENABLE : Fld := ⟨0x050300, 0x10, 23, 23⟩
def MADI_CTRL_STATUS : Fld := ⟨0x050300, 0x10, 22, 21⟩
def MADI_CTRL_TXCH56 : Fld := ⟨0x050300, 0x10, 20, 20⟩
def MADI_CTRL_HOLD : Fld := ⟨0x050300, 0x10, 19, 19⟩
def MADI_CTRL_CRCC : Fld := ⟨0x050300, 0x10, 18, 18⟩
def MADI_STAT_LOCK : Fld := ⟨0x050301, 0x10, 23, 23⟩
def MADI_STAT_CLR : Fld := ⟨0x050301, 0x10, 22, 22⟩
def MADI_STAT_RXCH : Fld := ⟨0x050301, 0x10, 21, 15⟩
def MADI_STAT_SLIPS : Fld := ⟨0x050301, 0x10, 10, 0⟩
def MADI_CS0_BYTES : Fld := ⟨0x050302, 0x10, 23, 0⟩
def MADI_CS1_BYTES : Fld := ⟨0x050303, 0x10, 23, 0⟩
def MADI_CS2_BYTES : Fld := ⟨0x050304, 0x10, 23, 0⟩
def MADI_CS3_BYTES : Fld := ⟨0x050305, 0x10, 23, 0⟩
def MADI_CS4_BYTES : Fld := ⟨0x050306, 0x10, 23, 0⟩
def MADI_CS5_BYTES : Fld := ⟨0x050307, 0x10, 23, 0⟩
def MADI_CS6_BYTES : Fld := ⟨0x050308, 0x10, 23, 0⟩
def MADI_CS7_BYTES : Fld := ⟨0x050309, 0x10, 23, 0⟩
def TB_CTRL_ENABLE : Fld := ⟨0x058000, 0x40, 23, 23⟩
def TB_CTRL_STATUS : Fld := ⟨0x058000, 0x40, 22, 21⟩
def TB_CTRL_BIASEN : Fld := ⟨0x058000, 0x40, 20, 20⟩
def TB_CTRL_MUTEBTN : Fld := ⟨0x058000, 0x40, 19, 19⟩
def TB_CTRL_MICGAIN : Fld := ⟨0x058000, 0x40, 18, 15⟩
def TB_STAT_PLUG : Fld := ⟨0x058001, 0x40, 23, 23⟩
def TB_STAT_TYPE : Fld := ⟨0x058001, 0x40, 22, 20⟩
def TB_STAT_BIAS : Fld := ⟨0x058001, 0x40, 19, 19⟩
def TB_STAT_BTN : Fld := ⟨0x058001, 0x40, 18, 15⟩
def TB_STAT_LONG : Fld := ⟨0x058001, 0x40, 14, 11⟩
def TB_STAT_FAULT : Fld := ⟨0x058001, 0x40, 10, 10⟩
def TB_STAT_OVF : Fld := ⟨0x058001, 0x40, 9, 9⟩
def TB_EVT_VALID : Fld := ⟨0x058002, 0x40, 23, 23⟩
def TB_EVT_CODE : Fld := ⟨0x058002, 0x40, 22, 19⟩
def TB_EVT_ARG : Fld := ⟨0x058002, 0x40, 18, 16⟩
def TB_EVT_TIME : Fld := ⟨0x058002, 0x40, 15, 0⟩
def TB_BOARD_BASE : Fld := ⟨0x058003, 0x40, 15, 5⟩
def PC_CTRL_RUN : Fld := ⟨0x060000, 0x100, 23, 23⟩
def PC_CTRL_STATUS : Fld := ⟨0x060000, 0x100, 22, 21⟩
def PC_CTRL_RESET : Fld := ⟨0x060000, 0x100, 20, 20⟩
def PC_CTRL_SEC : Fld := ⟨0x060000, 0x100, 19, 19⟩
def PC_CTRL_MEMFAIL : Fld := ⟨0x060000, 0x100, 18, 18⟩
def PC_CTRL_UDTRAP : Fld := ⟨0x060000, 0x100, 0, 0⟩
def PC_GLENEX_EN : Fld := ⟨0x060010, 0x100, 23, 23⟩
def PC_GLENEX_BANK : Fld := ⟨0x060010, 0x100, 9, 0⟩
def PC_DUET_CLASH_CLR : Fld := ⟨0x060011, 0x100, 23, 23⟩
def PC_DUET_CLASH_COUNT : Fld := ⟨0x060011, 0x100, 15, 0⟩
def INTC_SRC_PEND : Fld := ⟨0x060200, 0x1, 23, 23⟩
def INTC_SRC_SWSET : Fld := ⟨0x060200, 0x1, 22, 22⟩
def INTC_SRC_EN0 : Fld := ⟨0x060200, 0x1, 21, 21⟩
def INTC_SRC_EN1 : Fld := ⟨0x060200, 0x1, 20, 20⟩
def INTC_SRC_ENH : Fld := ⟨0x060200, 0x1, 19, 19⟩
def INTC_SRC_LEVEL : Fld := ⟨0x060200, 0x1, 18, 18⟩
def INTC_SRC_KIND : Fld := ⟨0x060200, 0x1, 17, 17⟩
def TWI_CTRL_GO : Fld := ⟨0x060300, 0x1, 23, 23⟩
def TWI_CTRL_BUSY : Fld := ⟨0x060300, 0x1, 22, 22⟩
def TWI_CTRL_RESULT : Fld := ⟨0x060300, 0x1, 21, 20⟩
def TWI_CTRL_PORT : Fld := ⟨0x060300, 0x1, 19, 18⟩
def TWI_CTRL_READ : Fld := ⟨0x060300, 0x1, 17, 17⟩
def TWI_CTRL_FAST : Fld := ⟨0x060300, 0x1, 16, 16⟩
def TWI_CTRL_OFFSET : Fld := ⟨0x060300, 0x1, 15, 8⟩
def TWI_CTRL_ADDR : Fld := ⟨0x060300, 0x1, 7, 1⟩
def TWI_DATA_DATA : Fld := ⟨0x060301, 0x1, 23, 0⟩
def HOST_STAT_SPEED : Fld := ⟨0x068000, 0x1, 23, 22⟩
def HOST_STAT_WIDTH : Fld := ⟨0x068000, 0x1, 21, 20⟩
def HOST_STAT_CLR : Fld := ⟨0x068000, 0x1, 19, 19⟩
def HOST_STAT_PARTIAL : Fld := ⟨0x068000, 0x1, 11, 6⟩
def HOST_STAT_DENIED : Fld := ⟨0x068000, 0x1, 5, 0⟩
def PT_BASE_LO : Fld := ⟨0x068100, 0x10, 23, 0⟩
def PT_CFG_EN : Fld := ⟨0x068101, 0x10, 23, 23⟩
def PT_CFG_STATUS : Fld := ⟨0x068101, 0x10, 22, 21⟩
def PT_CFG_LOG2SZ : Fld := ⟨0x068101, 0x10, 20, 17⟩
def PT_CFG_BASE_HI : Fld := ⟨0x068101, 0x10, 1, 0⟩
def PT_TAIL_TAIL : Fld := ⟨0x068102, 0x10, 11, 0⟩
def PT_HEAD_HEAD : Fld := ⟨0x068103, 0x10, 11, 0⟩
def PT_FAILS_CLR : Fld := ⟨0x068104, 0x10, 23, 23⟩
def PT_FAILS_FAILS : Fld := ⟨0x068104, 0x10, 11, 0⟩
def PWR_GOV_CTRL_EN : Fld := ⟨0x070000, 0x1, 23, 23⟩
def PWR_GOV_CTRL_HOLDWIN : Fld := ⟨0x070000, 0x1, 19, 16⟩
def PWR_GOV_CTRL_WINDOW : Fld := ⟨0x070000, 0x1, 15, 8⟩
def PWR_GOV_CTRL_GUARD : Fld := ⟨0x070000, 0x1, 7, 0⟩
def PWR_GOV_STEP_HYST : Fld := ⟨0x070001, 0x1, 23, 16⟩
def PWR_GOV_STEP_STEP_UP : Fld := ⟨0x070001, 0x1, 15, 8⟩
def PWR_GOV_STEP_STEP_DN : Fld := ⟨0x070001, 0x1, 7, 0⟩
def PWR_GOV_LIMITS_VMAX : Fld := ⟨0x070002, 0x1, 23, 12⟩
def PWR_GOV_LIMITS_VMIN : Fld := ⟨0x070002, 0x1, 11, 0⟩
def PWR_GOV_START_VSTART : Fld := ⟨0x070003, 0x1, 11, 0⟩
def PWR_GOV_STAT_CFGERR : Fld := ⟨0x070004, 0x1, 23, 23⟩
def PWR_GOV_STAT_ATMAX : Fld := ⟨0x070004, 0x1, 22, 22⟩
def PWR_GOV_STAT_BUSERR : Fld := ⟨0x070004, 0x1, 21, 21⟩
def PWR_GOV_STAT_MINSLACK : Fld := ⟨0x070004, 0x1, 20, 12⟩
def PWR_GOV_STAT_VREQ : Fld := ⟨0x070004, 0x1, 11, 0⟩
end F

end Sys2Proof.Machine
end

