-- ==== Sys2Proof/Config.lean ====
section
/-!
DEFINITION. What an implementation fixes and what the spec leaves open. Every constant here is opaque: no proof can
see its value, so a theorem holds for every one. Each is named in the assumption log.
-/
namespace Sys2Proof.Config

/-- A free 24-bit value, fresh for each value of the counter `Dev.fresh` (notes/assumptions/2). -/
opaque freeWord : Nat → W24

/-- The case recorded in UND_PC when MTS itself sets UND, for which R135 names none (notes/assumptions/12). -/
opaque undCaseOfMts : Nat → Nat

/-- The words of the built-in known-answer program of revision A1, which R201 uses and the spec does not list
(notes/assumptions/14). -/
opaque builtinKat : Nat → W32

/-- How many contributions the device expects in a tick from an engine position to a bus whose SRCMASK names it, beside
the first, which the mask itself expects: R41 speaks of them and no rule says where the device has the number from
(image ID, position, bus; notes/assumptions/15). -/
opaque expectedContribs : Nat → Nat → Nat → Nat

/-- The engine position to which an image assigns an egress channel, 16 or more for none: R41 and R134 speak of the
assignment and no part of the image format carries it (image ID, channel; notes/assumptions/16). -/
opaque egressEngine : Nat → Nat → Nat

/-- How far the natural frequency of the stage-1 loop at a bandwidth of 1 Hz lies above 1.6 rad/s, in 10^-6 rad/s: R340 gives
the loop's damping, 1.0, and its bandwidth, and does not say how the bandwidth is measured. The range runs from the noise
bandwidth at its foot, past the fall of the closed loop by 3 dB, to the natural frequency itself at its top
(notes/assumptions/52). -/
opaque loopBand : Fin 4683186

/-- The `k`-th draw of byte `i` from the random source (R196, R405). -/
opaque randomByte : Nat → Nat → BitVec 8

/-- Fuse values the spec leaves to Ouvlor's factory (R176, R355, R392, R210): the serial number, the life-cycle state
after the fuses are first loaded, the column-repair words of each stall, the stage-2 bands of entries 0 and 1, and the
key hash (notes/assumptions/21). -/
opaque fuseSerial : BitVec 64
opaque fuseLifeCycle : BitVec 3
opaque fuseRepair : Nat → Nat → BitVec 16
opaque fuseBand : Nat → BitVec 6
opaque fuseBandValid : Nat → Bool
opaque fuseKeyHash : List (BitVec 8)

end Sys2Proof.Config
end

