-- ==== Sys2Proof/Machine/State.lean ====
section
/-!
DEFINITION. The state of the block: everything the spec gives the RP8K, as plain data, and the state after a device
reset. The control registers are words of `Dev.ctl` under their addresses (their names and reset values are those of
Sys2Proof/Machine/RegMap.lean); the records below hold what stands behind the registers. A default written beside a
field is its value at reset.
-/
namespace Sys2Proof.Machine

/-- No meaning stops with a fault: the spec names no condition in which the block stops. -/
inductive Fault where
deriving DecidableEq, Repr

/-- Reasons for which a command has no meaning. -/
inductive Refusal where
  /-- Raised by no meaning: an arm of the dispatch that has none would answer it. Safe. -/
  | notModelled (mnemonic : String)
deriving DecidableEq, Repr

/-! ## Ikimal cores -/

/-- A load in flight (R89 to R93): the physical register, its data, the executed-word count from which it is visible,
and whether the data has arrived. -/
structure Load where
  reg : Nat
  val : W24
  due : Nat
  arrived : Bool
deriving DecidableEq, Repr

/-- One level of the loop stack (R94). -/
structure Loop where
  ls : W24
  le : W24
  lc : W24
deriving DecidableEq, Repr

/-- The copies of ilk, IST and IRPC of one context (R100). -/
structure Saved where
  ilk : W24 := 0
  ist : W24 := 0
  irpc : BitVec 13 := 0
deriving DecidableEq, Repr

/-- What a core is held on: nothing, late load data (R92), a full source FIFO (R236), a full posting queue (R22), or
a register that is busy (R189, R404), or the memory tests of HUSH depth 3 (R397). -/
inductive Hold where
  | free
  | load (reg : Nat)
  | fifo
  | board
  | busy
  | test
deriving DecidableEq, Repr

/-- How a core stands: not running; running; ended for the tick by END; stopped at the cut-off point; stopped by a
window overflow (R41); a prompter in WAIT (R105); a prompter stopped by a trap in trap context (R104). -/
inductive Run where
  | off
  | on
  | ended
  | cutoff
  | wov
  | waiting
  | stopped
deriving DecidableEq, Repr

/-- The state of one Ikimal core (R64 to R75). `xs` holds the physical registers: 1 to 7 the globals, 8 + 8F + i
register i of frame F (R71). `words` counts executed words (R34). `rpc` is RPC, non-zero between the repetitions of a
repeat (R97); `openTo` the executed-word count from which no load delay is open (R102). `fold` and `crc` are the known-answer
signature of R263, and `spoilt` says that the test read a poisoned pocket word (R397). -/
structure Core where
  run : Run := .off
  pc : BitVec 16 := 0
  xs : Tab W24 := []
  acc : Tab W56 := []
  preds : BitVec 8 := 0
  st : W24 := 0
  lk : W24 := 0
  loops : List Loop := []
  rpc : BitVec 13 := 0
  be : BitVec 6 := 0
  bk : Tab (BitVec 10) := []
  cwp : Nat := 0
  res : Nat := 3
  loc : Tab Bool := []
  loads : List Load := []
  words : Nat := 0
  hold : Hold := .free
  prefixed : Bool := false
  c0 : Saved := {}
  c1 : Saved := {}
  ct : Saved := {}
  tcause : W24 := 0
  udtrap : Bool := false
  und : Bool := false
  fold : List (Nat × Nat × List W24) := []
  crc : W24 := 0xB704CE
  openTo : Nat := 0
  spoilt : Bool := false
deriving DecidableEq, Repr

/-! ## Board, ledger, tally -/

/-- An operation in a Board posting queue (R20, R193): 1 set, 2 clear, 3 toggle; bits `base` + i for each bit i of
`mask`; 4 gives them the bits of `val`, a talkback group (R372). `own` is the master that wrote a view, 0 for the
operations a source issues itself: a porter waits with its own held write (R22). -/
structure BoardOp where
  op : Nat
  base : Nat
  mask : BitVec 32
  val : BitVec 32 := 0
  own : Nat := 0
deriving DecidableEq, Repr

/-- A post on its way to the ledger (R417). -/
structure Post where
  code : Nat
  src : Nat
  d1 : W24
  d2 : W24
deriving DecidableEq, Repr

/-- An accepted post with its sequence number and time (R411, R412). -/
structure Accepted where
  post : Post
  seq : BitVec 14
  sec : Nat
  ns : Nat
deriving DecidableEq, Repr

/-- A ledger entry: six words (R411). -/
structure Entry where
  w0 : W24 := 0
  w1 : W24 := 0
  w2 : W24 := 0
  w3 : W24 := 0
  w4 : W24 := 0
  w5 : W24 := 0
deriving DecidableEq, Repr

/-- What stands behind the ledger registers: posts of the current acceptance cycle, the posting queue, the sequence
number, the ring, what was stored or posted in the current TAI second (R413), the increments of each counter since the
last flush (R415), and the entries from SMBPTR to HEAD (R414). -/
structure Ledger where
  arriving : List Post := []
  queue : List Accepted := []
  seq : BitVec 14 := 0
  ring : Tab Entry := []
  codeSec : Tab Nat := []
  srcSec : List (Nat × Nat) := []
  postSec : List (Nat × Nat) := []
  persSec : Nat := 0
  since : Tab Nat := []
  smb : Nat := 0
deriving DecidableEq, Repr

/-- The back buffer of a tally unit (R407, R408). -/
structure TallyBuf where
  nsamp : Nat := 0
  mn : Int := 8388607
  mx : Int := -8388608
  under : Nat := 0
  overs : Nat := 0
  bins : Tab Nat := []
deriving DecidableEq, Repr

/-- The settings a tally unit's window runs with (R406, R409): PROBE, TARGET, LEG, LOG, LO, SHIFT and the window's
length. -/
structure TallyCfg where
  probe : Nat := 0
  target : Nat := 0
  leg : Bool := false
  log : Bool := false
  lo : Int := 0
  shift : Nat := 0
  win : Nat := 48000
deriving DecidableEq, Repr

/-- A tally unit (R407, R408): its back buffer, whether its window runs, the window's settings, whether settings written
in its last tick wait for its end, and a completed window with its length, not yet exchanged. -/
structure Tally where
  back : TallyBuf := {}
  live : Bool := false
  cfg : TallyCfg := {}
  dirty : Bool := false
  done : Option (TallyBuf × Nat) := none
deriving DecidableEq, Repr

/-! ## Engines -/

/-- Overrun record of an engine position (R42 to R46): consecutive overrunning ticks under HOLD, clean ticks under a held OVR cause, the
cause of the previous tick's overrun (0 none, 1 CUTOFF, 2 WOV) and of this tick's, whether the OVR cause is held,
whether a REOPEN write is pending, whether the position ran, what the tick before the last edge asks of its outputs
(0 nothing, 1 hold, 2 zero, 3 curtain), and the curtains the cause acted on (buses by number, egress channels from
512). -/
structure Overrun where
  holds : Nat := 0
  clean : Nat := 0
  prev : Nat := 0
  now : Nat := 0
  ovr : Bool := false
  reopen : Bool := false
  ran : Bool := false
  mode : Nat := 0
  overran : Bool := false
  acted : List Nat := []
deriving DecidableEq, Repr

/-- The understudy beyond its registers (R259 to R271): the engine and words of a pending first mismatch, whether the
tick's pairing has met a mismatch, whether a retest is due, whether a test is due and for what (1 mismatch, 2 no
mismatch, 3 after CLRFAULT, 4 a second try after INCOMPLETE with a mismatch, 5 without), the engine a retest confirmed
in this tick, a takeover due at the next edge (engine, automatic), a release due at the next edge and whether it leads
to a retest, the FAULT of a failed memory test, and the outcome of a failed test whose FAULT is due at the next edge. -/
structure Su where
  first : Option (Nat × Nat) := none
  met : Bool := false
  retest : Option Nat := none
  kat : Nat := 0
  katNow : Nat := 0
  confirmed : Option Nat := none
  take : Option (Nat × Bool) := none
  release : Bool := false
  releaseRetest : Bool := false
  memFault : Bool := false
  clrFault : Bool := false
  fail : Option Nat := none
deriving DecidableEq, Repr

/-- A transform in its unit: descriptor address, size, operation, exponent, regions, completion bit, whether its TUCMD is of
the tick in progress, and the words engines wrote in the tick of its TUCMD (R147 to R149, R154). -/
structure TuRun where
  addr : Nat
  logn : Nat
  inverse : Bool
  expIn : Nat
  src : Nat
  dst : Nat
  done : Option Nat
  fresh : Bool
  dirty : List Nat
deriving DecidableEq, Repr

/-- A queued descriptor: its address, whether TUCMD queued it in the tick in progress, and the words engines wrote in
the tick of its TUCMD (R154). -/
structure TuDesc where
  addr : Nat
  fresh : Bool
  dirty : List Nat := []
deriving DecidableEq, Repr

/-- A transform unit: queued descriptors, the one running, whether the last submission was refused, and the refusals that
wait behind a held Board write, each with whether it starts a run (R22, R153). -/
structure Tu where
  queue : List TuDesc := []
  running : Option TuRun := none
  refusing : Bool := false
  waiting : List (Nat × Bool) := []
deriving DecidableEq, Repr

/-! ## Collector, curtains, dynamics -/

/-- A contribution (R234). -/
structure Contrib where
  acc : W56
  bus : Nat
  active : Bool
  pos : Nat
deriving DecidableEq, Repr

/-- The sum of one bus in the tick: the exact sum, drained active contributions, arrivals, and arrivals and drains by
engine position (R238, R243, R41). -/
structure BusSum where
  sum : BitVec 70 := 0
  n : Nat := 0
  total : Nat := 0
  from_ : Tab Nat := []
deriving DecidableEq, Repr

/-- A curtain (R254 to R256): CSTATE, position, latched time, held causes as CAUSE shows them (bit 0 SW, 1 OVR, 2 DIS,
3 CLK), the held input, the last live input, and the last live input of a tick without overrun. -/
structure Curtain where
  state : Nat := 2
  pos : Nat := 0
  time : Nat := 0
  causes : Nat := 0
  heldIn : Option W24 := none
  last : W24 := 0
  clean : W24 := 0
deriving DecidableEq, Repr

/-- A bus behind the output stage (R240 to R246): its last sample and N, the gain ramp, whether EN was seen as 1, its
curtain, the causes sampled at the edge, the positions whose OVR cause acts on it, and its output. -/
structure Bus where
  sample : BitVec 70 := 0
  n : Nat := 0
  g : Nat := 8388608
  target : Nat := 8388608
  start : Nat := 8388608
  i : Nat := 0
  on : Bool := false
  curtain : Curtain := {}
  cz : Nat := 0
  ovrBy : List Nat := []
  out : W24 := 0
deriving DecidableEq, Repr

/-- The Collector beyond its registers: source FIFOs by 4 × position + lane and lane queues (R235), the next position of
each lane's turn, the sums of the tick, those of the tick before with its late buses, drops of the tick (R237), times
in ns for DRAIN (R406), SW causes of egress channels, and what was sampled of them, of disabled positions, of the
whole device and of CLK at the last edge (R256). -/
structure Collector where
  fifo : Tab (List Contrib) := []
  lane : Tab (List Contrib) := []
  turn : Tab Nat := []
  sums : Tab BusSum := []
  done : Tab BusSum := []
  late : List Nat := []
  dropBus : Nat := 0
  dropNow : Nat := 0
  dropRun : Bool := false
  drainNs : Nat := 0
  tailNs : Nat := 0
  sw : Tab Bool := []
  swS : Tab Bool := []
  disS : List Nat := []
  locS : List Nat := []
  dis : Bool := false
  clk : Bool := false
  clkS : Bool := false
  disAll : Bool := false
deriving DecidableEq, Repr

/-- A dynamics call waiting for its unit (R253); `live` while its load can still wait for it, which no tick edge leaves
(R40, R69). -/
structure DynCall where
  pos : Nat
  core : Nat
  reg : Nat
  due : Nat
  ch : Nat
  x : W24
  live : Bool := true
deriving DecidableEq, Repr

/-- A dynamics unit: calls waiting, and calls that reached it in the tick. -/
structure Du where
  calls : List DynCall := []
  count : Nat := 0
deriving DecidableEq, Repr

/-- A dynamics channel (R248 to R251): env in units of 2^-40 of full scale, the gain reduction recorded at the end of
the previous tick, and whether a call reached it in this tick. -/
structure Dyn where
  env : Nat := 0
  prevGr : Int := 0
  called : Bool := false
deriving DecidableEq, Repr

/-- A ramp slot (R228 to R231): running, its address, start value once read, step, length, target and shape. -/
structure Ramp where
  active : Bool := false
  addr : Nat := 0
  start : Option Int := none
  last : Int := 0
  wrote : Bool := false
  step : Nat := 0
  len : Nat := 1
  target : Int := 0
  db : Bool := false
deriving DecidableEq, Repr

/-! ## Cue unit -/

/-- An entry as submitted (R215): its CTL word, its time, or for NOW the time of its submission and its place among the
submissions (R216), and the tick its follow-up is due at (R225). -/
structure CueEntry where
  ctl : W24 := 0
  sec : Nat := 0
  ns : Nat := 0
  seq : Nat := 0
  followAt : Nat := 0
deriving DecidableEq, Repr

/-- A path of the path table (R208, R233). -/
structure Path where
  num : Nat
  lat : Nat
  rx : Nat
  tx : Nat
deriving DecidableEq, Repr

/-- A load or verify in progress (R210, R212, R473): its slot and base, whether it verifies, the entry and ID of the
follow-up it serves, the entry an autoload serves, the porter's master identity, the result and section of the check
pass, the header and section table as the check pass read them, and whether its porter serves it yet (R385). -/
structure LoadJob where
  slot : Nat
  base : Nat
  verify : Bool
  follow : Option (Nat × Nat)
  entry : Option Nat
  master : Nat
  result : Nat
  sect : Nat
  head : List Byte
  table : List Byte
  begun : Bool := true
deriving DecidableEq, Repr

/-- What the wings, and after the cue the stage, carry beside their words: follow ID, follow delay, TRANSITION, the
path table, and the positions that have a program (R201, R203, R208). -/
structure ImageInfo where
  followId : Nat := 0
  followDelay : Nat := 0
  transition : Bool := false
  paths : List Path := []
  full : List Nat := []
deriving DecidableEq, Repr

/-- The cue unit beyond its registers: the submitted entries, the load in progress, what the wings and the stage carry,
the HEADZ set (R471), the FSLOT load that waits with its entry (R225), slot writes held by a load (R214), and the number
of NOW submissions so far (R216). -/
structure Cue where
  entries : Tab CueEntry := []
  job : Option LoadJob := none
  wings : ImageInfo := {}
  stage : ImageInfo := {}
  headz : List Nat := []
  followLoad : Option Nat := none
  slotWrites : List (BitVec 6 × Nat × W24) := []
  subs : Nat := 0
deriving DecidableEq, Repr

/-! ## Governor, watchdogs, time, clocks -/

/-- The slack governor (R49 to R55): its request, the least slack of the window, whether the window met a CUTOFF
overrun, windows above, LP0 counts left of the settle interval, whether a raise of R50 stands in it, the write on the
bus and its failures, those of a read in a row (R54), freezing, whether a stage has run, and whether a run of R52 is open. -/
structure Gov where
  vreq : Nat := 850
  minSlack : Option Nat := none
  ovr : Bool := false
  above : Nat := 0
  settle : Nat := 0
  raised : Bool := false
  busy : Bool := false
  sent : Nat := 850
  tries : Nat := 0
  readTries : Nat := 0
  frozen : Bool := false
  started : Bool := false
  maxRun : Bool := false
deriving DecidableEq, Repr

/-- TIME (R327 to R329): whole seconds, the second's fraction in units of 2^-32 ns with the fifths of a unit that a
period of LP0 leaves, a SET or ADD that waits for its LP0 boundary (whether ADD, seconds, fraction), the periods since
the last tick edge that are counted already, and those of a 6.4 ns step of R328 not yet counted. -/
structure Time where
  sec : Nat := 0
  frac : Nat := 0
  fifth : Nat := 0
  step : Option (Bool × Nat × Nat) := none
  ahead : Nat := 0
  sub : Nat := 0
deriving DecidableEq, Repr

/-- The media clock beyond its registers (R335 to R352): the acquisition step reached (0, 1, 3), the cause of a coast,
whether the reference has been valid for RQUAL, the realignment step (0 none, 1 to 4 what the next edge does), whether a
coast follows it (R348), the family in force, the family change (0 none, 1 CLK at the next edge, 2 curtains, 3 no edges,
4 acquiring), whether attempts find no band, whether stage 2 is locking, whether the 2 s of R343 run, whether the tick
returns to stage 2 at the next edge, the DAC words of the last second, the DAC word at the start of a return, that of
the coast a realignment leads to, the last tick error, the MCLK outputs that run, the code of the reference frequency as
last measured, the loop's code at its start and its integral in 2^-32 ppm (R340), the slew's offset in 1/2000 ppm (R346),
whether REF156 is absent (R350), and the family a change is to bring. -/
structure Mcs where
  acq : Nat := 0
  cause : Nat := 0
  qualified : Bool := false
  realign : Nat := 0
  coastAfter : Bool := false
  family : Nat := 0
  change : Nat := 0
  s2None : Bool := false
  s2Locking : Bool := false
  noLock : Bool := false
  back : Bool := false
  avg : List Nat := []
  startDac : Nat := 0x80000
  lastErr : Option Int := none
  mclkOn : BitVec 4 := 0
  afterDac : Nat := 0x80000
  refCode : Int := 0x80000
  base : Int := 0x80000
  integ : Int := 0
  slew : Int := 0
  refAbsent : Bool := false
  target : Nat := 0
deriving DecidableEq, Repr

/-! ## Ports, rings, streams -/

/-- A frame on the transmit side of a port: its bytes without FCS, its class (0 step, 1 stream, 2 express host,
3 preemptable host), its stream or ring, the ring's descriptors that hold it with whether a timestamp is asked and, once it is sent, the stamp (R297),
whether a stream packet's slip was counted, and the bytes sent in fragments before the present one (R279, R281,
R321). -/
structure TxFrame where
  bytes : List Byte
  kind : Nat
  src : Nat := 0
  descs : List Nat := []
  tsreq : Bool := false
  stamp : Option (Nat × Nat) := none
  slipped : Bool := false
  gone : Nat := 0
deriving DecidableEq, Repr

/-- A frame in reassembly (R282): its bytes so far, its frame count, the fragment count that comes next, and the stamp taken
at its first fragment (R330). -/
structure RxOpen where
  bytes : List Byte
  frame : BitVec 2
  frag : BitVec 2
  stamp : Nat × Nat := (0, 0)
deriving DecidableEq, Repr

/-- A received host frame in a port's hold buffer (R295, R296): its ring, bytes, how many bytes have been placed, the
descriptors used, its timestamp in seconds and 1/256 ns. -/
structure RxWait where
  ring : Nat
  bytes : List Byte
  placed : Nat := 0
  used : List Nat := []
  sec : Nat := 0
  frac : Nat := 0
deriving DecidableEq, Repr

/-- A port beyond its registers: the hold buffer, step and stream frames that wait, the frame on the wire, the preempted
frame, the frame that the last closing fragment ended, whose mCRC was the complement of the right one (R301), the frame in
reassembly, whether a frame or fragment that was arriving when the receiver stopped may still be reported as cut short
(R300), verify mPackets sent and mPackets owed (R280), fragment errors with the time of the first (R282), PAUSE frames
acted on, whether a pause waits for the end of the frame on the wire (R285), the times of storms (R283, R284), the step in
progress with its direction, sequence, requester, tries and switch time (R291), what R288 measures (seconds below FLOOR, of
twin health, since the last step, to wait after a STEP_FAIL, and preemptable bits of this second and the last), the TX ring
served last, and low-power idle. -/
structure Port where
  hold : List RxWait := []
  txq : List TxFrame := []
  wire : Option TxFrame := none
  open_ : Option TxFrame := none
  closed : Option TxFrame := none
  rxOpen : Option RxOpen := none
  rxCut : Bool := false
  verifies : Nat := 0
  sendVerify : Bool := false
  sendRespond : Bool := false
  fragErrs : Nat := 0
  fragFirst : Nat := 0
  pauses : Nat := 0
  pausePend : Bool := false
  storms : List Nat := []
  stepUp : Bool := false
  stepSeq : Nat := 0
  stepMine : Bool := false
  stepTries : Nat := 0
  stepSec : Nat := 0
  stepNs : Nat := 0
  below : Nat := 0
  health : Nat := 0
  sinceStep : Nat := 255
  stepWait : Nat := 0
  preTx : Nat := 0
  preRx : Nat := 0
  avgTx : Nat := 0
  avgRx : Nat := 0
  rr : Nat := 3
  lpi : Bool := false
deriving DecidableEq, Repr

/-- A host frame ring beyond its registers: the frame tag counter, and TX frames taken and not yet returned. -/
structure Ring where
  tag : Nat := 0
  busy : Nat := 0
deriving DecidableEq, Repr

/-- A receive stream beyond its registers (R313 to R319): whether its STATUS is other than OFF, the media timestamp each
place of the jitter buffer holds, the flag bits beside each sample (by 64 × place + channel), the last sequence number
of each leg, the run of missing samples, the substitution fade's position, the last published words and the held ones,
LO, SUBST, HOLDN and SFADE in force, and the ticks left of a drain. -/
structure Rx where
  on : Bool := false
  place : Tab (Option (BitVec 32)) := []
  flags : Tab (BitVec 4) := []
  seqA : Option (BitVec 16) := none
  seqB : Option (BitVec 16) := none
  run : Nat := 0
  fade : Nat := 0
  last : Tab W24 := []
  held : Tab W24 := []
  lo : Nat := 48
  zero : Bool := false
  holdn : Nat := 8
  sfade : Nat := 480
  drain : Nat := 0
deriving DecidableEq, Repr

/-- The samples of a packet: tick by tick, each channel's word and flags. -/
abbrev Samples := List (List (W24 × BitVec 4))

/-- A transmit stream beyond its registers (R321 to R323): whether its STATUS is other than OFF, the MC of the packet in
accumulation, its samples, and a packet that is queued at the next edge. -/
structure Tx where
  on : Bool := false
  begun : Option (BitVec 32) := none
  acc : Samples := []
  full : Option (BitVec 32 × BitVec 16 × Samples) := none
deriving DecidableEq, Repr

/-! ## Local audio, talkback, prompters, host, HOUSE -/

/-- A local port beyond its registers (R356 to R367; 0 to 15 TDM, 16 to 23 AES3 inputs, 24 and 25 MADI, 26 to 33 AES3
outputs, 34 and 35 talkback): whether a frame started in the guard, the frames that started in the window, the samples
of the last of them, those decided at the last edge and those at the edge before, whether the ASRC has settled, a start
at the next edge, the step of a drain (0 none, 1 curtains, 2 the frame in progress), the channel-status block last read
and the one being sent, with its frames left, and whether an ASRC has received a block start that no house sample has
shown (R364). -/
structure Loc where
  inGuard : Bool := false
  frames : Nat := 0
  cur : List LocSample := []
  decided : List LocSample := []
  pub : List LocSample := []
  settled : Bool := false
  starting : Bool := false
  drain : Nat := 0
  cs : List W24 := []
  csOut : List W24 := []
  block : Nat := 0
  blockStart : Bool := false
deriving DecidableEq, Repr

/-- What happens at a talkback port (R369 to R371): the tip switch, a measurement's end, a button's press, release and long
hold, its first raw sign, the end of a mute (that of a button or that of the bias), a current limit, a new measurement.
`ms` is the time EVT shows. -/
inductive TbWork where
  | tip (ins : Bool) (ms : Nat)
  | measured (z : Accessory) (ms : Nat)
  | press (ohm ms : Nat)
  | release (ms : Nat)
  | long (ms : Nat)
  | raw
  | unmute (button : Bool)
  | limit (ms : Nat)
  | remeasure
deriving DecidableEq, Repr

/-- A talkback port beyond its registers (R369 to R373): the event queue, whether the bias came on less than 20 ms ago,
whether a button mutes the microphone, whether its debounced release has come, and what waits behind a held Board write
(R22). -/
structure Tb where
  events : List W24 := []
  biasMute : Bool := false
  btnMute : Bool := false
  released : Bool := false
  later : List TbWork := []
deriving DecidableEq, Repr

/-- How far the move of a porter's descriptor that waits has come (R22, R190, R404): the bytes read and not yet written, the
host bytes to come, the units read, the bytes written, whether a source word was poisoned, and the bytes moved when the
host side failed. -/
structure MoveProgress where
  buf : List Byte
  host : List Byte
  read : Nat
  done : Nat
  poison : Bool
  err : Option Nat
deriving DecidableEq, Repr

/-- A porter's descriptor in progress (R384, R385). -/
structure Move where
  addr : Nat
  index : Nat
  ssp : Nat
  dsp : Nat
  spk4 : Bool
  dpk4 : Bool
  irq : Bool
  count : Nat
  src : Nat
  dst : Nat
  status : Nat
  run : Option MoveProgress := none
deriving DecidableEq, Repr

/-- HOUSE beyond its registers: whether it runs, the boot stage (0 none, 1 memory tests, 2 boot image, 3 ended), the
transition in progress (0 none; 1 curtains, 2 transform units, 3 memory tests on entry to HUSH; 4 waking; 5 curtains,
6 flush on the way to DARK; 7 DARK; 8 curtains on the way to HALTED), the depth entered, whether the engines are stopped, whether tick edges are gated,
whether ALERT_N is released, the device address, CORE_EN, a wake asked for in DARK, the watchdogs that have expired,
the masters with a run of refused accesses to the prompt book and the vault, TIME's whole seconds at the last second,
the TIME at which the edges stopped, and the bytes of the last SMBus reply. -/
structure House where
  up : Bool := false
  boot : Nat := 0
  trans : Nat := 0
  depth : Nat := 0
  engStop : Bool := false
  gated : Bool := false
  released : Bool := false
  addr : BitVec 3 := 0
  coreEn : Bool := true
  wakeAsked : Bool := false
  stopped : BitVec 2 := 0
  pbDeny : List Nat := []
  vaultDeny : List Nat := []
  vbat : Nat := 0
  stopAt : Nat := 0
  smb : List Byte := []
deriving DecidableEq, Repr

/-- A WRAP or UNWRAP in progress (R196, R198): which, its W, its blob address, and the prompter that asked. -/
structure Seal where
  wrap : Bool
  len : Nat
  blob : Nat
  who : Nat
deriving DecidableEq, Repr

/-- A crypto command in progress (R405), with its operands as they stood at GO and the prompter that asked. -/
structure CryptoJob where
  cmd : Nat
  src : Nat
  dst : Nat
  len : Nat
  key : Nat
  who : Nat
deriving DecidableEq, Repr

/-- Storage behind secure paths and power loss: the vault with the bits of it that have flipped (R194), the prompt book (R403), the battery key and wrap
count (R196), the fuses (R398), and the VBAT seconds counter with its tamper record (R401). -/
structure Sec where
  vault : Tab W24 := []
  vecc : Tab (BitVec 30) := []
  pb : Tab Byte := []
  key : BitVec 256 := 0
  wraps : BitVec 32 := 0
  lc : BitVec 3 := Config.fuseLifeCycle
  vbat : Nat := 0
  draws : Nat := 0
  sealing : Option Seal := none
  crypto : Option CryptoJob := none
  tamperPend : BitVec 4 := 0
  pbHeld : List (Nat × Nat × Option W24) := []
deriving DecidableEq, Repr

/-- Market sparing and rehearsal beyond their registers (R177 to R184): the stall STU stands in for, the stall a
sparing copies with its cause, a sparing that waits, scrubs waiting at each stall, and the slot's plan to stop. -/
structure Stalls where
  standin : Option Nat := none
  copying : Option (Nat × Nat) := none
  wanted : List (Nat × Nat) := []
  scrubs : List Nat := []
  next : Nat := 0
deriving DecidableEq, Repr

/-- The control state of the PCIe configuration space (R381): MSI-X enable and function mask, D3hot, the codes of Max Payload
Size and Max Read Request Size, ASPM control, and of Advanced Error Reporting the masks, the severities and the statuses.
The reset values are those of the PCI Express Base Specification (PRESUMED, notes/assumptions/58). -/
structure Pcie where
  msixEn : Bool := false
  msixMask : Bool := false
  d3hot : Bool := false
  mps : BitVec 3 := 0
  mrrs : BitVec 3 := 2
  aspm : BitVec 2 := 0
  uncMask : W32 := 0
  uncSev : W32 := 0x00462030
  corMask : W32 := 0x00002000
  uncStatus : W32 := 0
  corStatus : W32 := 0
deriving DecidableEq, Repr

/-- Everything but the secure storage. `ecc`, `pecc` and `gecc` hold the flipped bits and the poison mark of each word of
the Market, of the pockets and local data memories, and of the prompters' program memories (R171, R191, R376). `past` holds
what stood in the source words of a running transform that have been overwritten since it started: the unit, the address,
the word and its flips (R154). -/
structure Dev where
  ctl : Tab W24 := []
  nxt : Tab W24 := []
  cores : Tab Core := []
  mkt : Tab W24 := []
  ecc : Tab (BitVec 31) := []
  past : List (Nat × Nat × W24 × BitVec 31) := []
  wrote : Tab Nat := []
  pkt : Tab W24 := []
  pecc : Tab (BitVec 31) := []
  pscrub : List Nat := []
  stage : Tab W32 := []
  wings : Tab W32 := []
  prog : Tab W32 := []
  gecc : Tab (BitVec 31) := []
  brd : Tab Bool := []
  bq : Tab (List BoardOp) := []
  bdue : Tab (List BoardOp) := []
  bheld : Tab (List BoardOp) := []
  led : Ledger := {}
  tallies : Tab Tally := []
  ovr : Tab Overrun := []
  su : Su := {}
  tus : Tab Tu := []
  col : Collector := {}
  buses : Tab Bus := []
  egress : Tab Curtain := []
  latched : Tab W24 := []
  dus : Tab Du := []
  dyns : Tab Dyn := []
  ramps : Tab Ramp := []
  cue : Cue := {}
  stalls : Stalls := {}
  gov : Gov := {}
  time : Time := {}
  mcs : Mcs := {}
  ports : Tab Port := []
  rings : Tab Ring := []
  rx : Tab Rx := []
  tx : Tab Tx := []
  locs : Tab Loc := []
  locOut : Tab W24 := []
  tbs : Tab Tb := []
  moves : Tab (Option Move) := []
  hostOut : List (Nat × Byte) := []
  msixMask : BitVec 64 := 0xFFFFFFFFFFFFFFFF
  msixPba : BitVec 64 := 0
  msixTab : Tab W32 := []
  msixSent : List Nat := []
  pcie : Pcie := {}
  house : House := {}
  mc : BitVec 32 := 0
  mcLatch : Option W24 := none
  tick : Nat := 0
  ticking : Bool := false
  tail : Bool := false
  wliveApply : Bool := false
  wliveHeld : List (Nat × Nat × Option W24) := []
  /-- Accesses that wait behind a held Board write of their master (R22, R437): master, address, what is written. -/
  boardHeld : List (Nat × Nat × Option W24) := []
  ingressPub : Tab W24 := []
  ingressFl : Tab (BitVec 4) := []
  fresh : Nat := 0
deriving DecidableEq, Repr

/-- The block: its devices, its secure storage, and the commands that wait, first in first out. -/
structure State where
  dev : Dev := {}
  sec : Sec := {}
  pending : List Instr := []
deriving DecidableEq, Repr

/-- The state after a device reset (R8, R444): every register at its Reset value, every memory as nothing has yet
filled it, no command waiting. The step at which HOUSE is up and the tests have run is POWER_GOOD's. -/
def State.reset : State := {}

/-- A change of the device alone. -/
def State.onDev (f : Dev → Dev) (s : State) : State := { s with dev := f s.dev }

end Sys2Proof.Machine
end

