-- ==== Sys2Proof/Machine/Ops.lean ====
section
/-!
DEFINITION. The operations every chapter shares: reading and writing register fields, posting to the ledger (R25,
R412), raising interrupt sources (R378 to R380) and alert causes (R391), the Board (R20 to R24), tally probes (R406 to
R409), and a register write by field types (R9, R10, R439 to R441).
-/
namespace Sys2Proof.Machine

/-! ## Words and fields -/

/-- Bits `hi` to `lo` of a number. -/
def bits (v hi lo : Nat) : Nat := (v >>> lo) % 2 ^ (hi + 1 - lo)

/-- A number as a word. -/
abbrev w24 (n : Nat) : W24 := BitVec.ofNat 24 n

/-- An integer as a word, modulo 2^24. -/
abbrev w24i (n : Int) : W24 := BitVec.ofInt 24 n

/-- 1 for true. -/
def b1 (b : Bool) : Nat := if b then 1 else 0

/-- `n` held to at most `m`. -/
def satTo (m n : Nat) : Nat := if n ≤ m then n else m

/-- Field `f` of a word. -/
def Fld.of (f : Fld) (v : W24) : Nat := bits v.toNat f.hi f.lo

/-- The word `v` with field `f` set to `x`. -/
def Fld.put (f : Fld) (v : W24) (x : Nat) : W24 :=
  w24 (v.toNat - f.of v * 2 ^ f.lo + x % f.size * 2 ^ f.lo)

/-- The register word at `a`. -/
def rd (d : Dev) (a : Nat) : W24 := Tab.get (rstOf a) d.ctl a

/-- The register word at `a` set to `v`. -/
def wr (d : Dev) (a : Nat) (v : W24) : Dev := { d with ctl := Tab.set (rstOf a) d.ctl a v }

/-- The next copy of the RWC register at `a` (R11). -/
def nrd (d : Dev) (a : Nat) : W24 := Tab.get (rstOf a) d.nxt a

/-- The next copy of the RWC register at `a` set to `v`. -/
def nwr (d : Dev) (a : Nat) (v : W24) : Dev := { d with nxt := Tab.set (rstOf a) d.nxt a v }

/-- Field `f` of instance `i`. -/
def fld (d : Dev) (f : Fld) (i : Nat) : Nat := f.of (rd d (f.addr i))

/-- Field `f` of instance `i` is not 0. -/
def flag (d : Dev) (f : Fld) (i : Nat) : Bool := fld d f i != 0

/-- Field `f` of instance `i` set to `x`. -/
def setf (d : Dev) (f : Fld) (i x : Nat) : Dev := wr d (f.addr i) (f.put (rd d (f.addr i)) x)

/-- Field `f` of instance `i` of the next copies. -/
def nfld (d : Dev) (f : Fld) (i : Nat) : Nat := f.of (nrd d (f.addr i))

/-- Field `f` of instance `i` set to `x` in the next copies. -/
def setn (d : Dev) (f : Fld) (i x : Nat) : Dev := nwr d (f.addr i) (f.put (nrd d (f.addr i)) x)

/-- A counter field raised by `n`, saturating. -/
def incBy (d : Dev) (f : Fld) (i n : Nat) : Dev := setf d f i (satTo (f.size - 1) (fld d f i + n))

/-- A counter field raised by 1, saturating. -/
def inc (d : Dev) (f : Fld) (i : Nat) : Dev := incBy d f i 1

/-- A field read as a signed number. -/
def sfld (d : Dev) (f : Fld) (i : Nat) : Int :=
  let n := fld d f i
  if n * 2 < f.size then n else (n : Int) - f.size

/-- A change `f` applied for each number of a list in turn. -/
def forAll {α : Type} (l : List Nat) (f : α → Nat → α) (d : α) : α := l.foldl f d

/-- Only HOUSE and SMBus run (R402). -/
def halted (d : Dev) : Bool := fld d F.HOUSE_STATE_STATE 0 = 4

/-- The host's accesses reach the device: HOST enables its PCIe link once step 4 of bring-up has ended (R443), and a
function in D3hot takes no memory request (R381; notes/assumptions/58). -/
def hostOpen (d : Dev) : Bool := 2 ≤ d.house.boot && !d.pcie.d3hot

/-- A change that is not HOUSE's: nothing happens while the device is HALTED (R402). -/
def State.whileUp (f : State → State) (s : State) : State := if halted s.dev then s else f s

/-- A change of the device alone that is not HOUSE's. -/
def State.act (f : Dev → Dev) (s : State) : State := s.whileUp (State.onDev f)

/-- A fresh free value (notes/assumptions/2). -/
def freshWord (d : Dev) : W24 × Dev := (Config.freeWord d.fresh, { d with fresh := d.fresh + 1 })

/-! ## Interrupt sources and alert causes -/

/-- The function may send messages: MSI-X is enabled and not masked as a whole, and it is in D0 (R381). -/
def msixReady (d : Dev) : Bool := d.pcie.msixEn && !d.pcie.msixMask && !d.pcie.d3hot

/-- MSI-X vector `s` is sent, or its PBA bit set while it, or the function, is masked (R380, R381). -/
def msixSend (d : Dev) (s : Nat) : Dev :=
  if d.msixMask.getLsbD s || !msixReady d then { d with msixPba := d.msixPba ||| (1#64 <<< s) }
  else { d with msixSent := d.msixSent ++ [s] }

/-- Source `s` asserts: PEND goes to 1, and a change from 0 sends its vector (R378, R380). -/
def raise (d : Dev) (s : Nat) : Dev :=
  if flag d F.INTC_SRC_PEND s then d
  else
    let d := setf d F.INTC_SRC_PEND s 1
    if flag d F.INTC_SRC_ENH s then msixSend d s else d

/-- A level source's condition ends (R378). -/
def lower (d : Dev) (s : Nat) : Dev := setf d F.INTC_SRC_PEND s 0

/-- Alert cause `b` is set: ALERT_N may fall again, and source 24 is raised when it is newly set (R378, R391). -/
def alert (d : Dev) (b : Nat) : Dev :=
  if (fld d F.HOUSE_ALERT_CAUSE 0).testBit b then d
  else
    let d := setf d F.HOUSE_ALERT_CAUSE 0 (fld d F.HOUSE_ALERT_CAUSE 0 + 2 ^ b)
    raise { d with house := { d.house with released := false } } 24

/-- ALERT_N is low: some cause has its mask bit clear, and HOUSE has not released the pin since (R391). -/
def alertLow (d : Dev) : Bool :=
  !d.house.released &&
    (List.range 12).any fun b =>
      (fld d F.HOUSE_ALERT_CAUSE 0).testBit b && !(fld d F.HOUSE_ALERT_MASK_MASK 0).testBit b

/-! ## The ledger's front (R412, R417) -/

/-- The severity of a code, 0 INFO to 3 FAULT; `none` for a code never posted (R417). -/
def sevOf : Nat → Option Nat
  | 0x01 | 0x02 | 0x03 | 0x10 | 0x11 | 0x12 | 0x14 | 0x22 | 0x24 | 0x26 | 0x28 | 0x29 | 0x30 | 0x31 | 0x33 | 0x35
  | 0x36 | 0x37 | 0x41 | 0x42 | 0x43 | 0x44 | 0x47 | 0x53 | 0x54 | 0x55 | 0x57 | 0x60 | 0x71 => some 2
  | 0x13 | 0x15 | 0x16 | 0x18 | 0x19 | 0x21 | 0x23 | 0x25 | 0x27 | 0x62 | 0x63 | 0x64 | 0x65 | 0x81 | 0x82 | 0x83
  | 0x84 | 0x90 => some 3
  | 0x17 | 0x20 | 0x34 | 0x46 | 0x50 | 0x51 | 0x52 | 0x56 | 0x61 | 0x72 | 0x91 => some 1
  | 0x32 | 0x40 | 0x45 | 0x70 | 0x80 => some 0
  | _ => none

/-- The interrupt source a code's posting raises (R378). -/
def sourceOf : Nat → Option Nat
  | 0x32 | 0x33 | 0x34 | 0x35 => some 16
  | 0x40 | 0x41 => some 17
  | 0x13 | 0x14 | 0x15 | 0x16 => some 19
  | _ => none

/-- The alert cause a code's posting sets (R391); PC_WDOG's is set by the expiry itself (R30). -/
def causeOf : Nat → Option Nat
  | 0x19 => some 1
  | 0x83 => some 3
  | 0x13 | 0x16 => some 4
  | 0x21 | 0x22 | 0x23 => some 5
  | 0x65 => some 6
  | 0x81 | 0x82 => some 8
  | 0x62 | 0x63 => some 9
  | 0x41 => some 10
  | _ => none

/-- A post arrives at the ledger's acceptance (R26, R412). -/
def post (d : Dev) (code src d1 d2 : Nat) : Dev :=
  let p : Post := ⟨code, src % 4096, w24 d1, w24 d2⟩
  { d with led := { d.led with arriving := d.led.arriving ++ [p] } }

/-- An accepted post raises its code's interrupt source and alert cause (R378, R391, R412). -/
def postRaises (d : Dev) (code : Nat) : Dev :=
  let d := match sourceOf code with | some s => raise d s | none => d
  match causeOf code with | some b => alert d b | none => d

/-- A post limited to one per TAI second for each code and source (R413). -/
def postSec (d : Dev) (code src d1 d2 : Nat) : Dev :=
  if d.led.postSec.contains (code, src) then d
  else post { d with led := { d.led with postSec := (code, src) :: d.led.postSec } } code src d1 d2

/-! ## Cores -/

/-- Core `c`: 0 to 15 SE0 to SE15, 16 SU, 17 and 18 the prompters. -/
def core (d : Dev) (c : Nat) : Core := Tab.get {} d.cores c

/-- Core `c` replaced. -/
def setCore (d : Dev) (c : Nat) (x : Core) : Dev := { d with cores := Tab.set {} d.cores c x }

/-- Core `c` changed. -/
def updCore (d : Dev) (c : Nat) (f : Core → Core) : Dev := setCore d c (f (core d c))

/-- A core held on a busy register issues its word again. -/
def freeBusy (d : Dev) (c : Nat) : Dev :=
  if (core d c).hold = .busy then updCore d c fun k => { k with hold := .free } else d

/-- A core held on a full posting queue issues its word again. -/
def freeBoard (d : Dev) (c : Nat) : Dev :=
  if (core d c).hold = .board then updCore d c fun k => { k with hold := .free } else d

/-! ## The Board (R20 to R24, R193) -/

/-- One operation applied: 1 set, 2 clear, 3 toggle the bits of the mask, 4 give them those of `val`. -/
def boardApply (b : Tab Bool) (o : BoardOp) : Tab Bool :=
  (List.range 32).foldl
    (fun b i =>
      if o.mask.getLsbD i then
        let k := (o.base + i) % 65536
        Tab.set false b k (match o.op with | 1 => true | 2 => false | 3 => !Tab.get false b k | _ => o.val.getLsbD i)
      else b) b

/-- The operations in a source's posting queue. -/
def boardQueued (d : Dev) (q : Nat) : Nat := (Tab.get [] d.bdue q).length + (Tab.get [] d.bq q).length

/-- Source `q` can issue a Board write: no tick edges arrive, or its queue holds fewer than 64 and no write of it is
held (R22, R24). -/
def boardRoom (d : Dev) (q : Nat) : Bool :=
  !d.ticking || (boardQueued d q < 64 && (Tab.get [] d.bheld q).isEmpty)

/-- Source `q` issues a Board write: applied at once while no tick edges arrive (R24), queued (R20), or held while the
queue is full (R22). -/
def boardIssue (d : Dev) (q : Nat) (o : BoardOp) : Dev :=
  if !d.ticking then { d with brd := boardApply d.brd o }
  else if boardRoom d q then { d with bq := Tab.set [] d.bq q (Tab.get [] d.bq q ++ [o]) }
  else { d with bheld := Tab.set [] d.bheld q (Tab.get [] d.bheld q ++ [o]) }

/-- The 23 sources in posting order (R21). -/
def boardSources : List Nat := List.range 23

/-- The operations queued before the edge become due at the posting of the tick it begins (R21). -/
def boardEdge (d : Dev) : Dev :=
  let due := forAll boardSources (fun t q => Tab.set [] t q (Tab.get [] t q ++ Tab.get [] d.bq q)) d.bdue
  { d with bdue := due, bq := [] }

/-- The posting (R20 to R22): every due operation in source order, then held operations enter the queues. -/
def boardPosting (d : Dev) : Dev :=
  let ops := boardSources.flatMap (fun q => Tab.get [] d.bdue q)
  let d := { d with brd := ops.foldl boardApply d.brd, bdue := [] }
  let d := forAll boardSources
    (fun d q =>
      let room := 64 - boardQueued d q
      let h := Tab.get [] d.bheld q
      { d with bq := Tab.set [] d.bq q (Tab.get [] d.bq q ++ h.take room), bheld := Tab.set [] d.bheld q (h.drop room) }) d
  forAll (List.range 19) freeBoard d

/-- The tick edges cease: what is queued is applied in source order, since later operations apply as they are issued
(R24). -/
def boardFlush (d : Dev) : Dev :=
  let ops := boardSources.flatMap (fun q => Tab.get [] d.bdue q ++ Tab.get [] d.bq q ++ Tab.get [] d.bheld q)
  forAll (List.range 19) freeBoard { d with brd := ops.foldl boardApply d.brd, bdue := [], bq := [], bheld := [] }

/-- Board bit `b` as at the last posting (R23). -/
def boardBit (d : Dev) (b : Nat) : Bool := Tab.get false d.brd (b % 65536)

/-- The Board source of a master's writes to the views (R21, R193). -/
def boardSource (w : Nat) : Nat := if w = 17 then 20 else if w = 18 then 21 else 22

/-! ## The order of a master's accesses to control space (R437, R443) -/

/-- A Board write of master `w` is held, and its later accesses wait behind it (R22); behind the host's own only its Board
writes wait, in their queue. -/
def boardWaits (d : Dev) (w : Nat) : Bool := w ≠ 32 && (Tab.get [] d.bheld (boardSource w)).any fun o => o.own == w

/-- An access of master `w` is held by the BUSY of the prompt book (R404). -/
def heldByPb (s : State) (w : Nat) : Bool := s.sec.pbHeld.any fun e => e.1 == w

/-- As `heldByPb`, for the live port (R189). -/
def heldByWlive (s : State) (w : Nat) : Bool := s.dev.wliveHeld.any fun e => e.1 == w

/-- A Board write of master `w` is held, or an access of it behind one (R22). -/
def heldByBoard (s : State) (w : Nat) : Bool := boardWaits s.dev w || s.dev.boardHeld.any fun e => e.1 == w

/-- Master `w` has no access that is held, so that its next takes effect (R437). -/
def inOrder (s : State) (w : Nat) : Bool := !heldByPb s w && !heldByWlive s w && !heldByBoard s w

/-- Accesses, each an address with what is written or `none` for a read, wait behind those of their master that are held
(R437). -/
def holdBehind (s : State) (w : Nat) (l : List (Nat × Option W24)) : State :=
  let l := l.map fun e => (w, e)
  if heldByPb s w then { s with sec := { s.sec with pbHeld := s.sec.pbHeld ++ l } }
  else if heldByWlive s w then s.onDev fun d => { d with wliveHeld := d.wliveHeld ++ l }
  else s.onDev fun d => { d with boardHeld := d.boardHeld ++ l }

/-- Master `w` makes the accesses `l` of control space, whose effect is `f`: not before the host's link is enabled
(R443), nor before an access of the same master that is held (R437). -/
def State.access (w : BitVec 6) (l : List (Nat × Option W24)) (f : State → State) (s : State) : State :=
  s.whileUp fun s =>
    if w = 32 && !hostOpen s.dev then s else if inOrder s w.toNat then f s else holdBehind s w.toNat l

/-- A write of `v` to the register at `a`, whose effect is one on the device alone. -/
def State.write (w : BitVec 6) (a : Nat) (v : W24) (f : Dev → Dev) (s : State) : State :=
  s.access w [(a, some v)] (State.onDev f)

/-- A read of the register at `a` that has an effect. -/
def State.read (w : BitVec 6) (a : Nat) (f : Dev → Dev) (s : State) : State := s.access w [(a, none)] (State.onDev f)

/-! ## Tally probes (R406 to R409) -/

/-- The bin number of a value, and whether it falls below or above the bins (R409). -/
def binOf (log : Bool) (lo : Int) (shift : Nat) (v : Int) : Nat × Bool × Bool :=
  let below : Nat × Bool × Bool := (0, true, false)
  let place (i : Int) : Nat × Bool × Bool :=
    if i < 0 then below else if i > 63 then (63, false, true) else (i.toNat, false, false)
  if log then
    if v ≤ 0 then below
    else
      let n := v.toNat
      let p := n.log2
      let f := if p ≥ 2 then (n >>> (p - 2)) % 4 else (n <<< (2 - p)) % 4
      place ((4 * p + f : Nat) - (if lo < 0 then 0 else if lo > 91 then 91 else lo))
  else place ((v - lo) / (2 ^ (satTo 23 shift) : Nat))

/-- One value taken into a back buffer (R407, R409). Counts saturate at FF_FFFFh. -/
def tallyTake (b : TallyBuf) (log : Bool) (lo : Int) (shift : Nat) (v : Int) : TallyBuf :=
  let (i, under, overs) := binOf log lo shift v
  let s := satTo 0xFFFFFF
  { nsamp := s (b.nsamp + 1), mn := if v < b.mn then v else b.mn, mx := if v > b.mx then v else b.mx
    under := s (b.under + b1 under), overs := s (b.overs + b1 overs)
    bins := Tab.set 0 b.bins i (s (Tab.get 0 b.bins i + 1)) }

/-- Unit `u` takes the value `v`. -/
def Tally.value (u : Tally) (v : Int) : Tally :=
  { u with back := tallyTake u.back u.cfg.log u.cfg.lo u.cfg.shift v }

/-- Every unit whose window runs and whose settings satisfy `p` takes `v`. -/
def tallyWhere (d : Dev) (p : TallyCfg → Bool) (v : Int) : Dev :=
  let take (t : Tab Tally) (u : Nat × Tally) : Tab Tally :=
    if u.2.live && p u.2.cfg then Tab.set {} t u.1 (u.2.value v) else t
  { d with tallies := d.tallies.foldl take d.tallies }

/-- Every running unit that watches `probe` at `target` takes `v` (R406). -/
def tally (d : Dev) (probe target : Nat) (v : Int) : Dev :=
  tallyWhere d (fun c => c.probe = probe && c.target = target) v

/-- As `tally`, for ARRIVAL, whose target also names a leg. -/
def tallyLeg (d : Dev) (target : Nat) (legB : Bool) (v : Int) : Dev :=
  tallyWhere d (fun c => c.probe = 5 && c.target = target && c.leg = legB) v

/-- A value of DRAIN, which has no target. -/
def tallyDrain (d : Dev) (v : Int) : Dev := tallyWhere d (fun c => c.probe = 6) v

/-! ## A register write by field types -/

/-- A field of a register word after a write of `v`, and whether the written value is unassigned (R10, R441).
`cur` is the word the field's type writes: the live word, or the next copy of an RWC field. -/
def fieldWrite (f : FieldRow) (cur v : W24) : Nat × Bool :=
  let old := bits cur.toNat f.hi f.lo
  let new := bits v.toNat f.hi f.lo
  match f.ty with
  | .rw | .rwc | .rws => if f.bad.contains new then (old, true) else (new, false)
  | .ro => (old, false)
  | .wo => (old, f.bad.contains new)
  | .w1c => (old &&& (2 ^ (f.hi + 1 - f.lo) - 1 - new), false)

/-- The fields of one kind, RWC or not, after a write: the new word and whether any value was unassigned. -/
def wordWrite (r : RegRow) (rwc : Bool) (cur v : W24) : W24 × Bool :=
  let (n, bad) := r.fields.foldl
    (fun (n, bad) f =>
      if (f.ty == .rwc) == rwc then
        let (x, b) := fieldWrite f cur v
        (n + x * 2 ^ f.lo, bad || b)
      else (n + bits cur.toNat f.hi f.lo * 2 ^ f.lo, bad)) (0, false)
  (w24 n, bad)

/-- The register table at `a` has an RWC field. -/
def RegRow.rwc (r : RegRow) : Bool := r.fields.any fun f => f.ty == .rwc

/-- A write of `v` at `a` by master `w`: each field by its type, reserved bits ignored, one REG_RSVD for unassigned
values, REG_HOLE for an unimplemented address (R9, R10, R439 to R441). The effects a register has beside its fields
are those of its own writer. -/
def regWrite (d : Dev) (w a : Nat) (v : W24) : Dev :=
  match RegMap.lookup a with
  | none => post d 0x02 w a v.toNat
  | some r =>
    let (x, bad) := wordWrite r false (rd d a) v
    let d := wr d a x
    let (d, bad) :=
      if r.rwc then
        let (y, bad') := wordWrite r true (nrd d a) v
        (nwr d a y, bad || bad')
      else (d, bad)
    if bad then post d 0x01 w a v.toNat else d

end Sys2Proof.Machine
end

