-- ==== Sys2Proof/Machine/RealFn.lean ====
section
/-!
DEFINITION. The exact real values that a rule rounds: logarithm, exponential, cosine and square root in fixed point,
scaled by 2^128, and the roundings of the spec. A result can differ from the exact one only where the real value lies
within about 2^-100 of a rounding boundary (UNVERIFIED; notes/assumptions/9).
-/
namespace Sys2Proof.Machine.Real

/-- The scale of the fixed point. -/
abbrev one : Nat := 2 ^ 128

/-- π, scaled. -/
def pi : Nat := 0x3243f6a8885a308d313198a2e03707344

/-- The natural logarithm of 2, scaled. -/
def ln2 : Nat := 0xb17217f7d1cf79abc9e3b39803f2f6af

/-- The natural logarithm of 10, scaled. -/
def ln10 : Nat := 0x24d763776aaa2b05ba95b58ae0b4c28a3

/-- `n / d` rounded to nearest, ties away from zero. -/
def rndAway (n : Int) (d : Nat) : Int :=
  let q : Int := ((2 * n.natAbs + d) / (2 * d) : Nat)
  if n < 0 then -q else q

/-- `n / d` rounded to nearest, ties to even. -/
def rndEven (n : Int) (d : Nat) : Int :=
  let q := n / (d : Int)
  let r := n % (d : Int)
  if 2 * r < d then q else if 2 * r > d then q + 1 else if q % 2 = 0 then q else q + 1

/-- The terms of e^-x, x scaled and below 1: term `k` is the last multiplied by x / k. -/
def expTerms (x : Nat) : Nat → Nat → Nat → Bool → Int → Int
  | 0, _, _, _, acc => acc
  | n + 1, k, t, neg, acc =>
    let t := t * x / (k * one)
    expTerms x n (k + 1) t (!neg) (if neg then acc - t else acc + t)

/-- e^-x for a scaled x of 0 or more, scaled: x is reduced by multiples of ln 2. -/
def expNeg (x : Nat) : Nat :=
  let k := x / ln2
  if k > 200 then 0 else (expTerms (x % ln2) 40 1 one true one).toNat / 2 ^ k

/-- The terms of the series of atanh. -/
def atanhTerms (z2 : Nat) : Nat → Nat → Nat → Nat → Nat
  | 0, _, _, acc => acc
  | n + 1, k, t, acc => atanhTerms z2 n (k + 2) (t * z2 / one) (acc + t / k)

/-- The natural logarithm of `n / 2^e`, `n` positive, scaled. -/
def ln (n e : Nat) : Int :=
  let p := n.log2
  let m := if p ≤ 128 then n <<< (128 - p) else n >>> (p - 128)
  let z := (m - one) * one / (m + one)
  ((p : Int) - e) * ln2 + 2 * (atanhTerms (z * z / one) 45 1 z 0 : Nat)

/-- The terms of the cosine's series. -/
def cosTerms (x2 : Nat) : Nat → Nat → Nat → Bool → Int → Int
  | 0, _, _, _, acc => acc
  | n + 1, k, t, neg, acc =>
    let t := t * x2 / (k * (k + 1) * one)
    cosTerms x2 n (k + 2) t (!neg) (if neg then acc - t else acc + t)

/-- The cosine of π × i / t, scaled, for i from 0 to t. -/
def cosPi (i t : Nat) : Int :=
  if 2 * i ≤ t then
    let x := pi * i / t
    cosTerms (x * x / one) 30 1 one true one
  else
    let x := pi * (t - i) / t;
    0 - cosTerms (x * x / one) 30 1 one true one

/-- The cosine of 2π × k / m, scaled, for k from 0 to m. -/
def cosTurn (k m : Nat) : Int := if 2 * k ≤ m then cosPi (2 * k) m else cosPi (2 * (m - k)) m

/-- The sine of 2π × k / m, scaled, for k from 0 to m, m a multiple of 4. -/
def sinTurn (k m : Nat) : Int := cosTurn ((k + 3 * (m / 4)) % m) m

/-- 10^(n / d), scaled, for d positive. -/
def pow10 (n : Int) (d : Nat) : Nat :=
  if n ≤ 0 then expNeg (n.natAbs * ln10 / d)
  else
    let q := n.toNat / d + 1
    10 ^ q * expNeg ((q * d - n.toNat) * ln10 / d)

/-- The integer square root of `n`, a bit at a time from bit `b - 1` down. -/
def sqrtBits (n : Nat) : Nat → Nat → Nat
  | 0, r => r
  | b + 1, r => let r' := r + 2 ^ b; sqrtBits n b (if r' * r' ≤ n then r' else r)

/-- 2^23 / √n rounded to nearest (R244), from the integer part of 2^24 / √n. -/
def invSqrt (n : Nat) : Nat := (sqrtBits (2 ^ 48 / n) 25 0 + 1) / 2

end Sys2Proof.Machine.Real
end

