-- ==== Sys2Proof/Machine/Curtain.lean ====
section
/-!
DEFINITION. Curtains (R254 to R256): the raised-cosine fade shared by buses and egress channels.
-/
namespace Sys2Proof.Machine

/-- The gain at position `i` of `t`, 2^23 being 1.0 (R255). -/
def curtainGain (i t : Nat) : Nat :=
  if i = 0 then 8388608 else if t ≤ i then 0
  else (Real.rndAway (4194304 * ((Real.one : Int) + Real.cosPi i t)) Real.one).toNat

/-- A product with a gain of 2^23 = 1.0, rounded to even (R242, R255). -/
def scaleEven (v : Int) (g : Nat) : Int := Real.rndEven (v * g) 8388608

/-- The input that stands while causes are held (R254): the held input kept, or taken when a held cause is new. -/
def heldInput (c : Curtain) (causes : Nat) : Option W24 :=
  if causes.testBit 1 || causes.testBit 2 then
    match c.heldIn with
    | some v => some v
    | none => some (if causes.testBit 1 then c.clean else c.last)
  else none

/-- The curtain's movement by one position (R255, R256): state, position and latched time. -/
def curtainMove (c : Curtain) (close : Bool) (t : Nat) : Curtain :=
  if close then
    if c.state = 2 then c
    else
      let time := if c.state = 0 then t else c.time
      let pos := satTo time (c.pos + 1)
      { c with time := time, pos := pos, state := if pos = time then 2 else 1 }
  else
    if c.state = 0 then c
    else
      let time := if c.state = 2 then t else c.time
      let pos := (if c.state = 2 then t else c.pos) - 1
      { c with time := time, pos := pos, state := if pos = 0 then 0 else 3 }

/-- One sample through a curtain (R254 to R256): `causes` held, `live` the live input, `t` the curtain time in force,
`clean` whether `live` is the value of a tick without overrun, which R42 keeps whatever cause is held. -/
def curtainStep (c : Curtain) (causes : Nat) (live : W24) (t : Nat) (clean : Bool) : W24 × Curtain :=
  let held := heldInput c causes
  let v := match held with | some v => v | none => live
  let m := curtainMove c (causes != 0) t
  let m := { m with causes := causes, heldIn := held, last := if held.isSome then c.last else live
                    clean := if clean then live else c.clean }
  let out := if m.state = 2 then 0 else if m.pos = 0 then v else w24i (scaleEven v.toInt (curtainGain m.pos m.time))
  (out, m)

end Sys2Proof.Machine
end

