-- ==== Sys2Proof/Machine/Market.lean ====
section
/-!
DEFINITION. The Market (R165 to R179) and the pockets (R190, R191): accesses with error correction and poison, and
sparing. `Dev.mkt` holds the words as last written; `Dev.ecc` holds, for each word, the bits that have flipped since
(bits 29 to 0) and the poison mark (bit 30).
-/
namespace Sys2Proof.Machine

/-- The number of words of the Market (R165). -/
abbrev mktSize : Nat := 67108864

/-- The number of bits set. -/
def ones (b : BitVec 31) : Nat := (List.range 30).foldl (fun n i => n + b1 (b.getLsbD i)) 0

/-- The word is poisoned. -/
def poisoned (e : BitVec 31) : Bool := e.getLsbD 30

/-- The mark of a poisoned word. -/
def poisonMark : BitVec 31 := 1 <<< 30

/-- The magnitude of a word, saturating at 7F_FFFFh (R406). -/
def magnitude (v : W24) : Nat := satTo 0x7FFFFF v.toInt.natAbs

/-! ## Sparing (R177, R178) -/

/-- STU is free for stall `k`'s sparing to begin: the copy starts (R177). -/
def spareStart (d : Dev) (k cause : Nat) : Dev :=
  let d := setf d F.MKTS_STATE_STATE k 1
  let d := setf d F.MKTS_STATE_PARTNER k 128
  let d := setf d F.MKT_SPARE_STATUS 0 1
  { d with stalls := { d.stalls with copying := some (k, cause) } }

/-- Stall `k` goes on with its error code alone (R178). -/
def spareNone (d : Dev) (k cause : Nat) : Dev :=
  let d := if k < 128 then setf d F.MKTS_STATE_STATE k 5 else d
  post d 0x23 k k cause

/-- A rehearsal slot ends for the stall it works on: the stall is in service and STU free (R180 step 7). -/
def slotReturn (d : Dev) : Dev :=
  let k := fld d F.REH_STAT_STALL 0
  let d := if k < 128 then setf (setf d F.MKTS_STATE_STATE k 0) F.MKTS_STATE_PARTNER k 0 else d
  setf d F.REH_STAT_STEP 0 0

/-- Sparing of stall `k` runs, waits or is complete: another case for it starts nothing (R177). -/
def sparing (d : Dev) (k : Nat) : Bool :=
  (d.stalls.copying.any fun c => c.1 == k) || (d.stalls.wanted.any fun c => c.1 == k) || fld d F.MKTS_STATE_STATE k == 4

/-- A case for sparing stall `k` arises (R177, R178): 1 rehearsal, 2 by count, 3 by software. A rehearsal of another stall
that it ends in COPY_OUT leaves that stall the next to be rehearsed, as R184 has it for EN = 0 (notes/assumptions/45). -/
def spareCase (d : Dev) (k cause : Nat) : Dev :=
  if sparing d k then d
  else if fld d F.MKT_SPARE_STATUS 0 ≥ 2 then spareNone d k cause
  else if d.stalls.copying.isSome then { d with stalls := { d.stalls with wanted := d.stalls.wanted ++ [(k, cause)] } }
  else
    let step := fld d F.REH_STAT_STEP 0
    if step = 0 then spareStart d k cause
    else if step ≤ 2 then spareStart (slotReturn d) k cause
    else { d with stalls := { d.stalls with wanted := d.stalls.wanted ++ [(k, cause)] } }

/-- The sparings that wait are taken up, once STU is free or gone (R177, R178). -/
def spareNext (d : Dev) : Dev :=
  let w := d.stalls.wanted
  forAll (List.range w.length)
    (fun d i => match w[i]? with
      | some (k, c) => spareCase d k c
      | none => d) { d with stalls := { d.stalls with wanted := [] } }

/-! ## Accesses -/

/-- The stall that serves reads of stall `k`: STU while it stands in (R177, R180 steps 3 to 6). -/
def servingStall (d : Dev) (k : Nat) : Nat :=
  match fld d F.MKTS_STATE_STATE k with
  | 2 | 3 | 4 => 128
  | _ => k

/-- The engine position SU acts for: the replaced engine under takeover, else its own, 16 (R168, R263, R268). -/
def suPos (d : Dev) : Nat := if fld d F.SU_STAT_MODE 0 = 4 then fld d F.SU_STAT_PARTNER 0 else 16

/-- The RDERR bit of a master (R173). -/
def rderrBit (d : Dev) (m : Nat) : Option Nat :=
  if m ≤ 15 then some m
  else if m = 16 then some (suPos d)
  else if m ≤ 18 then some m
  else if m ≤ 22 then some 19
  else if m ≤ 24 then some 20
  else if m ≤ 26 then some 21
  else if m ≤ 31 then some 22
  else if m = 32 then some 23
  else none

/-- A read of a poisoned word is logged and posted (R173): MKT_UE with its details, UE_LOG0 and UE_LOG1. -/
def ueLog (d : Dev) (k m a : Nat) (first : Bool) : Dev :=
  let d := wr d A.MKT_UE_LOG0 (w24 a)
  let d := wr d A.MKT_UE_LOG1 (w24 (2 ^ 23 + b1 first * 2 ^ 22 + m * 2 ^ 8 + a / 2 ^ 24))
  post d 0x21 k a (b1 first * 2 ^ 23 + m * 2 ^ 8 + a / 2 ^ 24)

/-- Reader `m`'s RDERR bit, and the interrupt source of a prompter (R173). -/
def rdErr (d : Dev) (m : Nat) : Dev :=
  let d := match rderrBit d m with
    | some b =>
      let e := fld d F.MKT_RDERR_ERR 0
      if e.testBit b then d else setf d F.MKT_RDERR_ERR 0 (e + 2 ^ b)
    | none => d
  if m = 17 then raise d 12 else if m = 18 then raise d 13 else d

/-- Word `a` is found uncorrectable: poisoned, and counted at the stall `k` that serves it; the count may call for
sparing as it reaches UE_RETIRE (R172, R177). A count that stands at or past UE_RETIRE when software lowers UE_RETIRE or
sets AUTOSPARE does not reach it, and calls for none (notes/assumptions/45). -/
def poisonWord (d : Dev) (k a : Nat) : Dev :=
  let d := { d with ecc := Tab.set 0 d.ecc a poisonMark
                    stalls := { d.stalls with scrubs := d.stalls.scrubs.filter (· != a) } }
  let d := inc d F.MKTS_UE_COUNT k
  if k < 128 && flag d F.MKT_CTRL_AUTOSPARE 0 && fld d F.MKT_CTRL_UE_RETIRE 0 != 0
      && fld d F.MKTS_UE_COUNT k == fld d F.MKT_CTRL_UE_RETIRE 0 then spareCase d k 2
  else d

/-- A corrected read at stall `k` (R171): counted, posted once a second, and put down for a scrub write. -/
def correctWord (d : Dev) (k a : Nat) : Dev :=
  let d := inc d F.MKTS_CE_COUNT k
  let d := postSec d 0x20 k a 0
  if flag d F.MKT_CTRL_SCRUB 0 && !d.stalls.scrubs.contains a then
    { d with stalls := { d.stalls with scrubs := d.stalls.scrubs ++ [a] } }
  else d

/-- The check a stall makes on a read of word `a` by master `m`, `flips` having flipped (R171 to R173): the machine
after it, and whether the reader gets zero. `quiet`: the merge read of a partial write, which marks no reader
(R174). -/
def mktCheck (d : Dev) (m a : Nat) (flips : BitVec 30) (quiet : Bool) : Bool × Dev :=
  let k := servingStall d (a % 128)
  let e := Tab.get 0 d.ecc a ^^^ flips.zeroExtend 31
  let d := { d with ecc := Tab.set 0 d.ecc a e }
  if poisoned e then
    let d := { d with ecc := Tab.set 0 d.ecc a poisonMark }
    let d := ueLog d k m a false
    (true, if quiet then d else rdErr d m)
  else
    match ones e with
    | 0 => (false, d)
    | 1 => (false, correctWord d k a)
    | _ =>
      let d := poisonWord d k a
      let d := ueLog d k m a true
      (true, if quiet then d else rdErr d m)

/-- A running tally unit watches master `m`'s waits. -/
def waitWatched (d : Dev) (m : Nat) : Bool :=
  d.tallies.any fun u => u.2.live && u.2.cfg.probe == 7 && u.2.cfg.target == m

/-- The wait of an access the model grants itself, where a tally unit watches it: its length is open (R406, R470;
notes/assumptions/2). -/
def mktWait (d : Dev) (m : Nat) : Dev :=
  if waitWatched d m then
    let (w, d) := freshWord d
    tally d 7 m (satTo 0x7FFFFF w.toNat : Nat)
  else d

/-- A read of word `a` by master `m` (R170 to R173): the word, whether it was poisoned, the machine after. -/
def mktRead (d : Dev) (m a : Nat) (flips : BitVec 30 := 0) : W24 × Bool × Dev :=
  let a := a % mktSize
  let d := mktWait d m
  let v := Tab.get 0 d.mkt a
  let (bad, d) := mktCheck d m a flips false
  (if bad then 0 else v, bad, d)

/-- What a write of word `a` leaves for the transforms that run over it (R154): each may have read the word before. -/
def pastOf (d : Dev) (a : Nat) : List (Nat × Nat × W24 × BitVec 31) :=
  (d.tus.filter fun e => match e.2.running with
    | some r => decide (r.src ≤ a) && decide (a < r.src + 2 ^ (r.logn + 1))
    | none => false).map fun e => (e.1, a, Tab.get 0 d.mkt a, Tab.get 0 d.ecc a)

/-- The word `a` becomes `v` with valid check bits (R170 to R172). -/
def mktPut (d : Dev) (a : Nat) (v : W24) : Dev :=
  { d with mkt := Tab.set 0 d.mkt a v, ecc := Tab.set 0 d.ecc a 0, past := d.past ++ pastOf d a
           stalls := { d.stalls with scrubs := d.stalls.scrubs.filter (· != a) } }

/-- A full write of word `a` by master `m` (R170, R172), seen by MKTPEAK. -/
def mktWrite (d : Dev) (m a : Nat) (v : W24) : Dev :=
  let a := a % mktSize
  tally (mktPut (mktWait d m) a v) 1 a (magnitude v)

/-- Words read in turn from `a`, with whether any was poisoned. -/
def mktReadN (d : Dev) (m a n : Nat) : List W24 × Bool × Dev :=
  (List.range n).foldl
    (fun (l, bad, d) i => let (v, b, d) := mktRead d m (a + i); (l ++ [v], bad || b, d)) ([], false, d)

/-- Words written in turn from `a`. -/
def mktWriteN (d : Dev) (m a : Nat) (l : List W24) : Dev :=
  (l.foldl (fun (d, i) v => (mktWrite d m (a + i) v, i + 1)) (d, 0)).1

/-! ## Windows' addresses (R81, R186) -/

/-- The live length of window `n`. -/
def winLen (d : Dev) (n : Nat) : Nat := fld d F.WIN_LEN_LENM1 n + 1

/-- The effective address of window `n` at offset `o` (R186). -/
def winAddr (d : Dev) (n : Nat) (o : Int) : Nat :=
  let base := fld d F.WIN_CFG_BASE_HI n * 2 ^ 24 + fld d F.WIN_BASE_BASE_LO n
  (base + (((fld d F.WIN_HEAD_HEAD n : Int) + o) % (winLen d n : Int)).toNat) % mktSize

/-! ## Pockets and local data memory (R190, R191, R376) -/

/-- The key of word `a` of engine position `p`'s pocket. -/
def pktKey (p a : Nat) : Nat := p * 16384 + a

/-- The key of word `a` of prompter `n`'s local data memory. -/
def localKey (n a : Nat) : Nat := 17 * 16384 + n * 65536 + a

/-- What a read of a pocket or local data word that is poisoned does beside returning zero: PKT_UE for position `p`
(R191), the memory-error source for prompter `p - 17` that reads its local data (R376). -/
def pktUe (d : Dev) (p a : Nat) : Dev :=
  if p < 16 then post (setf d F.SE_PKT_ECC_UE p 1) 0x25 p a 0
  else if p = 16 then post (setf d F.SU_PKT_ECC_UE 0 1) 0x25 16 a 0
  else if p ≤ 18 then raise d (12 + (p - 17))
  else d

/-- A corrected pocket read is counted (R191). -/
def pktCe (d : Dev) (p : Nat) : Dev :=
  if p < 16 then inc d F.SE_PKT_ECC_CECNT p else if p = 16 then inc d F.SU_PKT_ECC_CECNT 0 else d

/-- A pocket word poisoned is counted (R191). -/
def pktPoisoned (d : Dev) (p : Nat) : Dev :=
  if p < 16 then inc d F.SE_PKT_ECC_UECNT p else if p = 16 then inc d F.SU_PKT_ECC_UECNT 0 else d

/-- A read of the word at `key`, the address `a` of position or prompter `p` (17 and 18 the prompters, 19 local data
that a porter reads). -/
def pktRead (d : Dev) (p a key : Nat) (flips : BitVec 30 := 0) : W24 × Bool × Dev :=
  let v := Tab.get 0 d.pkt key
  let e := Tab.get 0 d.pecc key ^^^ flips.zeroExtend 31
  let d := { d with pecc := Tab.set 0 d.pecc key e }
  if poisoned e then (0, true, pktUe { d with pecc := Tab.set 0 d.pecc key poisonMark } p a)
  else
    match ones e with
    | 0 => (v, false, d)
    | 1 => (v, false, pktCe { d with pscrub := if d.pscrub.contains key then d.pscrub else d.pscrub ++ [key] } p)
    | _ => (0, true, pktUe (pktPoisoned { d with pecc := Tab.set 0 d.pecc key poisonMark } p) p a)

/-- The index of word `a` of prompter `n`'s program memory. -/
def progKey (n a : Nat) : Nat := n * 65536 + a

/-- A write of the program memory word at `key` (R376). -/
def progPut (d : Dev) (key : Nat) (v : W32) : Dev :=
  { d with prog := Tab.set 0 d.prog key v, gecc := Tab.set 0 d.gecc key 0 }

/-- The check of a read of the program memory word at `key`, `flips` having flipped: whether it is poisoned, and the
machine after, in which a word found uncorrectable is (R172, R376). -/
def progCheck (d : Dev) (key : Nat) (flips : BitVec 30) : Bool × Dev :=
  let e := Tab.get 0 d.gecc key ^^^ flips.zeroExtend 31
  let d := if flips = 0 then d else { d with gecc := Tab.set 0 d.gecc key e }
  if poisoned e || 2 ≤ ones e then (true, { d with gecc := Tab.set 0 d.gecc key poisonMark }) else (false, d)

/-- A write of the word at `key`. -/
def pktWrite (d : Dev) (key : Nat) (v : W24) : Dev :=
  { d with pkt := Tab.set 0 d.pkt key v, pecc := Tab.set 0 d.pecc key 0, pscrub := d.pscrub.filter (· != key) }

/-- Corrected words of one pocket are written back, in a word that leaves the pocket free (R191): the keys from `lo` to
`hi - 1`. -/
def pktScrub (d : Dev) (lo hi : Nat) : Dev :=
  let now := d.pscrub.filter fun k => lo ≤ k && k < hi
  { d with pecc := now.foldl (fun t k => if poisoned (Tab.get 0 t k) then t else Tab.set 0 t k 0) d.pecc
           pscrub := d.pscrub.filter fun k => !(lo ≤ k && k < hi) }

end Sys2Proof.Machine
end

