-- ==== Sys2Proof/Machine/Collector.lean ====
section
/-!
DEFINITION. The Collector (R234 to R246): contributions, the drain, what a tick edge does to it, and the bus output
stage with its gain ramp and curtains.
-/
namespace Sys2Proof.Machine

/-- The double family is in force (R39). -/
def doubleFamily (d : Dev) : Bool := fld d F.TICK_RATE_RATE 0 ≥ 2

/-- The sample rate in force, in Hz (R39). -/
def rateHz (d : Dev) : Nat :=
  match fld d F.TICK_RATE_RATE 0 with
  | 0 => 44100
  | 1 => 48000
  | 2 => 88200
  | _ => 96000

/-- The running image's ID (R222). -/
def stageId (d : Dev) : Nat := fld d F.CUE_STAGE_ID_HI 0 * 2 ^ 24 + fld d F.CUE_STAGE_ID_ID_LO 0

/-! ## Contributions -/

/-- The index of the source FIFO of position `p` for bus `b` (R235). -/
def fifoOf (p b : Nat) : Nat := 4 * p + b % 4

/-- The sum of bus `b` in the tick in progress. -/
def busSum (d : Dev) (b : Nat) : BusSum := Tab.get {} d.col.sums b

/-- A contribution to bus `b` is dropped (R237). -/
def collectDrops (d : Dev) (b : Nat) : Bool :=
  (b ≥ 256 && doubleFamily d) || !flag d F.COLLN_CFG_EN b || (busSum d b).total ≥ 8192
    || fld d F.COLL_CTRL_STATUS 0 != 1

/-- The COLLECT of position `p` to bus `b` finds its source FIFO full (R236). -/
def collectFull (d : Dev) (p b : Nat) : Bool :=
  !collectDrops d b && (Tab.get [] d.col.fifo (fifoOf p b)).length ≥ 8

/-- A contribution reaches the Collector (R234 to R237). -/
def collect (d : Dev) (c : Contrib) : Dev :=
  if collectDrops d c.bus then
    let d := inc d F.COLL_STAT_DROPPED 0
    let bus := if d.col.dropNow = 0 then c.bus else d.col.dropBus
    { d with col := { d.col with dropNow := d.col.dropNow + 1, dropBus := bus } }
  else
    let f := fifoOf c.pos c.bus
    let s := busSum d c.bus
    let s := { s with total := s.total + 1, from_ := Tab.set 0 s.from_ c.pos (Tab.get 0 s.from_ c.pos + 1) }
    { d with col := { d.col with fifo := Tab.set [] d.col.fifo f (Tab.get [] d.col.fifo f ++ [c])
                                 sums := Tab.set {} d.col.sums c.bus s } }

/-- The next position at or after `p` in the turn whose FIFO in `lane` holds an entry, of `n` tries (R235). -/
def nextSource (fifo : Tab (List Contrib)) (lane : Nat) : Nat → Nat → Option Nat
  | 0, _ => none
  | n + 1, p => if (Tab.get [] fifo (4 * (p % 16) + lane)).isEmpty then nextSource fifo lane n (p + 1) else some (p % 16)

/-- The lane takes one entry into its queue, if it has room and a source holds one (R235). -/
def laneTake (c : Collector) (lane : Nat) : Collector :=
  let q := Tab.get [] c.lane lane
  if q.length ≥ 16 then c
  else
    match nextSource c.fifo lane 16 (Tab.get 0 c.turn lane) with
    | none => c
    | some p =>
      match Tab.get [] c.fifo (4 * p + lane) with
      | [] => c
      | e :: rest =>
        { c with fifo := Tab.set [] c.fifo (4 * p + lane) rest, lane := Tab.set [] c.lane lane (q ++ [e])
                 turn := Tab.set 0 c.turn lane ((p + 1) % 16) }

/-- A contribution added exactly into its sum (R238, R243). -/
def addContrib (s : BusSum) (c : Contrib) : BusSum :=
  { s with sum := s.sum + c.acc.signExtend 70, n := if c.active then satTo 4095 (s.n + 1) else s.n }

/-- No contribution waits in the Collector. -/
def collectEmpty (c : Collector) : Bool := c.fifo.isEmpty && c.lane.isEmpty

/-- A Collector that drains is OFF once its queues are empty (R246). -/
def collectSettle (d : Dev) : Dev :=
  if fld d F.COLL_CTRL_STATUS 0 = 2 && collectEmpty d.col then setf d F.COLL_CTRL_STATUS 0 0 else d

/-- One service of a lane at `ns` from the tick edge (R235, R238): its queue fills in turn, and the adder takes the
oldest entry. -/
def laneService (d : Dev) (lane ns : Nat) : Dev :=
  let c := forAll (List.range 16) (fun c _ => laneTake c lane) d.col
  match Tab.get [] c.lane lane with
  | [] => { d with col := c }
  | e :: rest =>
    let s := addContrib (Tab.get {} c.sums e.bus) e
    collectSettle { d with col := { c with lane := Tab.set [] c.lane lane rest, sums := Tab.set {} c.sums e.bus s
                                           drainNs := if ns > c.drainNs then ns else c.drainNs } }

/-! ## The tick edge -/

/-- The buses that still have a contribution in a source FIFO or lane queue, ascending (R240). -/
def lateBuses (c : Collector) : List Nat :=
  let waiting := (c.fifo.flatMap (·.2) ++ c.lane.flatMap (·.2)).map (·.bus)
  (List.range 512).filter fun b => waiting.contains b

/-- The edge ends the tick's sums (R237, R240, R406): what is not drained is discarded and its buses are late.
`dt` is the length of the tick that ends, in LP0 periods of 0.8 ns. -/
def collectEdge (d : Dev) (dt : Nat) : Dev :=
  let late := lateBuses d.col
  let c := d.col
  let d := tallyDrain d (if late.isEmpty then (c.drainNs - c.tailNs : Nat) else (dt * 4 / 5 - c.tailNs : Nat))
  let d := match late with
    | [] => d
    | b :: _ => post (inc d F.COLL_STAT_LATE 0) 0x30 0 b late.length
  let d := if c.dropNow > 0 && !c.dropRun then post d 0x31 0 c.dropBus c.dropNow else d
  collectSettle { d with col := { d.col with fifo := [], lane := [], turn := [], done := c.sums, sums := [], late := late
                                             dropRun := c.dropNow > 0, dropNow := 0, drainNs := 0, tailNs := 0 } }

/-- An edge that no tick ends at: the tick it begins finds the Collector empty, and no tick before it has a sum (R237,
R238). -/
def collectRestart (d : Dev) : Dev :=
  collectSettle { d with col := { d.col with fifo := [], lane := [], turn := [], done := [], sums := [], late := []
                                             dropRun := false, dropNow := 0, drainNs := 0, tailNs := 0 } }

/-- The positions whose outputs stand under DIS because the engine is disabled (R134, R254, R397). -/
def disabledPos (d : Dev) : List Nat := (List.range 16).filter fun p => !flag d F.SE_ENG_CTRL_ENABLE p

/-- The causes of bus `b` as they stand (R246, R254), OVR apart. Before the first cue no source has anything to give,
and the curtains stay closed (R422). -/
def busCauses (d : Dev) (b : Nat) : Nat :=
  let off := !flag d F.COLLN_CFG_EN b || !flag d F.CUE_STAGE_LOADED 0 || !flag d F.COLL_CTRL_ENABLE 0 || d.col.disAll
    || (disabledPos d).any fun p => (fld d F.COLLN_CFG_SRCMASK b).testBit p
  b1 (flag d F.COLLN_CTIME_SWCLOSE b) + 4 * b1 off + 8 * b1 (d.col.clk && flag d F.COLLN_CFG_EN b)

/-- Bus `b`. -/
def bus (d : Dev) (b : Nat) : Bus := Tab.get {} d.buses b

/-- Bus `b` replaced. -/
def setBus (d : Dev) (b : Nat) (x : Bus) : Dev := { d with buses := Tab.set {} d.buses b x }

/-- Causes are sampled (R256). -/
def sampleCauses (d : Dev) : Dev :=
  let d := forAll (List.range 512)
    (fun d b =>
      let cz := busCauses d b
      if (bus d b).cz = cz then d else setBus d b { bus d b with cz := cz }) d
  { d with col := { d.col with swS := d.col.sw, disS := disabledPos d,
                                    dis := d.col.disAll || !flag d F.CUE_STAGE_LOADED 0, clkS := d.col.clk } }

/-! ## The bus output stage (R242 to R246) -/

/-- The target gain G(N) (R243, R244). -/
def gainOf (mode n : Nat) : Nat :=
  let n := if n = 0 then 1 else n
  match mode with
  | 0 => 8388608
  | 1 => Real.invSqrt n
  | 2 => (2 * 8388608 + n) / (2 * n)
  | _ => 2 ^ (23 - (if n = 1 then 0 else (n - 1).log2 + 1))

/-- The gain in force moves one step toward G(N) (R245). -/
def gainRamp (x : Bus) (gt rt : Nat) : Bus :=
  let x := if gt ≠ x.target then { x with target := gt, start := x.g, i := 0 } else x
  if x.g = x.target then x
  else
    let i := x.i + 1
    let g := if rt = 0 || i ≥ rt then x.target
      else (x.start + Real.rndAway (((x.target : Int) - x.start) * i) rt).toNat
    { x with i := i, g := g }

/-- A 70-bit sample scaled and saturated (R242). -/
def busScale (s : BitVec 70) (g : Nat) : W24 :=
  let t := Real.rndEven (s.toInt * g) (2 ^ 47)
  w24i (if t > 8388607 then 8388607 else if t < -8388608 then -8388608 else t)

/-- Position `p`'s contributions to bus `b` in the tick whose sum is `s` are not all there (R41;
notes/assumptions/15). -/
def busMissing (d : Dev) (p b : Nat) (s : BusSum) : Bool :=
  Tab.get 0 s.from_ p < 1 + Config.expectedContribs (stageId d) p b

/-- What an overrun asks where two meet in one bus (R42): curtain 3 before hold 1 before zero 2 before nothing 0. -/
def strongest (m n : Nat) : Nat := if m = 3 || n = 3 then 3 else if m = 1 || n = 1 then 1 else if m = 2 || n = 2 then 2 else 0

/-- What overruns ask of bus `b` (R41, R42): the strongest outcome among the positions whose contributions are missing
in the tick, and the positions whose OVR cause acts on it, missing or held from an earlier tick. The SRCMASK that names
the positions is the one in force at the bus output stage, so where a cue executes at the edge between, that of the new
stage (DEDUCED, notes/assumptions/49). -/
def busOverrun (d : Dev) (b : Nat) (s : BusSum) : Nat × List Nat :=
  let mask := fld d F.COLLN_CFG_SRCMASK b
  (List.range 16).foldl
    (fun (m, by_) p =>
      if !mask.testBit p then (m, by_)
      else
        let o := Tab.get {} d.ovr p
        let miss := o.overran && busMissing d p b s
        (if miss then strongest m o.mode else m,
          if o.mode = 3 && (miss || (bus d b).ovrBy.contains p) then by_ ++ [p] else by_)) (0, [])

/-- Bus `b` through the output stage (R242 to R246, R254 to R256). -/
def busStage (d : Dev) (b : Nat) : Dev :=
  let x := bus d b
  let s := Tab.get {} d.col.done b
  let late := d.col.late.contains b
  let (m, by_) := busOverrun d b s
  let en := flag d F.COLLN_CFG_EN b
  let repeat_ := m = 3 || m = 1 || (late && m ≠ 2)
  let x := if repeat_ then x else { x with sample := s.sum, n := s.n }
  let gt := gainOf (fld d F.COLLN_CFG_SCALE b) x.n
  let x := if en && !x.on then
      let g1 := gainOf (fld d F.COLLN_CFG_SCALE b) 1
      { x with g := g1, target := g1, on := true, i := 0 }
    else { x with on := en }
  let x := if en then gainRamp x gt (fld d F.COLLN_RAMPT_RAMPT b) else x
  let live := if en then busScale x.sample x.g else x.curtain.last
  let causes := x.cz + 2 * b1 (!by_.isEmpty)
  let (out, c) := curtainStep x.curtain causes live (fld d F.COLLN_CTIME_CTIME b) (m = 0 || m = 2)
  let d := setBus d b { x with curtain := c, ovrBy := by_, out := out }
  let d := setf d F.COLLN_STAT_CSTATE b c.state
  let d := setf d F.COLLN_STAT_CAUSE b c.causes
  let d := setf d F.COLLN_STAT_LATE b (b1 late)
  let d := setf d F.COLLN_STAT_NLAST b x.n
  let d := forAll by_ (fun d p =>
    let o := Tab.get {} d.ovr p
    if o.acted.contains b then d else { d with ovr := Tab.set {} d.ovr p { o with acted := o.acted ++ [b] } }) d
  if en then tally d 3 b (magnitude out) else d

/-- A live EN of 0 is seen in every tick, also where no output stage runs, so that its next 1 starts the gain at G(1)
(R245). -/
def busEnables (d : Dev) : Dev :=
  forAll (d.buses.map (·.1))
    (fun d b => if (bus d b).on && !flag d F.COLLN_CFG_EN b then setBus d b { bus d b with on := false } else d) d

/-- The bus output stage of the tick: every bus in force (R242, R246); in HUSH the Collector is stopped (R395). -/
def busOutputStage (d : Dev) : Dev :=
  if d.house.engStop then d
  else forAll (List.range (if doubleFamily d then 256 else 512)) busStage d

/-! ## Registers -/

/-- A write of COLL.CTRL (R246). -/
def writeCollCtrl (w : BitVec 6) (v : W24) (d : Dev) : Dev :=
  let d := regWrite d w.toNat A.COLL_CTRL v
  if flag d F.COLL_CTRL_ENABLE 0 then setf d F.COLL_CTRL_STATUS 0 1
  else if fld d F.COLL_CTRL_STATUS 0 = 1 then collectSettle (setf d F.COLL_CTRL_STATUS 0 2) else d

/-- A write of COLL.STAT: CLR zeroes both counts (R246). -/
def writeCollStat (w : BitVec 6) (v : W24) (d : Dev) : Dev :=
  let d := regWrite d w.toNat A.COLL_STAT v
  if F.COLL_STAT_CLR.of v = 1 then setf (setf d F.COLL_STAT_DROPPED 0 0) F.COLL_STAT_LATE 0 0 else d

/-- A write of COLL.CURT_CMD (R258): CLOSE sets and OPEN clears the SW cause of channel CH. -/
def writeCurtCmd (w : BitVec 6) (v : W24) (d : Dev) : Dev :=
  let close := F.COLL_CURT_CMD_CLOSE.of v = 1
  let open_ := F.COLL_CURT_CMD_OPEN.of v = 1
  let ch := F.COLL_CURT_CMD_CH.of v
  if close && open_ then post d 0x01 w.toNat A.COLL_CURT_CMD v.toNat
  else if ch > 8851 then d
  else if close then { d with col := { d.col with sw := Tab.set false d.col.sw ch true } }
  else if open_ then { d with col := { d.col with sw := Tab.set false d.col.sw ch false } }
  else d

/-- COLLECTOR_DRAIN (R235). -/
def execCollectorDrain (lane : Fin 4) (ns : BitVec 15) (s : State) : Host.Outcome State Fault Refusal :=
  .next (s.act fun d => laneService d lane.val ns.toNat)

/-- COLL_ENABLE_WRITE (R246). -/
def execCollEnableWrite (w : BitVec 6) (v : W24) (s : State) : Host.Outcome State Fault Refusal :=
  .next (s.write w A.COLL_CTRL v (writeCollCtrl w v))

/-- COLL_STAT_CLR (R237, R246). -/
def execCollStatClr (w : BitVec 6) (v : W24) (s : State) : Host.Outcome State Fault Refusal :=
  .next (s.write w A.COLL_STAT v (writeCollStat w v))

/-- CURT_CLOSE (R258). -/
def execCurtClose (w : BitVec 6) (v : W24) (s : State) : Host.Outcome State Fault Refusal :=
  .next (s.write w A.COLL_CURT_CMD v (writeCurtCmd w v))

/-- CURT_OPEN (R258). -/
def execCurtOpen (w : BitVec 6) (v : W24) (s : State) : Host.Outcome State Fault Refusal :=
  .next (s.write w A.COLL_CURT_CMD v (writeCurtCmd w v))

/-- COLLECT_FIFO_ROOM (R236): a source FIFO entry frees, and the engine held on it goes on. -/
def execCollectFifoRoom (c : Fin 17) (s : State) : Host.Outcome State Fault Refusal :=
  .next (s.act fun d => updCore d c.val fun k => if k.hold = .fifo then { k with hold := .free } else k)

end Sys2Proof.Machine
end

