-- ==== Sys2Proof/Machine/Windows.lean ====
section
/-!
DEFINITION. The window table (R185 to R189), the Board views (R193), and the sets of listed registers that the cue point
and the window phase walk.
-/
namespace Sys2Proof.Machine

/-- A list without its repeats, in order. -/
def dedup : List Nat → List Nat
  | [] => []
  | a :: t => if t.contains a then dedup t else a :: dedup t

/-- The keys of a table from `lo` to `hi - 1`. -/
def keysIn {α : Type} (t : Tab α) (lo hi : Nat) : List Nat := (t.map (·.1)).filter fun k => lo ≤ k && k < hi

/-- The windows whose head can move: any other has head 0 and step 0. -/
def movingWindows (d : Dev) : List Nat :=
  dedup (((keysIn d.ctl 0x044000 0x048000).filter fun a => a % 4 = 1 || a % 4 = 3).map fun a => (a - 0x044000) / 4)

/-- Phase 4 for one window (R187). -/
def headAdvance (d : Dev) (n : Nat) : Dev :=
  setf d F.WIN_HEAD_HEAD n ((fld d F.WIN_HEAD_HEAD n + fld d F.WIN_CFG_STEP n) % winLen d n)

/-- Phase 4 (R187). -/
def windowPhase (d : Dev) : Dev := forAll (movingWindows d) headAdvance d

/-- The head after window `n`'s live length has become what it is (R188). -/
def headFit (d : Dev) (n : Nat) : Dev :=
  let len := winLen d n
  let h := fld d F.WIN_HEAD_HEAD n
  let h' := if len ≤ h then h - len else h
  if len ≤ h' then
    post (inc (setf d F.WIN_HEAD_HEAD n (len - 1)) F.MKT_WCLAMP_COUNT 0) 0x24 n n (len - 1)
  else setf d F.WIN_HEAD_HEAD n h'

/-- A write of WINn.HEAD (R187). -/
def writeHead (n : Nat) (v : W24) (d : Dev) : Dev := setf d F.WIN_HEAD_HEAD n (v.toNat % winLen d n)

/-! ## The live port (R189) -/

/-- A live-port register. -/
def isWlive (a : Nat) : Bool := A.MKT_WLIVE_SEL ≤ a && a ≤ A.MKT_WLIVE_CMD

/-- The live port is busy. -/
def wliveBusy (d : Dev) : Bool := flag d F.MKT_WLIVE_CMD_BUSY 0

/-- A write to the live port that is not held. -/
def wliveWrite (w : BitVec 6) (a : Nat) (v : W24) (d : Dev) : Dev :=
  if a = A.MKT_WLIVE_CMD then
    let load := F.MKT_WLIVE_CMD_LOAD.of v = 1
    let apply := F.MKT_WLIVE_CMD_APPLY.of v = 1
    if load && apply then post d 0x01 w.toNat a v.toNat
    else if load || apply then setf { d with wliveApply := apply } F.MKT_WLIVE_CMD_BUSY 0 1
    else d
  else regWrite d w.toNat a v

/-- A write to the live port: held while it is busy (R189). -/
def writeWlive (w : BitVec 6) (a : Nat) (v : W24) (d : Dev) : Dev :=
  if wliveBusy d then { d with wliveHeld := d.wliveHeld ++ [(w.toNat, a, some v)] } else wliveWrite w a v d

/-- The staging fields installed as the live and next copies of window `n` (R189). -/
def wliveInstall (d : Dev) (n : Nat) : Dev :=
  let put (d : Dev) (f : Fld) (v : Nat) : Dev := setn (setf d f n v) f n v
  let d := put d F.WIN_BASE_BASE_LO (fld d F.MKT_WLIVE_BASE_BASE_LO 0)
  let d := put d F.WIN_CFG_STEP (fld d F.MKT_WLIVE_CFG_STEP 0)
  let d := put d F.WIN_CFG_BASE_HI (fld d F.MKT_WLIVE_CFG_BASE_HI 0)
  headFit (put d F.WIN_LEN_LENM1 (fld d F.MKT_WLIVE_LEN_LENM1 0)) n

/-- The staging fields loaded from the live copy of window `n` (R189). -/
def wliveCopy (d : Dev) (n : Nat) : Dev :=
  let d := setf d F.MKT_WLIVE_BASE_BASE_LO 0 (fld d F.WIN_BASE_BASE_LO n)
  let d := setf d F.MKT_WLIVE_CFG_STEP 0 (fld d F.WIN_CFG_STEP n)
  let d := setf d F.MKT_WLIVE_CFG_BASE_HI 0 (fld d F.WIN_CFG_BASE_HI n)
  setf d F.MKT_WLIVE_LEN_LENM1 0 (fld d F.WIN_LEN_LENM1 n)

/-- The effect of the LOAD or APPLY that completes, after which the port is free (R189). -/
def wliveEffect (d : Dev) : Dev :=
  let n := fld d F.MKT_WLIVE_SEL_WIN 0
  setf (if d.wliveApply then wliveInstall d n else wliveCopy d n) F.MKT_WLIVE_CMD_BUSY 0 0

/-- A write of MKT.WCLAMP: CLR zeroes COUNT. -/
def writeWclamp (w : BitVec 6) (v : W24) (d : Dev) : Dev :=
  let d := regWrite d w.toNat A.MKT_WCLAMP v
  if F.MKT_WCLAMP_CLR.of v = 1 then setf d F.MKT_WCLAMP_COUNT 0 0 else d

/-! ## The Board views (R193) -/

/-- What a view of Board word `i` reads. -/
def boardWord (d : Dev) (i : Nat) : W24 :=
  w24 ((List.range 16).foldl (fun n b => n + b1 (boardBit d (16 * i + b)) * 2 ^ b) 0)

/-- A write of a Board view: one operation that sets (1) or clears (2) the bits written as 1; none for zero. -/
def writeBoardView (op : Nat) (w : BitVec 6) (i : Nat) (v : W24) (d : Dev) : Dev :=
  if v.toNat % 65536 = 0 then d
  else boardIssue d (boardSource w.toNat) { op := op, base := 16 * i, mask := BitVec.ofNat 32 (v.toNat % 65536), own := w.toNat }

/-! ## Commands -/

/-- WIN_HEAD_WRITE (R187). -/
def execWinHeadWrite (w : BitVec 6) (n : BitVec 12) (v : W24) (s : State) : Host.Outcome State Fault Refusal :=
  .next (s.write w (F.WIN_HEAD_HEAD.addr n.toNat) v (writeHead n.toNat v))

/-- WCLAMP_CLR (R189). -/
def execWclampClr (w : BitVec 6) (v : W24) (s : State) : Host.Outcome State Fault Refusal :=
  .next (s.write w A.MKT_WCLAMP v (writeWclamp w v))

/-- WINDOW_HEAD_ADVANCE (R187). -/
def execWindowHeadAdvance (s : State) : Host.Outcome State Fault Refusal := .next (s.act windowPhase)

/-- BOARD_VIEW_SET (R193). -/
def execBoardViewSet (w : BitVec 6) (i : BitVec 12) (v : W24) (s : State) : Host.Outcome State Fault Refusal :=
  .next (s.write w (A.MKT_BOARD + i.toNat) v (writeBoardView 1 w i.toNat v))

/-- BOARD_VIEW_CLR (R193). -/
def execBoardViewClr (w : BitVec 6) (i : BitVec 12) (v : W24) (s : State) : Host.Outcome State Fault Refusal :=
  .next (s.write w (A.MKT_BOARD_CLR + i.toNat) v (writeBoardView 2 w i.toNat v))

end Sys2Proof.Machine
end

