-- ==== Sys2Proof/Machine/Dynamics.lean ====
section
/-!
DEFINITION. The dynamics units (R247 to R253): DYN calls, and the service of one call.
-/
namespace Sys2Proof.Machine

/-- A value held to a range (R247). -/
def clampTo (lo hi n : Nat) : Nat := if n < lo then lo else satTo hi n

/-- Dynamics channel `c`. -/
def dynChan (d : Dev) (c : Nat) : Dyn := Tab.get {} d.dyns c

/-- Unit `u`. -/
def du (d : Dev) (u : Nat) : Du := Tab.get {} d.dus u

/-- The oldest load of `reg` that waits with visibility point `due` gets its data. -/
def fillLoad (reg due : Nat) (v : W24) : List Load → List Load
  | [] => []
  | l :: t =>
    if l.reg = reg && l.due = due && !l.arrived then { l with val := v, arrived := true } :: t
    else l :: fillLoad reg due v t

/-- The result of a call reaches its load (R89, R92). -/
def deliver (k : Core) (reg due : Nat) (v : W24) : Core :=
  let k := { k with loads := fillLoad reg due v k.loads }
  if k.hold = .load reg then { k with hold := .free } else k

/-- The result of call `q` goes to its load, where that is not discarded. -/
def dynReturn (d : Dev) (q : DynCall) (v : W24) : Dev :=
  if q.live then updCore d q.core fun k => deliver k q.reg q.due v else d

/-- A DYN has reached the channel in the tick (R247, R252). -/
def dynCalled (d : Dev) (c : Nat) : Dev :=
  let d := { d with dyns := Tab.set {} d.dyns c { dynChan d c with called := true } }
  setf d F.DCH7_CALLED c 1

/-- A unit that drains is OFF once it has no call (R253). -/
def duSettle (d : Dev) (u : Nat) : Dev :=
  if fld d F.DU_CTRL_STATUS u = 2 && (du d u).calls.isEmpty then setf d F.DU_CTRL_STATUS u 0 else d

/-- The GR probe takes a call's reduction (R406). -/
def tallyGr (d : Dev) (c : Nat) : Dev := tally d 8 c (-(sfld d F.DCH7_GR c))

/-- A DYN reaches its unit (R252, R253): counted; refused, with its input as result, unless the unit runs. The core
has already issued the load the call fills. -/
def dynArrive (d : Dev) (q : DynCall) : Dev :=
  let u := q.ch / 512
  let n := (du d u).count + 1
  let d := { d with dus := Tab.set {} d.dus u { du d u with count := n } }
  let d := if n > fld d F.DU_STAT_MAXCALLS u then setf d F.DU_STAT_MAXCALLS u (satTo 2047 n) else d
  let d := dynCalled d q.ch
  if fld d F.DU_CTRL_STATUS u = 1 then
    { d with dus := Tab.set {} d.dus u { du d u with calls := (du d u).calls ++ [q] } }
  else
    dynReturn (tallyGr (inc d F.DU_STAT_REFUSED u) q.ch) q q.x

/-- A word another engine wrote in the tick in progress: what a reader gets of it is undefined (R57, R252). -/
def readUndefined (d : Dev) (p a : Nat) : Bool :=
  let e := Tab.get 99 d.wrote a
  e != 99 && e != p

/-- The detector's coefficient in units of 2^-24, the time constant being `num / (den * fs)` s (R249). -/
def dynCoef (fs num den : Nat) : Int :=
  Real.rndAway (16777216 * ((Real.one : Int) - Real.expNeg (Real.one * den / (num * fs)))) Real.one

/-- The detector's new env (R249), in units of 2^-40. -/
def dynEnv (fs : Nat) (rms : Bool) (att rel env : Nat) (kv : Int) : Nat :=
  let m := kv.natAbs
  let dn : Int := if rms then m * m else m * 2 ^ 23
  let a := if dn > 64 * (env : Int) then dynCoef fs att 20000 else dynCoef fs rel 1000
  (Real.rndAway (64 * env * 16777216 + (dn - 64 * env) * a) (64 * 16777216)).toNat

/-- The level Lv in 1/256 dB (R249). -/
def dynLevel (rms : Bool) (env : Nat) : Int :=
  if env = 0 then -30720
  else
    let l := Real.rndAway ((if rms then 2560 else 5120) * Real.ln env 40) Real.ln10
    if l < -30720 then -30720 else l

/-- The gain computer (R250): `over5` and `w5` are over and W in units of 1/1280 dB. -/
def dynGain (type ratio range : Nat) (over5 : Int) (w5 : Nat) : Int :=
  let half : Int := w5 / 2
  if type = 2 then
    let low : Int := -(256 * (range : Int))
    let gr :=
      if ratio = 4095 then (if over5 < 0 then low else 0)
      else if 2 * over5 > w5 then 0
      else if 2 * over5 < -(w5 : Int) then Real.rndAway (ratio * over5) 80
      else if w5 = 0 then 0
      else Real.rndAway (-(ratio * ((over5 - half) * (over5 - half)))) (160 * w5)
    if gr < low then low else gr
  else
    let (qn, qd) : Int × Nat := if type = 1 || ratio = 4095 then (-1, 1) else (-(ratio : Int), 16 + ratio)
    if 2 * over5 < -(w5 : Int) then 0
    else if 2 * over5 > w5 then Real.rndAway (qn * over5) (qd * 5)
    else if w5 = 0 then 0
    else Real.rndAway (qn * ((over5 + half) * (over5 + half))) (qd * 10 * w5)

/-- The live link group of channel `c`; 0 for none (R247). -/
def dynLink (d : Dev) (c : Nat) : Nat := let l := fld d F.DCH6_LINK c; if l > 32 then 0 else l

/-- The members of link group `g` of unit `u`, the first sixteen in ascending order (R251). -/
def dynMembers (d : Dev) (u g : Nat) : List Nat :=
  ((List.range 512).map (512 * u + ·)).filter (fun c => flag d F.DCH0_EN c && dynLink d c == g) |>.take 16

/-- The applied reduction of channel `c` with its own `gr` (R251). -/
def dynLinked (d : Dev) (c : Nat) (gr : Int) : Int :=
  let g := dynLink d c
  if g = 0 then gr
  else
    let m := dynMembers d (c / 512) g
    if m.contains c then
      m.foldl (fun x o => if o = c then x else let y := (dynChan d o).prevGr; if y < x then y else x) gr
    else gr

/-- Step 6 and 7 of R248: the output of a delayed sample under a reduction. -/
def dynOut (xd gr : Int) (makeup : Nat) : W24 :=
  let g := Real.rndAway (8388608 * (Real.pow10 (5 * gr + 128 * makeup) 25600 : Nat)) Real.one
  let y := Real.rndEven (xd * g) 8388608
  w24i (if y > 8388607 then 8388607 else if y < -8388608 then -8388608 else y)

/-- The key of a call (R248 step 1, R252): a key word that another engine wrote in the tick reads as a free value. -/
def dynKey (d : Dev) (u p c : Nat) (x : W24) : W24 × Dev :=
  if flag d F.DCH0_KEYEN c then
    let a := fld d F.DCH6_KEY_HI c * 2 ^ 24 + fld d F.DCH5_KEY_LO c
    let (v, _, d) := mktRead d (19 + u) a
    if readUndefined d p a then freshWord d else (v, d)
  else (x, d)

/-- The delayed sample of a call (R248 step 2). -/
def dynDelay (d : Dev) (u c : Nat) (x : W24) : W24 × Dev :=
  let la := satTo 240 (fld d F.DCH4_LA c)
  if la = 0 then (x, d)
  else
    let w := fld d F.DCH4_LAWIN c
    let d := mktWrite d (19 + u) (winAddr d w 0) x
    let (v, _, d) := mktRead d (19 + u) (winAddr d w (-(la : Int)))
    (v, d)

/-- One call served (R248 to R252). CALLED is 1 since it arrived; step 8 sets it once more. -/
def dynServe (d : Dev) (u : Nat) (q : DynCall) : Dev :=
  let c := q.ch
  if !flag d F.DCH0_EN c then
    dynReturn (tallyGr (setf d F.DCH7_CALLED c 1) c) q q.x
  else
    let (kv, d) := dynKey d u q.pos c q.x
    let (xd, d) := dynDelay d u c q.x
    let rms := flag d F.DCH0_DET c
    let env := dynEnv (rateHz d) rms (clampTo 1 4000 (fld d F.DCH2_ATT c)) (clampTo 5 5000 (fld d F.DCH3_REL c))
      (dynChan d c).env kv.toInt
    let over5 := 5 * dynLevel rms env + 128 * satTo 600 (fld d F.DCH0_THR c)
    let gr := dynGain (fld d F.DCH0_TYPE c) (fld d F.DCH1_RATIO c) (satTo 90 (fld d F.DCH6_RANGE c)) over5
      (128 * satTo 240 (fld d F.DCH1_KNEE c))
    let gr := dynLinked d c gr
    let y := dynOut xd.toInt gr (satTo 400 (fld d F.DCH3_MAKEUP c))
    let d := { d with dyns := Tab.set {} d.dyns c { dynChan d c with env := env } }
    let d := setf (setf d F.DCH7_CALLED c 1) F.DCH7_GR c (gr % 65536).toNat
    dynReturn (tallyGr d c) q y

/-- The unit serves its oldest call (R253), but in HUSH, where it is stopped (R395). -/
def dynService (d : Dev) (u : Nat) : Dev :=
  match (du d u).calls with
  | [] => d
  | q :: rest =>
    if d.house.engStop then d
    else duSettle (dynServe { d with dus := Tab.set {} d.dus u { du d u with calls := rest } } u q) u

/-- The channels beside which a tick edge finds anything: those with state, and those whose CALLED or GR is listed. -/
def dynListed (d : Dev) : List Nat :=
  dedup (d.dyns.map (·.1) ++ (((keysIn d.ctl 0x034000 0x038000).filter fun a => a % 8 = 7).map fun a => (a - 0x034000) / 8))

/-- The tick edge (R251, R252): the reductions held at the end of the tick are recorded, CALLED shows the tick that ends,
the counts of calls start again, and the loads that calls still waiting were to fill are discarded (R69). -/
def dynEdge (d : Dev) : Dev :=
  let d := forAll (dynListed d)
    (fun d c =>
      let x := dynChan d c
      let d := setf d F.DCH7_CALLED c (b1 x.called)
      { d with dyns := Tab.set {} d.dyns c { x with called := false, prevGr := sfld d F.DCH7_GR c } }) d
  let age (x : Du) : Du := { x with count := 0, calls := x.calls.map fun q => { q with live := false } }
  { d with dus := forAll (List.range 4) (fun t u => Tab.set {} t u (age (Tab.get {} t u))) d.dus }

/-- A write of DUn.CTRL (R253). -/
def writeDuCtrl (w : BitVec 6) (n : Nat) (v : W24) (d : Dev) : Dev :=
  let d := regWrite d w.toNat (F.DU_CTRL_ENABLE.addr n) v
  if flag d F.DU_CTRL_ENABLE n then setf d F.DU_CTRL_STATUS n 1
  else if fld d F.DU_CTRL_STATUS n = 1 then duSettle (setf d F.DU_CTRL_STATUS n 2) n else d

/-- A write of DUn.STAT: CLR zeroes both counts (R253). -/
def writeDuStat (w : BitVec 6) (n : Nat) (v : W24) (d : Dev) : Dev :=
  let d := regWrite d w.toNat (F.DU_STAT_CLR.addr n) v
  if F.DU_STAT_CLR.of v = 1 then setf (setf d F.DU_STAT_MAXCALLS n 0) F.DU_STAT_REFUSED n 0 else d

/-- DYN_SERVICE (R248). -/
def execDynService (u : Fin 4) (s : State) : Host.Outcome State Fault Refusal :=
  .next (s.act fun d => dynService d u.val)

/-- DU_ENABLE_WRITE (R253). -/
def execDuEnableWrite (w : BitVec 6) (n : Fin 4) (v : W24) (s : State) : Host.Outcome State Fault Refusal :=
  .next (s.write w (F.DU_CTRL_ENABLE.addr n) v (writeDuCtrl w n.val v))

/-- DU_STAT_CLR (R253). -/
def execDuStatClr (w : BitVec 6) (n : Fin 4) (v : W24) (s : State) : Host.Outcome State Fault Refusal :=
  .next (s.write w (F.DU_STAT_CLR.addr n) v (writeDuStat w n.val v))

end Sys2Proof.Machine
end

