-- ==== Sys2Proof/Machine/Operands.lean ====
section
/-!
DEFINITION. The register file of a core and every operand form: the register window (R71), the second operand, shift
amounts, addresses (R79 to R81), bit operands (R120), and the special registers (R64 to R66, R73, R100).
-/
namespace Sys2Proof.Machine

/-! ## Cores -/

/-- Core `c` has the control profile (R58). -/
def isPc (c : Nat) : Bool := decide (17 ≤ c)

/-- The number of words of the program store (R122). -/
def storeSize (c : Nat) : Nat := if isPc c then 65536 else 16384

/-- SU runs its known-answer test (R263). -/
def inKat (d : Dev) (c : Nat) : Bool := c = 16 && fld d F.SU_STAT_MODE 0 = 2

/-- The engine position core `c` works in: SU that of the engine it replaces (R268). -/
def posOf (d : Dev) (c : Nat) : Nat := if c = 16 then suPos d else c

/-! ## Registers -/

/-- The physical register that `xr` names: 0 to 7 the globals, 8 + 8F + i register i of frame F (R71). -/
def Core.phys (k : Core) (r : BitVec 5) : Nat :=
  let n := r.toNat
  if n < 8 then n
  else if n < 16 then 8 + 8 * (k.cwp % 15) + (n - 8)
  else if n < 24 then 8 + 8 * ((k.cwp + 2) % 15) + (n - 16)
  else 8 + 8 * ((k.cwp + 1) % 15) + (n - 24)

/-- What register `xr` reads as (R64, R71). -/
def Core.x (k : Core) (r : BitVec 5) : W24 := if r = 0 then 0 else Tab.get 0 k.xs (k.phys r)

/-- The register a short field names (R109). -/
def short (v : BitVec 3) : BitVec 5 := BitVec.ofNat 5 (8 + v.toNat)

/-- Accumulator `ai`. -/
def Core.a (k : Core) (i : BitVec 2) : W56 := Tab.get 0 k.acc i.toNat

/-- Predicate `pi`. -/
def Core.p (k : Core) (i : BitVec 3) : Bool := k.preds.getLsbD i.toNat

/-- Bank register `BKi`. -/
def Core.bank (k : Core) (i : BitVec 2) : Nat := (Tab.get 0 k.bk i.toNat).toNat

/-- The oldest resident frame (R73). -/
def Core.old (k : Core) : Nat := (k.cwp + 18 - k.res) % 15

end Sys2Proof.Machine

namespace Sys2Proof
open Machine

/-! ## Second operands and shift amounts (R109, R113) -/

/-- The second operand, its immediate sign-extended. -/
def Src.signed (b : Src) (k : Core) : W24 := match b with | .reg r => k.x r | .imm v => v.signExtend 24

/-- The second operand, its immediate zero-extended. -/
def Src.unsigned (b : Src) (k : Core) : W24 := match b with | .reg r => k.x r | .imm v => v.zeroExtend 24

/-- The register a second operand reads. -/
def Src.regs (b : Src) : List (BitVec 5) := match b with | .reg r => [r] | .imm _ => []

/-- The reserved operand bits of layouts A3, AI, AC and CI. -/
def Src.mask (b : Src) : Nat := match b with | .reg _ => 0x1F | .imm _ => 0

/-- A shift amount. -/
def Amt.val (s : Amt) (k : Core) : Nat := match s with | .reg r => (k.x r).toNat % 32 | .imm v => v.toNat

/-- The register a shift amount reads. -/
def Amt.regs (s : Amt) : List (BitVec 5) := match s with | .reg r => [r] | .imm _ => []

/-- The reserved operand bits of layouts A3 and AS. -/
def Amt.mask (s : Amt) : Nat := match s with | .reg _ => 0x1F | .imm _ => 0x3E0

end Sys2Proof

namespace Sys2Proof.Machine

/-! ## Addresses -/

/-- Register plus signed displacement, modulo 2^24. -/
def Core.ea {n : Nat} (k : Core) (xa : BitVec 5) (disp : BitVec n) : Nat := (k.x xa + disp.signExtend 24).toNat

/-- The Market address of an LD, ST or TUCMD (R79). -/
def Core.mktAddr (k : Core) (bk : BitVec 2) (xa : BitVec 5) (disp : BitVec 8) : Nat :=
  k.bank bk * 65536 + k.ea xa disp % 65536

/-- The pocket or local data address of an LDP or STP (R80). -/
def pocketAddr (c : Nat) (n : Nat) : Nat := n % storeSize c

/-- The key of a pocket or local data word of core `c` (R190, R268). -/
def pocketKey (d : Dev) (c a : Nat) : Nat := if isPc c then localKey (c - 17) a else pktKey (posOf d c) a

end Sys2Proof.Machine

namespace Sys2Proof
open Machine

/-- The window number of a window operand (R81). -/
def WinRef.num (w : WinRef) (k : Core) : Nat :=
  match w with | .reg xn _ _ => (k.x xn).toNat % 4096 | .imm n _ => n.toNat

/-- The offset of a window operand, a signed 24-bit value (R81). -/
def WinRef.off (w : WinRef) (k : Core) : Int :=
  match w with | .reg _ xo disp => (k.x xo + disp.signExtend 24).toInt | .imm _ xo => (k.x xo).toInt

/-- The registers a window operand reads. -/
def WinRef.regs (w : WinRef) : List (BitVec 5) := match w with | .reg xn xo _ => [xn, xo] | .imm _ xo => [xo]

end Sys2Proof

namespace Sys2Proof.Machine

/-- The 16-bit half of program space an LD with the program space code reads (R78, R80). -/
def progHalf (d : Dev) (c a : Nat) : W24 :=
  let a := a % (2 * storeSize c)
  let w := if isPc c then Tab.get 0 d.prog (progKey (c - 17) (a / 2))
    else Tab.get 0x07900000 d.stage (posOf d c * 16384 + a / 2)
  w24 (if a % 2 = 1 then bits w.toNat 31 16 else bits w.toNat 15 0)

/-! ## Bit operands (R120) -/

/-- A bit operand as it stands: a local bit, or a Board bit. -/
inductive BitAt where
  | localBit (a : Nat)
  | board (a : Nat)
deriving DecidableEq, Repr

end Sys2Proof.Machine

namespace Sys2Proof
open Machine

/-- The space code is unassigned for the layout. -/
def BitRef.bad (b : BitRef) : Bool := match b with | .imm sp _ => sp = 3 | .idx sp _ _ => decide (2 ≤ sp.toNat)

/-- The bit a bit operand names. -/
def BitRef.at (b : BitRef) (k : Core) : BitAt :=
  match b with
  | .imm sp addr => if sp = 0 then .localBit (addr.toNat % 4096) else .board (addr.toNat + (if sp = 1 then 0 else 32768))
  | .idx sp xa disp => if sp = 0 then .localBit (k.ea xa disp % 4096) else .board (k.ea xa disp % 65536)

/-- The register a bit operand reads. -/
def BitRef.regs (b : BitRef) : List (BitVec 5) := match b with | .imm _ _ => [] | .idx _ xa _ => [xa]

end Sys2Proof

namespace Sys2Proof.Machine

/-- The value of a bit (R23, R83). -/
def bitAt (d : Dev) (k : Core) (b : BitAt) : Bool :=
  match b with | .localBit a => Tab.get false k.loc a | .board a => boardBit d a

/-! ## Special registers -/

/-- Special-register number `n` is unassigned on the profile (R124). -/
def spBad (pc : Bool) (n : Nat) : Bool :=
  (decide (13 ≤ n) && decide (n ≤ 15)) || (decide (28 ≤ n) && decide (n ≤ 31)) || decide (44 ≤ n)
    || (!pc && decide (32 ≤ n) && decide (n ≤ 43))

/-- ST as it reads, with LDEPTH (R66). -/
def Core.stWord (k : Core) : W24 := (k.st &&& 0xF8FFFF) ||| (BitVec.ofNat 24 k.loops.length <<< 16)

/-- WST as it reads (R73). -/
def Core.wst (k : Core) : W24 := w24 (k.res % 16 * 256 + k.old * 16 + k.cwp % 16)

/-- The context in service (R66). -/
def Core.ctx (k : Core) : Nat := bits k.st.toNat 13 12

/-- The saved registers of the context in service; zeros in the background (R100). -/
def Core.saved (k : Core) : Saved :=
  match k.ctx with | 1 => k.c0 | 2 => k.c1 | 3 => k.ct | _ => {}

/-- The saved registers of the context in service replaced; no effect in the background (R100). -/
def Core.setSaved (k : Core) (s : Saved) : Core :=
  match k.ctx with | 1 => { k with c0 := s } | 2 => { k with c1 := s } | 3 => { k with ct := s } | _ => k

/-- A part of an accumulator as MFS reads it (R64): 0 low, 1 high, 2 guard. -/
def accRead (a : W56) (part : Nat) : W24 :=
  match part with
  | 0 => a.extractLsb' 0 24
  | 1 => a.extractLsb' 24 24
  | _ => (a.extractLsb' 48 8).signExtend 24

/-- An accumulator with one part written by MTS (R64). -/
def accWrite (a : W56) (part : Nat) (v : W24) : W56 :=
  let n := a.toNat
  match part with
  | 0 => BitVec.ofNat 56 (n / 2 ^ 24 * 2 ^ 24 + v.toNat)
  | 1 => BitVec.ofNat 56 (n / 2 ^ 48 * 2 ^ 48 + v.toNat * 2 ^ 24 + n % 2 ^ 24)
  | _ => BitVec.ofNat 56 (v.toNat % 256 * 2 ^ 48 + n % 2 ^ 48)

/-- The physical register FRi names (R75): register i of the oldest resident frame. -/
def Core.fr (k : Core) (n : Nat) : Nat := 8 + 8 * k.old + (n - 32)

/-- Special register `n` as MFS reads it (R64, R65, R100). -/
def Core.spRead (k : Core) (n : Nat) : W24 :=
  match n with
  | 0 => k.stWord
  | 1 => k.lk
  | 2 => match k.loops with | [] => 0 | l :: _ => l.ls
  | 3 => match k.loops with | [] => 0 | l :: _ => l.le
  | 4 => match k.loops with | [] => 0 | l :: _ => l.lc
  | 5 => k.rpc.zeroExtend 24
  | 6 => k.be.zeroExtend 24
  | 7 | 8 | 9 | 10 => (Tab.get 0 k.bk (n - 7)).zeroExtend 24
  | 11 => k.preds.zeroExtend 24
  | 12 => k.wst
  | 40 => k.saved.ilk
  | 41 => k.saved.ist
  | 42 => k.saved.irpc.zeroExtend 24
  | 43 => k.tcause
  | _ =>
    if 16 ≤ n && n ≤ 27 then accRead (Tab.get 0 k.acc ((n - 16) / 3)) ((n - 16) % 3)
    else if 32 ≤ n && n ≤ 39 then Tab.get 0 k.xs (k.fr n)
    else 0

/-- The bits of ST that MTS writes (R66, R124): the RW and RWS fields, IE0 and IE1 on the control profile alone. -/
def stMask (pc : Bool) : W24 := if pc then 0xFFF else 0x3FF

/-- The RES field a write of WST leaves, and whether an operation is refused (R73). -/
def wstWrite (pc : Bool) (res : Nat) (v : W24) : Nat × Bool :=
  let spill := v.getLsbD 12
  let fill := v.getLsbD 13
  if !pc then (res, spill || fill)
  else
    let (res, bad) := if spill then (if res ≤ 3 then (res, true) else (res - 1, false)) else (res, false)
    if fill then (if 15 ≤ res then (res, true) else (res + 1, bad)) else (res, bad)

/-- MTS of special register `n` is ignored or refused, in whole or in part, and sets UND (R65, R66, R73, R124). An MTS that
R100 ignores, to ilk, IST or IRPC in the background, sets none: R130 names no case for it (DEDUCED, notes/assumptions/7). -/
def spRefused (pc : Bool) (k : Core) (n : Nat) (v : W24) : Bool :=
  match n with
  | 2 | 3 | 4 => k.loops.isEmpty
  | 5 | 43 => true
  | 6 => decide (56 ≤ v.toNat % 64)
  | 12 => (wstWrite pc k.res v).2
  | _ => false

/-- The top level of the loop stack changed. -/
def Core.top (k : Core) (f : Loop → Loop) : Core :=
  match k.loops with | [] => k | l :: t => { k with loops := f l :: t }

/-- Special register `n` written by MTS (R65, R100, R124), the accumulator parts and FR registers included. -/
def Core.spWrite (k : Core) (pc : Bool) (n : Nat) (v : W24) : Core :=
  match n with
  | 0 => { k with st := (k.st &&& ~~~(stMask pc)) ||| (v &&& stMask pc) }
  | 1 => { k with lk := v }
  | 2 => k.top fun l => { l with ls := v }
  | 3 => k.top fun l => { l with le := v }
  | 4 => k.top fun l => { l with lc := v }
  | 6 => { k with be := BitVec.ofNat 6 (satTo 55 (v.toNat % 64)) }
  | 7 | 8 | 9 | 10 => { k with bk := Tab.set 0 k.bk (n - 7) (v.truncate 10) }
  | 11 => { k with preds := v.truncate 8 }
  | 12 => { k with res := (wstWrite pc k.res v).1 }
  | 40 => k.setSaved { k.saved with ilk := v }
  | 41 => k.setSaved { k.saved with ist := v }
  | 42 => k.setSaved { k.saved with irpc := v.truncate 13 }
  | _ =>
    if 16 ≤ n && n ≤ 27 then
      { k with acc := Tab.set 0 k.acc ((n - 16) / 3) (accWrite (Tab.get 0 k.acc ((n - 16) / 3)) ((n - 16) % 3) v) }
    else if 32 ≤ n && n ≤ 39 then { k with xs := Tab.set 0 k.xs (k.fr n) v }
    else k

end Sys2Proof.Machine
end

