-- ==== Sys2Proof/Machine/Flags.lean ====
section
/-!
DEFINITION. Flags and arithmetic of the datapath: the integer flags (R86, R112, R113), conditions (R87), and the
multiply-accumulate sums, rounding and block exponents (R116, R117, R138 to R146).
-/
namespace Sys2Proof.Machine

/-- The four flags, each written or left (`none`). -/
structure Flags where
  z : Option Bool := none
  n : Option Bool := none
  c : Option Bool := none
  v : Option Bool := none
deriving DecidableEq, Repr

/-- Bit `i` of a status word set to `b`, or left. -/
def putBit (st : W24) (i : Nat) : Option Bool → W24
  | none => st
  | some true => st ||| (1#24 <<< i)
  | some false => st &&& ~~~(1#24 <<< i)

/-- The flags written into ST (R66). -/
def Flags.apply (f : Flags) (st : W24) : W24 := putBit (putBit (putBit (putBit st 0 f.z) 1 f.n) 2 f.c) 3 f.v

/-- Z and N of a result. -/
def zn (r : W24) : Flags := { z := some (r = 0), n := some r.msb }

/-- An addition of width `w` with carry in: the result, carry out and signed overflow. -/
def addC (w : Nat) (a b : BitVec w) (cin : Bool) : BitVec w × Bool × Bool :=
  let r := a + b + BitVec.ofNat w (b1 cin)
  (r, decide (2 ^ w ≤ a.toNat + b.toNat + b1 cin), a.msb = b.msb && r.msb ≠ a.msb)

/-- A subtraction with borrow in: the result, 1 when no borrow occurs, and signed overflow. -/
def subB (w : Nat) (a b : BitVec w) (bin : Bool) : BitVec w × Bool × Bool :=
  let r := a - b - BitVec.ofNat w (b1 bin)
  (r, decide (b.toNat + b1 bin ≤ a.toNat), a.msb ≠ b.msb && r.msb ≠ a.msb)

/-- All four flags of a sum or difference. -/
def arithFlags {w : Nat} (x : BitVec w × Bool × Bool) : Flags :=
  { z := some (x.1 = 0), n := some x.1.msb, c := some x.2.1, v := some x.2.2 }

/-- The low byte of a word. -/
def lowByte (v : W24) : BitVec 8 := v.truncate 8

/-- The kinds of shift of R113. -/
inductive ShiftOp where
  | shl | shr | asr | rol
deriving DecidableEq, Repr

/-- A shift: the result, and the carry where it changes (R113). -/
def shift (op : ShiftOp) (a : W24) (s : Nat) : W24 × Option Bool :=
  if s = 0 then (a, none)
  else
    match op with
    | .rol =>
      let r := a.rotateLeft (s % 24)
      (r, some (r.getLsbD 0))
    | .shl => if s ≤ 24 then (a <<< s, some (a.getLsbD (24 - s))) else (0, some false)
    | .shr => if s ≤ 24 then (a >>> s, some (a.getLsbD (s - 1))) else (0, some false)
    | .asr => if s ≤ 24 then (a.sshiftRight s, some (a.getLsbD (s - 1))) else (a.sshiftRight 24, some a.msb)

/-! ## Conditions (R87) -/

/-- The condition holds over the flags and predicates; condition 15 never does. -/
def condHolds (c : Nat) (st : W24) (preds : BitVec 8) : Bool :=
  let z := st.getLsbD 0
  let n := st.getLsbD 1
  let cy := st.getLsbD 2
  let v := st.getLsbD 3
  match c with
  | 0 => true
  | 1 => z
  | 2 => !z
  | 3 => n != v
  | 4 => n == v
  | 5 => z || n != v
  | 6 => !z && n == v
  | 7 => cy
  | 8 => !cy
  | 9 => n
  | 10 => !n
  | 11 => preds.getLsbD 0
  | 12 => !preds.getLsbD 0
  | 13 => preds.getLsbD 1
  | 14 => !preds.getLsbD 1
  | _ => false

/-- The long condition a duet condition stands for (R87). -/
def duetCond (c : Nat) : Nat := match c with | 5 => 11 | 6 => 12 | 7 => 15 | n => n

/-! ## Products and sums -/

/-- The product of two operands, fractional or integer (R138). -/
def product (x y : W24) (int : Bool) : Int := if int then x.toInt * y.toInt else 2 * (x.toInt * y.toInt)

/-- An exact value written under ACCMODE (R140): the accumulator, and whether it left the 56-bit range. -/
def accFit (wrap : Bool) (s : Int) : W56 × Bool :=
  if s > 2 ^ 55 - 1 then (if wrap then BitVec.ofInt 56 s else 0x7FFFFFFFFFFFFF, true)
  else if s < -(2 ^ 55) then (if wrap then BitVec.ofInt 56 s else 0x80000000000000, true)
  else (BitVec.ofInt 56 s, false)

/-- AG: bits 55 to 47 of a written value are not all equal (R141). -/
def guardUsed (a : W56) : Bool := (a.extractLsb' 47 9) ≠ 0 && (a.extractLsb' 47 9) ≠ 0x1FF

/-- The rounding modes of R116. -/
inductive Rnd where
  | conv | trunc | halfup
deriving DecidableEq, Repr

/-- The increment that rounds at bit 24 (R116). -/
def rndAdd (r : Rnd) (a : W56) : Int :=
  match r with
  | .conv => if a.extractLsb' 0 24 = 0x800000 && !a.getLsbD 24 then 0 else 0x800000
  | .halfup => 0x800000
  | .trunc => 0

/-- MACR's rounding of the sum it has written (R142): the accumulator, and whether it left the range. -/
def accRound (wrap : Bool) (a : W56) : W56 × Bool :=
  let t := (a.toInt + rndAdd .conv a) / 2 ^ 24 * 2 ^ 24
  if t > 2 ^ 55 - 1 then (if wrap then 0x80000000000000 else 0x7FFFFFFF000000, true) else (BitVec.ofInt 56 t, false)

/-- MOVA: the word, and V (R116). -/
def accStore (r : Rnd) (nosat : Bool) (a : W56) : W24 × Bool :=
  let t := (a.toInt + rndAdd r a) / 2 ^ 24
  if !nosat && t > 0x7FFFFF then (0x7FFFFF, true)
  else if !nosat && t < -0x800000 then (0x800000, true)
  else (w24i t, false)

/-- Equal bits counted down from bit `n - 1`, of `n` bits, that equal `s`. -/
def runDown (a : W56) (s : Bool) : Nat → Nat
  | 0 => 0
  | n + 1 => if a.getLsbD n = s then runDown a s n + 1 else 0

/-- e(a): the redundant sign bits below bit 55 (R117). -/
def signRun (a : W56) : Nat := runDown a a.msb 55

/-- NORM: the accumulator and n (R117). -/
def normalise (a : W56) : W56 × Int :=
  let n : Int := (signRun a : Int) - 8
  (if 0 ≤ n then a <<< n.toNat else a.sshiftRight (-n).toNat, n)

/-- SCLA: the accumulator, and AV (R146). -/
def scale (wrap right : Bool) (a : W56) (be : Nat) : W56 × Bool :=
  if right then (a.sshiftRight be, false)
  else if be ≤ signRun a || a = 0 then (a <<< be, false)
  else (if wrap then a <<< be else if a.msb then 0x80000000000000 else 0x7FFFFFFFFFFFFF, true)

end Sys2Proof.Machine
end

