-- ==== Sys2Proof/Machine/Governor.lean ====
section
/-!
DEFINITION. The slack governor of PWR (R49 to R55): its request `vreq`, the windows, and the AVSBus writes.
-/
namespace Sys2Proof.Machine

/-- A voltage as the governor takes it: 680 to 850 mV (R53). -/
def volt (n : Nat) : Nat := if n < 680 then 680 else satTo 850 n

/-- A step as the governor takes it: 1 to 50 mV (R53). -/
def govStep (n : Nat) : Nat := if n = 0 then 1 else satTo 50 n

/-- GUARD in units of 10 ns; 0 is taken as 1 (R53). -/
def govGuard (d : Dev) : Nat := if fld d F.PWR_GOV_CTRL_GUARD 0 = 0 then 1 else fld d F.PWR_GOV_CTRL_GUARD 0

/-- The highest request. -/
def govMax (d : Dev) : Nat := volt (fld d F.PWR_GOV_LIMITS_VMAX 0)

/-- The lowest request. -/
def govMin (d : Dev) : Nat := volt (fld d F.PWR_GOV_LIMITS_VMIN 0)

/-- The request becomes `v`; a change is written over AVSBus (R54), unless the governor is frozen (R55). -/
def govSet (d : Dev) (v : Nat) : Dev :=
  if d.gov.frozen || v = d.gov.vreq then d
  else
    let g := { d.gov with vreq := v }
    { d with gov := if g.busy then g else { g with busy := true, sent := v, tries := 0 } }

/-- The run of R52: at VMAX and still short of slack; AVS_LIMIT is posted once for each run. -/
def govAtMax (d : Dev) : Dev :=
  let d := setf d F.PWR_GOV_STAT_ATMAX 0 1
  if d.gov.maxRun then d else post { d with gov := { d.gov with maxRun := true } } 0x65 0 1 0

/-- The request of R49 for a window short of slack: STEP_UP more, VMAX at most. -/
def govHigher (d : Dev) : Nat := satTo (govMax d) (d.gov.vreq + govStep (fld d F.PWR_GOV_STEP_STEP_UP 0))

/-- The request rises by STEP_UP, to VMAX at most: once in each settle interval (R50). A raise made outside one stands for
the interval that its own acknowledgement starts (DEDUCED, notes/assumptions/47). -/
def govUp (d : Dev) : Dev :=
  if d.gov.raised || d.gov.frozen || govHigher d ≤ d.gov.vreq then d
  else
    let d := govSet d (govHigher d)
    { d with gov := { d.gov with raised := true } }

/-- The immediate raise of R50. -/
def govRaise (d : Dev) : Dev := if !flag d F.PWR_GOV_CTRL_EN 0 || !d.gov.started then d else govUp d

/-- A slack of `ns` is measured (R48, R49, R50). -/
def govSlack (d : Dev) (ns : Nat) : Dev :=
  let m := match d.gov.minSlack with | some m => if ns < m then ns else m | none => ns
  let d := { d with gov := { d.gov with minSlack := some m } }
  if ns < govGuard d * 5 then govRaise d else d

/-- An engine overruns with cause CUTOFF (R49, R50, R52); its slack is recorded as 0 (R48). -/
def govOverrun (d : Dev) : Dev :=
  let d := { d with gov := { d.gov with ovr := true, minSlack := some 0 } }
  let d := if d.gov.vreq = govMax d then govAtMax d else d
  govRaise d

/-- While the governor does not run, or before a stage first runs, the request is VSTART (R51), also while it is frozen,
where the write that is tried again becomes that of VSTART (R55). -/
def govStart (d : Dev) : Dev :=
  if flag d F.PWR_GOV_CTRL_EN 0 && d.gov.started then d
  else
    let v := volt (fld d F.PWR_GOV_START_VSTART 0)
    if d.gov.frozen then { d with gov := { d.gov with vreq := v, sent := if d.gov.busy then d.gov.sent else v } }
    else govSet d v

/-- A window ends with the least slack `m` in ns: MINSLACK, and the run of R52 goes on or ends (R52, R53). -/
def govMeasured (d : Dev) (m : Nat) : Dev :=
  let d := setf d F.PWR_GOV_STAT_MINSLACK 0 (satTo 511 (m / 10))
  if (d.gov.ovr || m < govGuard d * 10) && d.gov.vreq = govMax d then govAtMax d
  else { setf d F.PWR_GOV_STAT_ATMAX 0 0 with gov := { d.gov with maxRun := false } }

/-- The update at a window's end (R49), `m` being the least slack of the window in ns. A request that stands above VMAX
comes down to it, but not within a settle interval, and a step down that the settle interval refuses sets `above` to 0
as any other (R50; DEDUCED, notes/assumptions/47). -/
def govUpdate (d : Dev) (m : Nat) : Dev :=
  let guard := govGuard d * 10
  let hyst := fld d F.PWR_GOV_STEP_HYST 0 * 10
  if d.gov.ovr || m < guard then
    let d := { d with gov := { d.gov with above := 0 } }
    if govHigher d < d.gov.vreq && d.gov.settle = 0 then govSet d (govHigher d) else govUp d
  else if m > guard + hyst then
    let above := d.gov.above + 1
    let hold := fld d F.PWR_GOV_CTRL_HOLDWIN 0
    let d := { d with gov := { d.gov with above := above } }
    if hold ≠ 0 && above ≥ hold then
      let d := { d with gov := { d.gov with above := 0 } }
      let low := d.gov.vreq - govStep (fld d F.PWR_GOV_STEP_STEP_DN 0)
      if d.gov.settle > 0 then d else govSet d (if low < govMin d then govMin d else low)
    else d
  else { d with gov := { d.gov with above := 0 } }

/-- No engine is running (R51): no ticks, HUSH, or no stage loaded. -/
def govIdle (d : Dev) : Bool :=
  !d.ticking || d.house.engStop || (List.range 16).all fun p => !flag d F.SE_ENG_CTRL_STATUS p

/-- A governor window ends (R49 to R52). With EN = 0, and while no engine is running, the request stays (R51). -/
def govWindowEnd (d : Dev) : Dev :=
  let d := match d.gov.minSlack with
    | none => d
    | some m =>
      let d := govMeasured d m
      if flag d F.PWR_GOV_CTRL_EN 0 && !govIdle d then govUpdate d m else d
  { d with gov := { d.gov with minSlack := none, ovr := false } }

/-- 200 µs in LP0 periods of 0.8 ns: the settle interval of R50. -/
def settleCounts : Nat := 250000

/-- The fourth attempt of a transaction has failed (R55): the request is frozen at the last acknowledged one, and a write
that was pending stays to be tried again. With none pending it is a write of the acknowledged value (DEDUCED,
notes/assumptions/47). -/
def avsFail (d : Dev) : Dev :=
  let d := setf d F.PWR_GOV_STAT_BUSERR 0 1
  let d := post d 0x65 0 2 0
  let g := { d.gov with tries := 0, readTries := 0 }
  if g.frozen then { d with gov := g }
  else
    let ack := fld d F.PWR_GOV_STAT_VREQ 0
    govStart { d with gov := { g with busy := false, frozen := true, vreq := ack, sent := if g.busy then g.sent else ack } }

/-- A Voltage read or a Status read ends (R54, R55); no rule uses what it answers. -/
def avsReadEnd (d : Dev) (ok : Bool) : Dev :=
  if ok then { d with gov := { d.gov with readTries := 0 } }
  else if d.gov.readTries < 3 then { d with gov := { d.gov with readTries := d.gov.readTries + 1 } }
  else avsFail d

/-- A Voltage write ends (R50, R54, R55). An attempt made while the governor is frozen is one attempt, with no retries
and no post of its own, and one that is acknowledged ends the freeze at the value it wrote, or at VSTART where R51 asks
for it (DEDUCED, notes/assumptions/47). -/
def avsEnd (d : Dev) (ok : Bool) : Dev :=
  let g := d.gov
  if !g.busy then d
  else if ok then
    let d := setf d F.PWR_GOV_STAT_VREQ 0 g.sent
    let g := { g with busy := false, tries := 0, settle := settleCounts }
    if g.frozen then govStart { d with gov := { g with frozen := false, vreq := g.sent } }
    else if g.vreq ≠ g.sent then { d with gov := { g with busy := true, sent := g.vreq } }
    else { d with gov := g }
  else if g.frozen then { d with gov := { g with busy := false } }
  else if g.tries < 3 then { d with gov := { g with tries := g.tries + 1 } }
  else avsFail d

/-- The frozen governor tries the pending write again (R55). -/
def avsRetry (d : Dev) : Dev :=
  if d.gov.frozen && !d.gov.busy then { d with gov := { d.gov with busy := true } } else d

/-- `n` LP0 periods pass for the settle interval (R50). Its end lets a raise through again, also where the raise that stood
for it was made before it began (DEDUCED, notes/assumptions/47). -/
def govTime (d : Dev) (n : Nat) : Dev :=
  if d.gov.settle = 0 then d
  else if d.gov.settle ≤ n then { d with gov := { d.gov with settle := 0, raised := false } }
  else { d with gov := { d.gov with settle := d.gov.settle - n } }

/-- A write of GOV_LIMITS: refused with CFGERR if it would make VMIN greater than VMAX (R53). -/
def writeGovLimits (w : BitVec 6) (v : W24) (d : Dev) : Dev :=
  if volt (F.PWR_GOV_LIMITS_VMIN.of v) > volt (F.PWR_GOV_LIMITS_VMAX.of v) then setf d F.PWR_GOV_STAT_CFGERR 0 1
  else regWrite d w.toNat A.PWR_GOV_LIMITS v

/-- A write of GOV_CTRL or GOV_START, which can move the request at once (R51, R53). -/
def writeGov (w : BitVec 6) (a : Nat) (v : W24) (d : Dev) : Dev := govStart (regWrite d w.toNat a v)

/-- GOV_WINDOW_END (R49). -/
def execGovWindowEnd (s : State) : Host.Outcome State Fault Refusal := .next (s.act govWindowEnd)

/-- AVS_TRANSACTION_END (R54, R55). -/
def execAvsTransactionEnd (ok : AvsEnd) (s : State) : Host.Outcome State Fault Refusal :=
  .next (s.act fun d => if ok.write then avsEnd d ok.ok else avsReadEnd d ok.ok)

/-- AVS_RETRY (R55). -/
def execAvsRetry (s : State) : Host.Outcome State Fault Refusal := .next (s.act avsRetry)

/-- GOV_LIMITS_WRITE (R53). -/
def execGovLimitsWrite (w : BitVec 6) (v : W24) (s : State) : Host.Outcome State Fault Refusal :=
  .next (s.write w A.PWR_GOV_LIMITS v (writeGovLimits w v))

end Sys2Proof.Machine
end

