-- ==== Sys2Proof/Machine/Engines.lean ====
section
/-!
DEFINITION. What an engine run starts from and how it ends (R69, R40, R41, R46, R48), its sticky faults (R68, R272),
and what SU does at a mismatch (R262, R266).
-/
namespace Sys2Proof.Machine

/-- A core at the start of an engine run (R67, R69). -/
def Core.start (acc trap : Bool) : Core :=
  { run := .on, st := if acc then 0x200 else 0, udtrap := trap }

/-- SU's test starts (R263): position 16's program, ST.ACCMODE 0. `why` is what the test decides (R265, R472). -/
def startKat (d : Dev) (why : Nat) : Dev :=
  let d := setf d F.SU_STAT_MODE 0 2
  setCore { d with su := { d.su with katNow := why, kat := 0 } } 16 (Core.start false false)

/-! ## Faults of a word -/

/-- The sticky bit of position `p` (R68, R272); whether it was clear. -/
def setSticky (d : Dev) (p : Nat) (f : Fld) : Bool × Dev := (!flag d f p, setf d f p 1)

/-- A word sets UND (R68, R130, R135, R272). -/
def setUnd (d : Dev) (c pc cause : Nat) : Dev :=
  let d := updCore d c fun k => { k with st := k.st ||| 0x40, und := true }
  if isPc c || inKat d c then d
  else
    let p := posOf d c
    let (new, d) := setSticky d p F.SE_STICKY_UND
    let d := if new then post d 0x03 p pc cause else d
    setf (setf (setf d F.SE_UND_PC_VALID p 1) F.SE_UND_PC_CAUSE p cause) F.SE_UND_PC_PC p pc

/-- A word sets LOV (R68, R94, R272). -/
def setLov (d : Dev) (c pc : Nat) : Dev :=
  let d := updCore d c fun k => { k with st := k.st ||| 0x80 }
  if isPc c || inKat d c then d
  else
    let p := posOf d c
    let (new, d) := setSticky d p F.SE_STICKY_LOV
    if new then post d 0x12 p pc 0 else d

/-- A word sets AV or WOV (R68). -/
def setQuiet (d : Dev) (c bit : Nat) (f : Fld) : Dev :=
  let d := updCore d c fun k => { k with st := k.st ||| (1#24 <<< bit) }
  if isPc c || inKat d c then d else setf d f (posOf d c) 1

/-- AG and AV of a sum (R141). -/
def setSums (d : Dev) (c : Nat) (ag av : Bool) : Dev :=
  let d := if ag then updCore d c fun k => { k with st := k.st ||| 0x20 } else d
  if av then setQuiet d c 4 F.SE_STICKY_AV else d

/-! ## The end of a run -/

/-- The overrun record of position `p`. -/
def ovrOf (d : Dev) (p : Nat) : Overrun := Tab.get {} d.ovr p

/-- The overrun record of position `p` replaced. -/
def setOvr (d : Dev) (p : Nat) (o : Overrun) : Dev := { d with ovr := Tab.set {} d.ovr p o }

/-- The Collector tail runs from the last END, or from the cut-off point (R31). -/
def tailFrom (d : Dev) (ns : Nat) : Dev :=
  if ns > d.col.tailNs then { d with col := { d.col with tailNs := ns } } else d

/-- The program ends for the tick (R93): loads in flight are discarded; the slack is measured (R48). -/
def engineEnd (d : Dev) (c ns : Nat) : Dev :=
  let d := updCore d c fun k => { k with run := .ended, loads := [], hold := .free, rpc := 0 }
  if inKat d c then d
  else
    let p := posOf d c
    let slack := fld d F.TICK_CUTOFF_EFF_EFF 0 - ns
    let d := setf (setf d F.SE_SLACK_LAST p slack) F.SE_SLACK_OVR p 0
    tailFrom (govSlack (tally d 4 p slack) slack) ns

/-- Position `p` overruns at stage word `pc` (R41, R46, R48): `cause` 1 CUTOFF, 2 WOV. SU, paired with it, stops with
it and then runs its test (R47, R267). -/
def overrun (d : Dev) (p cause pc : Nat) : Dev :=
  let o := ovrOf d p
  let d := setOvr d p { o with now := cause }
  let d := setf (inc d F.SE_OVR_STAT_COUNT p) F.SE_OVR_STAT_LAST_CAUSE p cause
  let d := tally (setf (setf d F.SE_SLACK_LAST p 0) F.SE_SLACK_OVR p 1) 4 p 0
  let d := if o.prev = cause then d else post d (if cause = 1 then 0x10 else 0x11) p pc 0
  let d := if cause = 1 then govOverrun d else d
  if fld d F.SU_STAT_MODE 0 = 1 && fld d F.SU_STAT_PARTNER 0 = p && !d.su.met then startKat d 2 else d

/-- A CALL that would overflow the register window ends the program for the tick (R41, R74). -/
def windowOverrun (d : Dev) (c pc ns : Nat) : Dev :=
  let d := setQuiet d c 8 F.SE_STICKY_WOV
  let d := updCore d c fun k => { k with run := .wov, loads := [], rpc := 0 }
  if inKat d c then d else tailFrom (overrun d (posOf d c) 2 pc) ns

/-! ## Mismatches (R262, R266) -/

/-- A mismatch is recorded (R262 steps 1 and 2): `again` in a retest. -/
def recordMismatch (d : Dev) (n kind pc : Nat) (again : Bool) : Dev :=
  let d := post d 0x14 n (kind * 0x4000 + pc) (b1 again)
  let d := inc d F.SE_STICKY_MISMATCH n
  let d := setf (setf d F.SU_MMLOG_VALID 0 1) F.SU_MMLOG_ENG 0 n
  let d := setf (setf d F.SU_MMLOG_KIND 0 kind) F.SU_MMLOG_WORD 0 pc
  { d with su := { d.su with met := true } }

/-- A mismatch of a retest confirms engine `n` (R266, R270). -/
def confirm (d : Dev) (n pc : Nat) : Dev :=
  let first := match d.su.first with | some (_, w) => w | none => pc
  let d := { d with su := { d.su with confirmed := some n, first := none } }
  if flag d F.SE_STICKY_SUSPECT n then d else post (setf d F.SE_STICKY_SUSPECT n 1) 0x13 n first pc

/-- SU finds a difference of `kind` at word `pc` of engine `n` (R261, R262, R266). -/
def mismatch (d : Dev) (n kind pc : Nat) : Dev :=
  let mode := fld d F.SU_STAT_MODE 0
  if kind = 0 || d.su.met || fld d F.SU_STAT_PARTNER 0 ≠ n then d
  else if mode = 1 then
    let d := recordMismatch d n kind pc false
    startKat { d with su := { d.su with first := some (n, pc) } } 1
  else if mode = 3 then confirm (recordMismatch d n kind pc true) n pc
  else d

end Sys2Proof.Machine
end

