-- ==== Sys2Proof/Machine/Transform.lean ====
section
/-!
DEFINITION. The transform units (R147 to R164): descriptors, queueing, the transform itself, completion, enable.
-/
namespace Sys2Proof.Machine

/-- Transform unit `u`. -/
def tu (d : Dev) (u : Nat) : Tu := Tab.get {} d.tus u

/-- Unit `u` replaced; TUn.STAT shows its queue (R164). -/
def setTu (d : Dev) (u : Nat) (t : Tu) : Dev :=
  let d := { d with tus := Tab.set {} d.tus u t }
  setf (setf d F.TU_STAT_QLEN u (t.queue.length + b1 t.running.isSome)) F.TU_STAT_BUSY u (b1 t.running.isSome)

/-- Descriptors a unit holds, the running one included (R151). -/
def tuLen (d : Dev) (u : Nat) : Nat := (tu d u).queue.length + b1 (tu d u).running.isSome

/-- Unit `u` accepts a descriptor (R153). -/
def tuRoom (d : Dev) (u : Nat) : Bool := tuLen d u < 16 && fld d F.TU_CTRL_STATUS u == 1

/-- A unit that drains is OFF once it holds no descriptor (R163). -/
def tuSettle (d : Dev) (u : Nat) : Dev :=
  if fld d F.TU_CTRL_STATUS u = 2 && tuLen d u = 0 then setf d F.TU_CTRL_STATUS u 0 else d

/-- The unit's completion write to the Board (R161), in its own posting queue. -/
def tuBoard (d : Dev) (u : Nat) (bit : Option Nat) : Dev :=
  match bit with
  | some b => boardIssue d (16 + u) { op := 1, base := b, mask := 1 }
  | none => d

/-- The completion bit a descriptor's word 5 asks for (R147). -/
def doneBit (w5 : W24) : Option Nat := if w5.getLsbD 23 then some (bits w5.toNat 15 0) else none

/-- Word 6 is written: the result and the output exponent (R147). -/
def tuResult (d : Dev) (u a res ex : Nat) : Dev := mktWrite d (23 + u) (a + 6) (w24 (res * 2 ^ 21 + ex % 256))

/-- A Board write of unit `u` is held: the unit waits with it, and its later work waits behind (R22, R161). -/
def tuHeld (d : Dev) (u : Nat) : Bool := !(Tab.get [] d.bheld (16 + u)).isEmpty

/-- A refusal of the descriptor at `a` takes effect (R153); `first` in its run. -/
def tuRefused (d : Dev) (u a : Nat) (first : Bool) : Dev :=
  let d := tuResult d u a 3 0
  let (w5, _, d) := mktRead d (23 + u) (a + 5)
  let d := inc (tuBoard d u (doneBit w5)) F.TU_CNT_REFUSED u
  if first then post d 0x37 u a (a / 2 ^ 24) else d

/-- A refusal takes effect, or waits behind the unit's held Board write, which R22 puts before it; the 25 ns of R162 then
run from the end of the hold (DEDUCED, notes/assumptions/56). -/
def tuRefusal (d : Dev) (u : Nat) (e : Nat × Bool) : Dev :=
  if tuHeld d u then setTu d u { tu d u with waiting := (tu d u).waiting ++ [e] } else tuRefused d u e.1 e.2

/-- Unit `u` refuses the descriptor at `a` (R153). -/
def tuRefuse (d : Dev) (u a : Nat) : Dev :=
  let t := tu d u
  tuRefusal (setTu d u { t with refusing := true }) u (a, !t.refusing)

/-- The held Board write of unit `u` has entered its queue: what waited behind it goes on in its order (R22). -/
def tuResume (d : Dev) (u : Nat) : Dev :=
  let t := tu d u
  if t.waiting.isEmpty || tuHeld d u then d
  else t.waiting.foldl (fun d e => tuRefusal d u e) (setTu d u { t with waiting := [] })

/-- Unit `u` accepts the descriptor at `a` (R151). -/
def tuAccept (d : Dev) (u a : Nat) (fresh : Bool) : Dev :=
  let t := tu d u
  setTu d u { t with queue := t.queue ++ [{ addr := a, fresh := fresh }], refusing := false }

/-- A submission of the descriptor at `a` to `unit`, 2 being ANY (R123, R151 to R153); `fresh` for a TUCMD. -/
def tuSubmit (d : Dev) (unit a : Nat) (fresh : Bool) : Dev :=
  let a := a % mktSize / 8 * 8
  if unit < 2 then (if tuRoom d unit then tuAccept d unit a fresh else tuRefuse d unit a)
  else
    let u := if tuLen d 1 < tuLen d 0 then 1 else 0
    if tuRoom d u then tuAccept d u a fresh
    else if tuRoom d (1 - u) then tuAccept d (1 - u) a fresh
    else tuRefuse d 0 a

/-! ## The transform (R155 to R160) -/

/-- A complex integer. -/
abbrev Cpx := Int × Int

/-- The radices of the stages from the last to the first (R155). -/
def radices (logn : Nat) : List Nat := List.replicate (logn / 2) 4 ++ (if logn % 2 = 1 then [2] else [])

/-- The elements of a list whose index is `m` modulo `r`. -/
def everyNth {α : Type} (r : Nat) : Nat → List α → List α
  | _, [] => []
  | 0, x :: t => x :: everyNth r (r - 1) t
  | k + 1, _ :: t => everyNth r k t

/-- Digit-reversed order (R156), by the radices from the last stage to the first. -/
def reorder {α : Type} : List Nat → List α → List α
  | [], l => l
  | r :: rs, l => (List.range r).flatMap fun m => reorder rs (everyNth r m l)

/-- One component of a twiddle (R158). -/
def twPart (x : Int) : Int :=
  let v := Real.rndAway (8388608 * x) Real.one
  if v > 8388607 then 8388607 else if v < -8388608 then -8388608 else v

/-- The twiddle tw(M, k) (R158). -/
def twiddle (inverse : Bool) (m k : Nat) : Cpx :=
  if k = 0 then (8388608, 0)
  else (twPart (Real.cosTurn k m), twPart (if inverse then Real.sinTurn k m else -(Real.sinTurn k m)))

/-- A product of complex integers. -/
def cmul (a b : Cpx) : Cpx := (a.1 * b.1 - a.2 * b.2, a.1 * b.2 + a.2 * b.1)

/-- A sum of complex integers. -/
def cadd (a b : Cpx) : Cpx := (a.1 + b.1, a.2 + b.2)

/-- A difference of complex integers. -/
def csub (a b : Cpx) : Cpx := (a.1 - b.1, a.2 - b.2)

/-- The product with the imaginary unit, or with its negative for an inverse transform (R157). -/
def cturn (inverse : Bool) (a : Cpx) : Cpx := if inverse then (a.2, -a.1) else (-a.2, a.1)

/-- The butterfly of R157 over the twiddled inputs. -/
def butterfly (inverse : Bool) : List Cpx → List Cpx
  | [t0, t1] => [cadd t0 t1, csub t0 t1]
  | [t0, t1, t2, t3] =>
    let j1 := cturn inverse t1
    let j3 := cturn inverse t3
    [cadd (cadd t0 t1) (cadd t2 t3), cadd (csub (csub t0 j1) t2) j3,
     csub (cadd (csub t0 t1) t2) t3, csub (csub (cadd t0 j1) t2) j3]
  | l => l

/-- The redundant bits of a component below its sign (R159). -/
def headroom (c : Int) : Nat :=
  let n := if c < 0 then (-c - 1).toNat else c.toNat
  23 - (if n = 0 then 0 else n.log2 + 1)

/-- The least headroom of a buffer (R159). -/
def minHeadroom (l : List Cpx) : Nat :=
  l.foldl (fun h c =>
    let a := headroom c.1
    let b := headroom c.2
    let m := if a < b then a else b
    if m < h then m else h) 23

/-- The column of index `q` over the pieces of a group. -/
def column (q : Nat) (ps : List (List Cpx)) : List Cpx := ps.map fun p => p.getD q (0, 0)

/-- One group of a stage (R157): `r` pieces of `len` points. -/
def stageGroup (inverse : Bool) (r len sc : Nat) (g : List Cpx) : List Cpx :=
  let ps := pieces len r g
  let ys := (List.range len).map fun q =>
    butterfly inverse
      ((column q ps).zipIdx.map fun (a, m) => cmul a (twiddle inverse (r * len) (m * q)))
  let rnd (c : Cpx) : Cpx := (Real.rndEven c.1 (2 ^ sc), Real.rndEven c.2 (2 ^ sc))
  (List.range r).flatMap fun m => ys.map fun y => rnd (y.getD m (0, 0))

/-- The stages in turn (R157 to R160): the radices from the first, the length so far, the buffer, the exponent. -/
def stages (inverse : Bool) (n : Nat) : List Nat → Nat → List Cpx → Nat → List Cpx × Nat
  | [], _, l, ex => (l, ex)
  | r :: rs, len, l, ex =>
    let s := 2 - minHeadroom l
    let f := if r = 4 then 1 else 0
    let out := (pieces (r * len) (n / (r * len)) l).flatMap (stageGroup inverse r len (23 + s + f))
    stages inverse n rs (r * len) out (ex + s + f)

/-- The transform of `2^logn` points and its exponent (R155 to R160). -/
def transform (inverse : Bool) (logn ex : Nat) (l : List Cpx) : List Cpx × Nat :=
  stages inverse (2 ^ logn) (radices logn).reverse 1 (reorder (radices logn) l) ex

/-- Words taken in pairs, real part first (R148). -/
def toPoints : List W24 → List Cpx
  | re :: im :: t => (re.toInt, im.toInt) :: toPoints t
  | _ => []

/-! ## Events -/

/-- The words engines have written in the tick in progress. -/
def dirtyNow (d : Dev) : List Nat := d.wrote.map (·.1)

/-- A descriptor ends as BADDESC (R149). -/
def tuBad (d : Dev) (u a : Nat) (w5 : W24) : Dev :=
  let d := tuBoard (tuResult d u a 4 0) u (doneBit w5)
  tuSettle (post (inc d F.TU_STAT_BADDESC u) 0x36 u a (a / 2 ^ 24)) u

/-- The unit starts its oldest descriptor (R147 to R149): words 0 to 5 are read, a poisoned one as zero. Only word 0 turns
a descriptor so read into a BADDESC; with zero in another word the transform runs (notes/assumptions/54). -/
def tuStart (d : Dev) (u : Nat) : Dev :=
  let t := tu d u
  match t.running, t.queue with
  | none, q :: rest =>
    if tuHeld d u then d else
    let d := setTu d u { t with queue := rest }
    let (ws, _, d) := mktReadN d (23 + u) q.addr 6
    let w (i : Nat) : W24 := ws.getD i 0
    let logn := bits (w 0).toNat 15 12
    let op := bits (w 0).toNat 9 8
    let src := bits (w 1).toNat 9 0 * 65536 + bits (w 2).toNat 15 0
    let dst := bits (w 3).toNat 9 0 * 65536 + bits (w 4).toNat 15 0
    let len := 2 ^ (logn + 1)
    if logn < 6 || logn > 13 || op ≥ 2 || src + len > mktSize || dst + len > mktSize then tuBad d u q.addr (w 5)
    else
      setTu d u { tu d u with
        running := some { addr := q.addr, logn := logn, inverse := op = 1, expIn := bits (w 0).toNat 7 0, src := src
                          dst := dst, done := doneBit (w 5), fresh := q.fresh, dirty := q.dirty } }
  | _, _ => d

/-- What has stood in source word `a` of unit `u`'s transform since it started, oldest first (R154). -/
def sourceVersions (d : Dev) (u a : Nat) : List (W24 × BitVec 31) :=
  (d.past.filter fun e => e.1 = u && e.2.1 = a).map (fun e => e.2.2) ++ [(Tab.get 0 d.mkt a, Tab.get 0 d.ecc a)]

/-- The check of a read that met word `a` before it was overwritten, when its flips were `e` (R171, R173). -/
def pastCheck (d : Dev) (m a : Nat) (e : BitVec 31) : Bool × Dev :=
  let k := servingStall d (a % 128)
  if poisoned e || 2 ≤ ones e then (true, rdErr (ueLog d k m a false) m)
  else if ones e = 1 then (false, postSec (inc d F.MKTS_CE_COUNT k) 0x20 k a 0)
  else (false, d)

/-- What the unit reads of a source word, once and at an open moment of its run: what stood there then, and whether it was
poisoned, which gives zero (R150, R154). The value is open where engines wrote the word in the tick of the TUCMD
(R154; notes/assumptions/2). -/
def sourceWord (d : Dev) (u : Nat) (dirty : List Nat) (a : Nat) : W24 × Bool × Dev :=
  let vs := sourceVersions d u a
  let d := mktWait d (23 + u)
  let (x, d) := if vs.length = 1 then (0, d) else freshWord d
  let i := x.toNat % vs.length
  let (v, e) := vs.getD i (0, 0)
  let (bad, d) := if i + 1 = vs.length then mktCheck d (23 + u) a 0 false else pastCheck d (23 + u) a e
  let (v, d) := if dirty.contains a then freshWord d else (if bad then 0 else v, d)
  (v, bad, d)

/-- What the unit reads of `n` source words from `a` on, and whether one was poisoned. -/
def sourceRead (d : Dev) (u : Nat) (dirty : List Nat) (a n : Nat) : List W24 × Bool × Dev :=
  (List.range n).foldl
    (fun (l, bad, d) i => let (v, b, d) := sourceWord d u dirty (a + i); (l ++ [v], bad || b, d)) ([], false, d)

/-- The running descriptor ends (R161): the destination, word 6, and then the Board. It has ended, and BUSY, QLEN, DONE and a
drain show so, also where the Board write that closes it is held: what waits is the unit's next work (DEDUCED,
notes/assumptions/56). -/
def tuEnd (d : Dev) (u : Nat) : Dev :=
  match (tu d u).running with
  | none => d
  | some r =>
    if tuHeld d u then d else
    let dirty := if r.fresh then dirtyNow d else r.dirty
    let (data, poison, d) := sourceRead d u dirty r.src (2 ^ (r.logn + 1))
    let (out, ex) := transform r.inverse r.logn r.expIn (toPoints data)
    let d := mktWriteN d (23 + u) r.dst (out.flatMap fun c => [w24i c.1, w24i c.2])
    let d := tuBoard (tuResult d u r.addr (if poison then 2 else 1) ex) u r.done
    let d := setf d F.TU_CNT_DONE u (fld d F.TU_CNT_DONE u + 1)
    let d := { d with past := d.past.filter fun e => e.1 ≠ u }
    tuSettle (setTu d u { tu d u with running := none }) u

/-- The tick edge: descriptors of the tick that ends keep the words engines wrote in it (R154). -/
def tuEdge (d : Dev) : Dev :=
  let dirty := dirtyNow d
  let age (t : Tu) : Tu :=
    { t with queue := t.queue.map fun q => if q.fresh then { q with fresh := false, dirty := dirty } else q
             running := t.running.map fun r => if r.fresh then { r with fresh := false, dirty := dirty } else r }
  { d with tus := forAll [0, 1] (fun t u => Tab.upd {} t u age) d.tus }

/-- A write of TUn.QPUSH (R151, R164). -/
def writeTuQpush (w : BitVec 6) (u : Nat) (v : W24) (d : Dev) : Dev :=
  tuSubmit (regWrite d w.toNat (F.TU_QPUSH_DESC.addr u) v) u (F.TU_QPUSH_DESC.of v * 8) false

/-- A write of TUn.CTRL (R163); in HUSH depths 2 and 3 the unit stays OFF (R395). -/
def writeTuCtrl (w : BitVec 6) (u : Nat) (v : W24) (d : Dev) : Dev :=
  let d := regWrite d w.toNat (F.TU_CTRL_ENABLE.addr u) v
  if flag d F.TU_CTRL_ENABLE u then (if d.house.gated then d else setf d F.TU_CTRL_STATUS u 1)
  else if fld d F.TU_CTRL_STATUS u = 1 then tuSettle (setf d F.TU_CTRL_STATUS u 2) u else d

/-- A write of TUn.CNT: CLR zeroes REFUSED, DONE and BADDESC (R164). -/
def writeTuCnt (w : BitVec 6) (u : Nat) (v : W24) (d : Dev) : Dev :=
  let d := regWrite d w.toNat (F.TU_CNT_CLR.addr u) v
  if F.TU_CNT_CLR.of v = 1 then setf (setf (setf d F.TU_CNT_REFUSED u 0) F.TU_CNT_DONE u 0) F.TU_STAT_BADDESC u 0 else d

/-- TU_QPUSH (R151). -/
def execTuQpush (w : BitVec 6) (u : Fin 2) (v : W24) (s : State) : Host.Outcome State Fault Refusal :=
  .next (s.write w (F.TU_QPUSH_DESC.addr u) v (writeTuQpush w u.val v))

/-- TU_DESCRIPTOR_START (R147). -/
def execTuDescriptorStart (u : Fin 2) (s : State) : Host.Outcome State Fault Refusal :=
  .next (s.act fun d => tuStart d u.val)

/-- TU_ENABLE_WRITE (R163). -/
def execTuEnableWrite (w : BitVec 6) (u : Fin 2) (v : W24) (s : State) : Host.Outcome State Fault Refusal :=
  .next (s.write w (F.TU_CTRL_ENABLE.addr u) v (writeTuCtrl w u.val v))

/-- TU_CNT_CLR (R164). -/
def execTuCntClr (w : BitVec 6) (u : Fin 2) (v : W24) (s : State) : Host.Outcome State Fault Refusal :=
  .next (s.write w (F.TU_CNT_CLR.addr u) v (writeTuCnt w u.val v))

end Sys2Proof.Machine
end

