-- ==== Sys2Proof/Machine/Exec.lean ====
section
/-!
DEFINITION. How a core executes one word: its effects, load delays and holds (R88 to R93), undefined encodings (R130 to
R133), loops and repeats (R94 to R99), the register window (R72 to R75), traps and interrupts (R100 to R105), and the
signature of the known-answer test (R263).
-/
namespace Sys2Proof.Machine

/-! ## What a word does -/

/-- What a load reads. -/
inductive LoadSrc where
  /-- A Market word. -/
  | mkt (a : Nat)
  /-- The low byte of a Market word (R85). -/
  | byte (a : Nat)
  /-- A pocket or local data word. -/
  | pocket (a : Nat)
  /-- A half of a program store word. -/
  | prog (a : Nat)
  /-- A value already read. -/
  | value (v : W24)
deriving DecidableEq, Repr

/-- The effects of a word, in program order. Registers are physical numbers. -/
inductive Eff where
  | reg (p : Nat) (v : W24)
  | acc (i : Nat) (v : W56)
  | flags (f : Flags)
  | sums (ag av : Bool)
  | pred (i : Nat) (b : Bool)
  | bit (b : BitAt) (op : Nat)
  | special (n : Nat) (v : W24)
  | be (v : Nat)
  | load (p delay : Nat) (src : LoadSrc)
  | store (a : Nat) (v : W24)
  | pocketStore (a : Nat) (v : W24)
  | collect (c : Contrib)
  | dyn (p ch : Nat) (x : W24)
  | tucmd (unit a : Nat)
deriving DecidableEq, Repr

/-- Where a word sends the program. -/
inductive Flow where
  | seq
  | jump (t : Nat)
  | call (t : Nat)
  | ret
  | endProg
  | rep (n : Nat)
  | loop (count le : Nat)
  | leave
  | trap (num : Nat)
  | reti
  | wait
  | level (n : Nat) (v : W24)
deriving DecidableEq, Repr

/-- What the body of a word answers: its effects, its flow, whether an operation is ignored or refused (case 4 of
R130), and whether two writes clash (R115, R127). -/
structure Res where
  effs : List Eff := []
  flow : Flow := .seq
  ign : Bool := false
  clash : Bool := false

/-- Which cores have an instruction (R111, R130). -/
inductive Need where
  | both
  | signal
  | control
  | glenex
  | never
deriving DecidableEq, Repr

/-- A decoded word: which cores have it, an unassigned field value, an operation the profile lacks (case 3), its
reserved operand bits, whether a duet slot has reserved bits set, its operand bits [19:0], whether it is a duet, the
registers it reads, and its body. -/
structure Word where
  need : Need := .both
  bad : Bool := false
  lacks : Bool := false
  mask : Nat := 0
  rsv : Bool := false
  opd : Nat := 0
  duet : Bool := false
  regs : List (BitVec 5) := []
  phys : Core → List Nat := fun _ => []
  body : Dev → Core → Res

/-! ## The signature of the known-answer test (R263) -/

/-- One bit of the CRC-24. -/
def crcBit (r : W24) (b : Bool) : W24 := let t := r <<< 1; if r.msb != b then t ^^^ 0x864CFB else t

/-- A word enters the CRC register, bit 23 first. -/
def crcWord (r v : W24) : W24 := (List.range 24).foldl (fun r i => crcBit r (v.getLsbD (23 - i))) r

/-- Words folded at once. -/
def Core.foldNow (k : Core) (l : List W24) : Core := { k with crc := l.foldl crcWord k.crc }

/-- Writes waiting for their visibility points are folded up to word `w`; a write a later one supersedes is dropped
(R91, R263). -/
def foldDue (w : Nat) : List (Nat × Nat × List W24) → W24 → W24 × List (Nat × Nat × List W24)
  | [], crc => (crc, [])
  | e :: t, crc =>
    if t.any (fun f => f.1 = e.1 && f.2.1 ≤ w) then foldDue w t crc
    else if e.2.1 ≤ w then foldDue w t (e.2.2.foldl crcWord crc)
    else let (c, r) := foldDue w t crc; (c, e :: r)

/-- The three words a whole accumulator folds as. -/
def accWords (a : W56) : List W24 := [accRead a 0, accRead a 1, accRead a 2]

/-- A write put down for folding at the next word. -/
def Core.foldLater (k : Core) (key : Nat) (l : List W24) : Core :=
  { k with fold := k.fold ++ [(key, k.words + 1, l)] }

/-- What an effect folds (R263). -/
def foldEff (k : Core) (e : Eff) : Core :=
  match e with
  | .reg p v => if p = 0 then k else k.foldLater p [v]
  | .acc i v => k.foldLater (200 + i) (accWords v)
  | .flags _ | .sums _ _ => k
  | .pred i b => k.foldLater (300 + i) [w24 (b1 b)]
  | .bit (.localBit a) _ => k.foldLater (1000 + a) [w24 (b1 (Tab.get false k.loc a))]
  | .bit (.board a) op => k.foldNow [w24 a, w24 op]
  | .special 12 _ => k
  | .special n v =>
    let w := match n with
      | 6 => w24 (satTo 55 (v.toNat % 64))
      | 7 | 8 | 9 | 10 => w24 (v.toNat % 1024)
      | 11 => w24 (v.toNat % 256)
      | _ => v
    k.foldLater (400 + n) [w]
  | .be v => k.foldLater 406 [w24 v]
  | .load p delay (.value v) => if p = 0 then k else { k with fold := k.fold ++ [(p, k.words + delay, [v])] }
  | .load _ _ _ => k
  | .store a v => k.foldNow [w24 a, v]
  | .pocketStore a v => k.foldNow [w24 a, v]
  | .collect c => k.foldNow (w24 (c.bus + b1 c.active * 2 ^ 23) :: accWords c.acc)
  | .dyn p ch x =>
    let k := k.foldNow [w24 ch, x]
    if p = 0 then k else { k with fold := k.fold ++ [(p, k.words + 5, [x])] }
  | .tucmd unit a => k.foldNow [w24 a, w24 (unit + a / 2 ^ 24 * 256)]

/-! ## Loads (R89 to R93) -/

/-- The loads visible at word `w` whose data has arrived are written; a load a later one supersedes is dropped
(R91). -/
def settle (w : Nat) : List Load → Tab W24 → Tab W24 × List Load
  | [], xs => (xs, [])
  | l :: t, xs =>
    if t.any (fun m => m.reg = l.reg && m.due ≤ w) then settle w t xs
    else if l.due ≤ w && l.arrived then settle w t (Tab.set 0 xs l.reg l.val)
    else let (xs, r) := settle w t xs; (xs, l :: r)

/-- A core at the start of a word: visible loads written, and their folds made. -/
def Core.begin (k : Core) : Core :=
  let (xs, loads) := settle k.words k.loads k.xs
  let (crc, fold) := foldDue k.words k.fold k.crc
  { k with xs := xs, loads := loads, crc := crc, fold := fold }

/-- The register whose late data holds a word that reads `ps` (R92). -/
def Core.lateFor (k : Core) (ps : List Nat) : Option Nat :=
  (k.loads.find? fun l => l.due ≤ k.words && !l.arrived && ps.contains l.reg).map (·.reg)

/-- Every load in flight is completed into its register (R93). -/
def Core.finishLoads (k : Core) : Core :=
  { k with xs := k.loads.foldl (fun xs l => Tab.set 0 xs l.reg l.val) k.xs, loads := []
           openTo := 0 }

/-- A register write visible from the next word: writes in flight to the same register are discarded (R91). Register 0
is x0. -/
def Core.put (k : Core) (p : Nat) (v : W24) : Core :=
  if p = 0 then k else { k with xs := Tab.set 0 k.xs p v, loads := k.loads.filter fun l => l.reg != p }

/-- A load issued (R89): its delay opens, and register 0 takes no result (R119). -/
def Core.issue (k : Core) (p delay : Nat) (v : W24) (arrived : Bool) : Core :=
  let k := { k with openTo := max k.openTo (k.words + delay) }
  if p = 0 then k
  else { k with loads := k.loads ++ [{ reg := p, val := v, due := k.words + delay, arrived := arrived }] }

/-! ## Applying effects -/

/-- The Market master core `c` acts as (R168). -/
abbrev masterOf (c : Nat) : Nat := c

/-- A Market word that core `c` reads: an engine's read of a word another engine wrote in the tick is undefined
(R57). -/
def coreRead (d : Dev) (c a : Nat) (flips : BitVec 30) : W24 × Dev :=
  let a := a % mktSize
  let (v, _, d) := mktRead d (masterOf c) a flips
  if !isPc c && readUndefined d (posOf d c) a then freshWord d else (v, d)

/-- A Market word that core `c` writes; engines' writes of the tick are kept for R57 and R154. -/
def coreWrite (d : Dev) (c a : Nat) (v : W24) : Dev :=
  let a := a % mktSize
  let d := mktWrite d (masterOf c) a v
  if isPc c then d else { d with wrote := Tab.set 99 d.wrote a (posOf d c) }

/-- The number of the pocket as `pktRead` names it: the position, or the prompter. -/
def pocketOwner (d : Dev) (c : Nat) : Nat := if isPc c then c else posOf d c

/-- What core `c` reads in its program store: a prompter's poisoned word reads zero and raises its memory-error source
(R376). -/
def progRead (d : Dev) (c a : Nat) (flips : BitVec 30) : W24 × Dev :=
  let v := progHalf d c a
  if isPc c then
    let (bad, d) := progCheck d (progKey (c - 17) (a % (2 * storeSize c) / 2)) flips
    if bad then (0, raise d (12 + (c - 17))) else (v, d)
  else (v, d)

/-- The loads of a word are sampled before its stores (R126). A known-answer test that reads a poisoned word of its
pocket is spoilt (R397). -/
def sampleLoad (c : Nat) (flips : BitVec 30) (d : Dev) (e : Eff) : Dev × Eff :=
  match e with
  | .load p n (.mkt a) => let (v, d) := coreRead d c a flips; (d, .load p n (.value v))
  | .load p n (.byte a) => let (v, d) := coreRead d c a flips; (d, .load p n (.value (v &&& 0xFF)))
  | .load p n (.pocket a) =>
    let (v, bad, d) := pktRead d (pocketOwner d c) a (pocketKey d c a) flips
    (if bad && inKat d c then updCore d c fun k => { k with spoilt := true } else d, .load p n (.value v))
  | .load p n (.prog a) => let (v, d) := progRead d c a flips; (d, .load p n (.value v))
  | e => (d, e)

/-- Every load of a word sampled, in order. -/
def sampleLoads (c : Nat) (flips : BitVec 30) (d : Dev) (l : List Eff) : Dev × List Eff :=
  l.foldl (fun (d, r) e => let (d, e) := sampleLoad c flips d e; (d, r ++ [e])) (d, [])

/-- The Board posting queue of core `c` (R21). -/
def boardQueueOf (d : Dev) (c : Nat) : Nat := if isPc c then c + 3 else posOf d c

/-- A local bit under an operation: 1 set, 2 clear, 3 toggle, 4 put 0, 5 put 1. -/
def bitOp (op : Nat) (old : Bool) : Bool :=
  match op with | 1 => true | 2 => false | 3 => !old | 4 => false | _ => true

/-- The Board operation of a bit instruction: BPUT sets or clears. -/
def boardOpOf (op : Nat) : Nat := match op with | 4 => 2 | 5 => 1 | n => n

/-- Corrected words are written back to the pocket of core `c`, which its word leaves free (R191). -/
def scrubFree (d : Dev) (c : Nat) : Dev :=
  if isPc c then d else let p := posOf d c; pktScrub d (pktKey p 0) (pktKey (p + 1) 0)

/-- The write-back of R191 after a word of core `c` with these effects. -/
def scrubAfter (d : Dev) (c : Nat) (l : List Eff) : Dev :=
  let uses := l.any fun e => match e with | .load _ _ (.pocket _) | .pocketStore _ _ => true | _ => false
  if uses then d else scrubFree d c

/-- One effect on the core alone. -/
def coreEff (k : Core) (pc late : Bool) (e : Eff) : Core :=
  match e with
  | .reg p v => k.put p v
  | .acc i v => { k with acc := Tab.set 0 k.acc i v }
  | .flags f => { k with st := f.apply k.st }
  | .pred i b => { k with preds := if b then k.preds ||| (1#8 <<< i) else k.preds &&& ~~~(1#8 <<< i) }
  | .bit (.localBit a) op => { k with loc := Tab.set false k.loc a (bitOp op (Tab.get false k.loc a)) }
  | .special n v => if 2 ≤ n && n ≤ 4 then k else k.spWrite pc n v
  | .be v => { k with be := BitVec.ofNat 6 v }
  | .load p n (.value v) => k.issue p n v (!late)
  | _ => k

/-- One effect of a word of core `c` (its loads sampled). In the known-answer test nothing is issued, and a DYN's
register receives its input (R263). -/
def applyEff (c : Nat) (late : Bool) (d : Dev) (e : Eff) : Dev :=
  let kat := inKat d c
  let d := updCore d c fun k => coreEff k (isPc c) late e
  let d := if kat then updCore d c fun k => foldEff k e else d
  match e with
  | .sums ag av => setSums d c ag av
  | .special n v =>
    if n = 0 then
      let d := if v.getLsbD 8 then setQuiet d c 8 F.SE_STICKY_WOV else d
      let d := if v.getLsbD 4 then setQuiet d c 4 F.SE_STICKY_AV else d
      let d := if v.getLsbD 7 then setLov d c (core d c).pc.toNat else d
      if v.getLsbD 6 then setUnd d c (core d c).pc.toNat (Config.undCaseOfMts (core d c).words) else d
    else d
  | .bit (.board a) op =>
    if kat then d else boardIssue d (boardQueueOf d c) { op := boardOpOf op, base := a, mask := 1 }
  | .store a v => if kat then d else coreWrite d c a v
  | .pocketStore a v => if kat then d else pktWrite d (pocketKey d c a) v
  | .collect q => if kat then d else collect d q
  | .dyn p ch x =>
    if kat then updCore d c fun k => k.issue p 5 x true
    else
      let due := (core d c).words + 5
      let d := updCore d c fun k => k.issue p 5 0 false
      dynArrive d { pos := posOf d c, core := c, reg := p, due := due, ch := ch, x := x }
  | .tucmd unit a => if kat then d else tuSubmit d unit a true
  | _ => d

/-- All effects of a word, its loads first (R126), and the pocket's scrub writes after them (R191). -/
def applyEffs (c : Nat) (late : Bool) (flips : BitVec 30) (d : Dev) (l : List Eff) : Dev :=
  let (d, sampled) := sampleLoads c flips d l
  scrubAfter (sampled.foldl (applyEff c late) d) c l

/-! ## What can hold a word (R22, R236) -/

/-- Why a word of core `c` with these effects cannot issue yet. -/
def issueHold (d : Dev) (c : Nat) (l : List Eff) : Option Hold :=
  if inKat d c then none
  else if l.any fun e => match e with | .collect q => collectFull d q.pos q.bus | _ => false then some .fifo
  else if l.any fun e => match e with | .bit (.board _) _ => !boardRoom d (boardQueueOf d c) | _ => false then some .board
  else none

/-! ## Sequencing -/

/-- The end check of R95 at `pc`: the loop stack, the next word, and for each level met whether it wraps (1) or closes
(0), which the known-answer test folds. -/
def endCheck (pc : Nat) : List Loop → Nat → List Loop × Nat × List W24
  | [], next => ([], next, [])
  | l :: t, next =>
    if l.le.toNat = pc then
      if 1 < l.lc.toNat then ({ l with lc := l.lc - 1 } :: t, l.ls.toNat, [1])
      else let (s, n, f) := endCheck pc t next; (s, n, 0 :: f)
    else (l :: t, next, [])

/-- Core `c` continues at word `next`; past the last word an engine ends with UND, and a prompter wraps with UND
(R99). -/
def goTo (d : Dev) (c next ns : Nat) : Dev :=
  if next < storeSize c then updCore d c fun k => { k with pc := BitVec.ofNat 16 next }
  else if isPc c then setUnd (updCore d c fun k => { k with pc := BitVec.ofNat 16 next }) c 65535 4
  else engineEnd (setUnd d c 16383 4) c ns

/-- What follows a word whose end check runs at `chk` (R95, R97): a level that wraps goes to its LS modulo the program
store (R122), and else the program goes on at `next`. -/
def afterWord (d : Dev) (c chk next ns : Nat) : Dev :=
  let kat := inKat d c
  let (loops, next, f) := endCheck chk (core d c).loops next
  let next := if f.contains 1 then next % storeSize c else next
  let d := updCore d c fun k => let k := { k with loops := loops }; if kat then k.foldNow f else k
  goTo d c next ns

/-- The ordinary end of a word at `pc`: between the repetitions of a repeat the PC stays (R97). -/
def nextWord (d : Dev) (c pc ns : Nat) : Dev :=
  if (core d c).rpc = 0 then afterWord d c pc (pc + 1) ns else d

/-- A taken transfer: the repeat ends and the end check is skipped (R95, R98). -/
def jumpTo (d : Dev) (c t : Nat) : Dev :=
  updCore d c fun k => { k with rpc := 0, pc := BitVec.ofNat 16 (t % storeSize c) }

/-! ## Traps and interrupts (R75, R100 to R104) -/

/-- A prompter that meets a trap in trap context stops, and HOUSE posts PC_FAULT (R104). -/
def pcFault (d : Dev) (c pc : Nat) : Dev :=
  let d := updCore d c fun k => { k with run := .stopped }
  post d 0x19 (c - 17) (c - 17) pc

/-- The entry to a context (R101): 1 level 0, 2 level 1, 3 trap. `ilk` is the first word not executed, `irpc` the
repetitions that remain. -/
def Core.enter (k : Core) (ctx ilk vec : Nat) (irpc : BitVec 13) : Core :=
  let k := k.finishLoads
  let s : Saved := { ilk := w24 ilk, ist := k.stWord, irpc := irpc }
  let k := match ctx with | 1 => { k with c0 := s } | 2 => { k with c1 := s } | _ => { k with ct := s }
  let off : W24 := if ctx = 1 then 0x400 else 0xC00
  { k with cwp := (k.cwp + 1) % 15, res := satTo 15 (k.res + 1), rpc := 0, prefixed := false, run := .on
           st := (k.st &&& ~~~(0x3000 ||| off)) ||| (BitVec.ofNat 24 ctx <<< 12), pc := BitVec.ofNat 16 vec }

/-- A trap of prompter `c` at word `pc` (R103, R104): `rest` the repetitions that remain, this one included. -/
def trap (d : Dev) (c pc vec : Nat) (cause : W24) (rest : BitVec 13) : Dev :=
  if (core d c).ctx = 3 then pcFault d c pc
  else updCore d c fun k => { k.enter 3 pc vec rest with tcause := cause }

/-- A window overflow (code 2, at 0020h) or underflow (code 3, at 0030h) trap (R75, R103). -/
def windowTrap (d : Dev) (c pc code : Nat) (rest : BitVec 13) : Dev :=
  trap d c pc (code * 16) (w24 (code * 2 ^ 20) ||| ((core d c).wst &&& 0xFFFFF)) rest

/-- Prompter `c` takes an interrupt of `level` at its PC (R75, R101). -/
def takeInterrupt (d : Dev) (c level vec : Nat) : Dev :=
  let k := core d c
  if 14 ≤ k.res then windowTrap d c k.pc.toNat 2 k.rpc
  else updCore d c fun k => k.enter (level + 1) k.pc.toNat vec k.rpc

/-- The state a RETI restores (R101): RPC, ST and the window of the context in service. SEC follows PCn.CTRL
(R377), LDEPTH the loop stack, and the reserved bits of ST stay 0 (R9, R66). -/
def Core.leaveContext (k : Core) : Core :=
  let s := k.saved
  { k with rpc := s.irpc, st := (s.ist &&& 0x3FFF) ||| (k.st &&& 0x4000), cwp := (k.cwp + 14) % 15, res := k.res - 1
           pc := s.ilk.truncate 16 }

/-! ## Flow (R72 to R75, R94 to R98, R122) -/

/-- A CALL or CALLR to `t` (R72, R74, R75). -/
def doCall (d : Dev) (c pc t ns : Nat) (rest : BitVec 13) : Dev :=
  let k := core d c
  if !isPc c && k.res = 15 then windowOverrun d c pc ns
  else if isPc c && 14 ≤ k.res then windowTrap d c pc 2 rest
  else
    let d := updCore d c fun k =>
      { k with lk := w24 ((pc + 1) % storeSize c), cwp := (k.cwp + 1) % 15, res := k.res + 1 }
    let d := if inKat d c then updCore d c fun k => { k with fold := k.fold ++ [(401, k.words, [k.lk])] } else d
    jumpTo d c t

/-- A RET (R72, R74, R75). -/
def doRet (d : Dev) (c pc ns : Nat) (rest : BitVec 13) : Dev :=
  let k := core d c
  if !isPc c && k.res ≤ 3 then engineEnd d c ns
  else if isPc c && k.res ≤ 3 then windowTrap d c pc 3 rest
  else jumpTo (updCore d c fun k => { k with cwp := (k.cwp + 14) % 15, res := k.res - 1 }) c k.lk.toNat

/-- A LOOP or LOOPR with count `n` and end address `le` (R94); an end before the following word has been found by the
body. A count of 0 goes to LE + 1 as a taken branch would: no end check is made at the LOOP's own address, and a repeat
of it ends (DEDUCED, notes/assumptions/7). -/
def doLoop (d : Dev) (c pc n le ns : Nat) : Dev :=
  if le ≤ pc then nextWord d c pc ns
  else if n = 0 then goTo (updCore d c fun k => { k with rpc := 0 }) c (le + 1) ns
  else if 4 ≤ (core d c).loops.length then nextWord (setLov d c pc) c pc ns
  else
    let l : Loop := { ls := w24 ((pc + 1) % storeSize c), le := w24 le, lc := w24 n }
    nextWord (updCore d c fun k => { k with loops := l :: k.loops }) c pc ns

/-- The word after `pc` is skipped (R97): its end check runs all the same. Past the last word of its store a prompter
wraps to the word at 0 and skips that, and an engine has nothing left to skip (R99). -/
def skipWord (d : Dev) (c pc ns : Nat) : Dev :=
  if pc + 1 < storeSize c then afterWord d c (pc + 1) (pc + 2) ns
  else
    let d := goTo d c (pc + 1) ns
    if isPc c then afterWord d c 0 1 ns else d

/-- A REP or REPR of `n` at `pc` (R97, R98): a repeated one is a NOP, one at the end of the top level of the loop stack
discards its count (one at the end of a lower level alone does not: DEDUCED, notes/assumptions/7), and a count of 0
skips the following word. -/
def doRep (d : Dev) (c pc n ns : Nat) (repeated atEnd : Bool) : Dev :=
  if repeated || atEnd then nextWord d c pc ns
  else if n = 0 then skipWord d c pc ns
  else goTo (updCore d c fun k => { k with rpc := BitVec.ofNat 13 n }) c (pc + 1) ns

/-- An MTS of `v` to LS, LE or LC (R96): the end check of its own word still sees the level as it was, and the level,
unless that check has closed it, holds the value from the next word. -/
def doLevel (d : Dev) (c pc n ns : Nat) (v : W24) : Dev :=
  let depth := (core d c).loops.length
  updCore (nextWord d c pc ns) c fun k => if k.loops.length = depth then k.spWrite (isPc c) n v else k

/-- A RETI (R101): with RES = 3 the slide underflows as a RET's does (R75). -/
def doReti (d : Dev) (c pc : Nat) (rest : BitVec 13) : Dev :=
  if (core d c).res ≤ 3 then windowTrap d c pc 3 rest else updCore d c Core.leaveContext

/-- The word at `pc` of core `c` goes where its flow sends it. `repeated`: it is a repetition; `rest`: the repetitions
that remain, this one included; `atEnd`: it stands at the top loop's end. -/
def doFlow (d : Dev) (c pc ns : Nat) (repeated atEnd : Bool) (rest : BitVec 13) : Flow → Dev
  | .seq => nextWord d c pc ns
  | .jump t => jumpTo d c t
  | .call t => doCall d c pc t ns rest
  | .ret => doRet d c pc ns rest
  | .endProg => engineEnd d c ns
  | .rep n => doRep d c pc n ns repeated atEnd
  | .loop n le => doLoop d c pc n le ns
  | .leave => nextWord (updCore d c fun k => { k with loops := k.loops.tail }) c pc ns
  | .trap num => trap d c pc 0x40 (w24 (4 * 2 ^ 20 + num)) rest
  | .reti => doReti d c pc rest
  | .wait => updCore (nextWord d c pc ns) c fun k => { k with run := .waiting }
  | .level n v => doLevel d c pc n ns v

/-! ## One word -/

/-- The core lacks the instruction (case 1 of R130): the profile, or GLENEX.EN = 0 (R84). -/
def lacksWord (d : Dev) (c : Nat) : Need → Bool
  | .both => false
  | .signal => isPc c
  | .control => !isPc c
  | .glenex => !isPc c || !flag d F.PC_GLENEX_EN (c - 17)
  | .never => true

/-- The case of R130 that an encoding alone decides: 1 to 3, or 0. -/
def staticCase (d : Dev) (h : Hdr) (w : Word) : Nat :=
  if lacksWord d h.core.val w.need then 1
  else if w.bad || (if w.duet then duetCond h.cond.toNat else h.cond.toNat) = 15 then 2
  else if w.lacks then 3
  else 0

/-- An unassigned long opcode (R131): under UDTRAP the program ends for the tick, or the prompter traps. -/
def absentWord (d : Dev) (c pc ns : Nat) (opd : Nat) (rest : BitVec 13) : Dev :=
  if isPc c then
    if flag d F.PC_CTRL_UDTRAP (c - 17) then trap d c pc 0x10 (w24 (2 ^ 20 + opd % 2 ^ 20)) rest
    else nextWord (setUnd d c pc 1) c pc ns
  else
    let d := setUnd d c pc 1
    if (core d c).udtrap then engineEnd d c ns else nextWord d c pc ns

/-- The physical registers a word reads. -/
def Word.reads (w : Word) (k : Core) : List Nat := w.regs.map k.phys ++ w.phys k

/-- A clash is counted (R115, R127, R129). -/
def countClash (d : Dev) (c : Nat) : Dev :=
  if inKat d c then d
  else if isPc c then inc d F.PC_DUET_CLASH_COUNT (c - 17)
  else inc d F.SE_DUET_CLASH_COUNT (posOf d c)

/-- A REP or REPR, suppressed or not, is a prefix, after which R102 lets no interrupt in. -/
def Flow.prefixes : Flow → Bool
  | .rep _ => true
  | _ => false

/-- The word executes: effects, UND of cases 4 and 5, then its flow. `k` is the core with visible loads written. -/
def execBody (d : Dev) (h : Hdr) (w : Word) (r : Res) (k : Core) (ok : Bool) : Dev :=
  let c := h.core.val
  let pc := k.pc.toNat
  let ns := h.ns.toNat
  let atEnd := match k.loops with | [] => false | l :: _ => l.le.toNat = pc
  let rsv := w.rsv || h.rsv.toNat &&& w.mask ≠ 0
  let d := if ok then applyEffs c h.late h.upset d r.effs else scrubFree d c
  let d := if ok && r.clash then countClash d c else d
  let d := if r.ign then setUnd d c pc 4 else if rsv then setUnd d c pc 5 else d
  let d := updCore d c fun k => { k with words := k.words + 1, prefixed := r.flow.prefixes }
  doFlow d c pc ns (k.rpc ≠ 0) atEnd k.rpc (if ok then r.flow else .seq)

/-- The repetitions still to come once the word runs (R97). -/
def Core.tick (k : Core) : Core := if k.rpc = 0 then k else { k with rpc := k.rpc - 1 }

/-- The operation of a word in a repeat, or of a prefix at a loop's end, is ignored (R98). -/
def prefixIgnored (k : Core) (r : Res) : Bool :=
  match r.flow with
  | .rep _ => k.rpc ≠ 0 || (match k.loops with | [] => false | l :: _ => l.le = k.pc.zeroExtend 24)
  | _ => false

/-- The word is no word: a prompter's fetch met a poisoned one, or one it finds uncorrectable (R376). -/
def badFetch (d : Dev) (h : Hdr) : Bool :=
  isPc h.core.val
    && (h.poison || poisoned (Tab.get 0 d.gecc (progKey (h.core.val - 17) (core d h.core.val).pc.toNat)))

/-- A word the fetch found uncorrectable is poisoned (R172, R376). -/
def fetchPoison (d : Dev) (h : Hdr) : Dev :=
  { d with gecc := Tab.set 0 d.gecc (progKey (h.core.val - 17) (core d h.core.val).pc.toNat) poisonMark }

/-- Core `h.core` executes the word (R88 to R99, R130 to R133). A core that does not run, or that is held, executes
nothing; a prompter that fetches a poisoned word stops, and HOUSE posts PC_FAULT (R376). -/
def runWord (w : Word) (h : Hdr) (d : Dev) : Dev :=
  let c := h.core.val
  let k0 := core d c
  if k0.run ≠ .on || k0.hold ≠ .free then d
  else if badFetch d h then pcFault (fetchPoison d h) c k0.pc.toNat
  else
    let k := k0.begin
    let case_ := staticCase d h w
    let holds := condHolds (if w.duet then duetCond h.cond.toNat else h.cond.toNat) k.st k.preds
    let ok := case_ = 0 && holds
    let kat := inKat d c
    let late := if kat then (k.loads.find? fun l => l.due ≤ k.words && !l.arrived).map (·.reg)
      else if ok then k.lateFor (w.reads k) else none
    match late with
    | some p => setCore d c { k with hold := .load p }
    | none =>
      let r := w.body d k.tick
      let ign := case_ = 0 && (r.ign || prefixIgnored k r)
      match (if ok then issueHold d c r.effs else none) with
      | some hold => setCore d c { k with hold := hold }
      | none =>
        let k' := if kat && h.cond ≠ 0 then k.tick.foldNow [w24 (b1 holds)] else k.tick
        let d := setCore d c k'
        let d := if !isPc c && c ≠ 16 then mismatch d c h.mm.toNat k.pc.toNat else d
        if case_ = 1 then
          absentWord (updCore (scrubFree d c) c fun k => { k with words := k.words + 1, prefixed := false }) c k.pc.toNat h.ns.toNat
            (w.opd ||| h.rsv.toNat) k.rpc
        else if case_ = 0 then execBody d h w { r with ign := ign } { k' with rpc := k.rpc } ok
        else
          let d := updCore (scrubFree d c) c fun k => { k with words := k.words + 1, prefixed := false }
          nextWord (setUnd d c k.pc.toNat case_) c k.pc.toNat h.ns.toNat

/-- The meaning of a word that acts on the device alone. -/
def execWord (w : Word) (h : Hdr) (s : State) : Host.Outcome State Fault Refusal := .next (s.onDev (runWord w h))

/-- A result and its flags. -/
def writes (k : Core) (rd : BitVec 5) (v : W24) (f : Flags) : Res := { effs := [.reg (k.phys rd) v, .flags f] }

end Sys2Proof.Machine
end

