-- ==== Sys2Proof/Machine/Bits.lean ====
section
/-!
DEFINITION. Bit and predicate instructions (R120, R121).
-/
namespace Sys2Proof.Machine

/-- BSET (R121). -/
def wordBset (b : BitRef) : Word :=
  { bad := b.bad, mask := 0xE0000, regs := b.regs, body := fun _ k => { effs := [.bit (b.at k) 1] } }

/-- BSET. -/
def execBset (h : Hdr) (b : BitRef) (s : State) : Host.Outcome State Fault Refusal :=
  execWord (wordBset b) h s

/-- BCLR (R121). -/
def wordBclr (b : BitRef) : Word :=
  { bad := b.bad, mask := 0xE0000, regs := b.regs, body := fun _ k => { effs := [.bit (b.at k) 2] } }

/-- BCLR. -/
def execBclr (h : Hdr) (b : BitRef) (s : State) : Host.Outcome State Fault Refusal :=
  execWord (wordBclr b) h s

/-- BTGL (R121). -/
def wordBtgl (b : BitRef) : Word :=
  { bad := b.bad, mask := 0xE0000, regs := b.regs, body := fun _ k => { effs := [.bit (b.at k) 3] } }

/-- BTGL. -/
def execBtgl (h : Hdr) (b : BitRef) (s : State) : Host.Outcome State Fault Refusal :=
  execWord (wordBtgl b) h s

/-- BTST: Z is the bit's complement (R121). -/
def wordBtst (b : BitRef) : Word :=
  { bad := b.bad, mask := 0xE0000, regs := b.regs
    body := fun d k => { effs := [.flags { z := some (!bitAt d k (b.at k)) }] } }

/-- BTST: Z is the bit's complement. -/
def execBtst (h : Hdr) (b : BitRef) (s : State) : Host.Outcome State Fault Refusal :=
  execWord (wordBtst b) h s

/-- BMOV (R121). -/
def wordBmov (p : BitVec 3) (b : BitRef) : Word :=
  { bad := b.bad, regs := b.regs, body := fun d k => { effs := [.pred p.toNat (bitAt d k (b.at k))] } }

/-- BMOV. -/
def execBmov (h : Hdr) (p : BitVec 3) (b : BitRef) (s : State) : Host.Outcome State Fault Refusal :=
  execWord (wordBmov p b) h s

/-- BPUT (R121). -/
def wordBput (p : BitVec 3) (b : BitRef) : Word :=
  { bad := b.bad, regs := b.regs, body := fun _ k => { effs := [.bit (b.at k) (if k.p p then 5 else 4)] } }

/-- BPUT. -/
def execBput (h : Hdr) (p : BitVec 3) (b : BitRef) (s : State) : Host.Outcome State Fault Refusal :=
  execWord (wordBput p b) h s

/-- PAND (R121). -/
def wordPand (pd pa pb : BitVec 3) (na nb : Bool) : Word :=
  { mask := 0x1FF, body := fun _ k => { effs := [.pred pd.toNat ((k.p pa ^^ na) && (k.p pb ^^ nb))] } }

/-- PAND. -/
def execPand (h : Hdr) (pd pa pb : BitVec 3) (na nb : Bool) (s : State) : Host.Outcome State Fault Refusal :=
  execWord (wordPand pd pa pb na nb) h s

/-- POR (R121). -/
def wordPor (pd pa pb : BitVec 3) (na nb : Bool) : Word :=
  { mask := 0x1FF, body := fun _ k => { effs := [.pred pd.toNat ((k.p pa ^^ na) || (k.p pb ^^ nb))] } }

/-- POR. -/
def execPor (h : Hdr) (pd pa pb : BitVec 3) (na nb : Bool) (s : State) : Host.Outcome State Fault Refusal :=
  execWord (wordPor pd pa pb na nb) h s

/-- PXOR (R121). -/
def wordPxor (pd pa pb : BitVec 3) (na nb : Bool) : Word :=
  { mask := 0x1FF, body := fun _ k => { effs := [.pred pd.toNat ((k.p pa ^^ na) ^^ (k.p pb ^^ nb))] } }

/-- PXOR. -/
def execPxor (h : Hdr) (pd pa pb : BitVec 3) (na nb : Bool) (s : State) : Host.Outcome State Fault Refusal :=
  execWord (wordPxor pd pa pb na nb) h s

end Sys2Proof.Machine
end

