-- ==== Sys2Proof/Machine/Understudy.lean ====
section
/-!
DEFINITION. The understudy (R259 to R272): rotation, tests, retests, takeover, and its registers.
-/
namespace Sys2Proof.Machine

/-! ## Which engines run -/

/-- Position `p` runs in the tick (R134, R201, R397, R259): enabled, a stage loaded with a program for it, not held after
a memory-test failure, and the device in no state that stops engines. -/
def positionRuns (d : Dev) (p : Nat) : Bool :=
  flag d F.SE_ENG_CTRL_ENABLE p && flag d F.CUE_STAGE_LOADED 0 && d.cue.stage.full.contains p
    && !(fld d F.HOUSE_MEMFAIL_POS 0).testBit p && !d.house.engStop

/-- SU can do nothing in the tick: no stage, no ticks, or HUSH (R259). -/
def suStill (d : Dev) : Bool := !flag d F.CUE_STAGE_LOADED 0 || !d.ticking || d.house.engStop

/-- A test or retest, due or running, is abandoned (R267). -/
def suAbandon (d : Dev) : Dev :=
  let d := { d with su := { d.su with first := none, retest := none, kat := 0, katNow := 0, fail := none } }
  if fld d F.SU_STAT_MODE 0 = 2 then updCore d 16 fun k => { k with run := .off } else d

/-- The MODE in which SU stands when nothing of a test is left: FAULT where the test is CLRFAULT's, which PASS alone
ends (R271), and else IDLE. -/
def suRest (d : Dev) : Nat := if d.su.kat = 3 || d.su.katNow = 3 then 5 else 0

/-! ## Judgement (R263, R265, R271, R472) -/

/-- SU enters FAULT at the tick edge after a failed test, and SU_KATFAIL is posted with the signature (R265, R472). -/
def suFail (d : Dev) : Dev :=
  match d.su.fail with
  | some outcome =>
    let d := { d with su := { d.su with fail := none, first := none, retest := none, kat := 0, take := none, confirmed := none } }
    post (setf d F.SU_STAT_MODE 0 5) 0x15 16 (rd d A.SU_KAT_LAST).toNat outcome
  | none => d

/-- A test is judged: `outcome` 1 PASS, 2 FAIL, 3 INCOMPLETE. What follows begins at the next tick edge (R265). -/
def judgeKat (d : Dev) (outcome : Nat) : Dev :=
  let sig := (core d 16).crc
  let why := d.su.katNow
  let d := wr d A.SU_KAT_LAST sig
  let d := setf (setf d F.SU_STAT_KATRES 0 outcome) F.SU_STAT_KATRUNS 0 (fld d F.SU_STAT_KATRUNS 0 + 1)
  let d := setf (updCore d 16 fun k => { k with run := .off }) F.SU_STAT_MODE 0 0
  let d := { d with su := { d.su with katNow := 0 } }
  if outcome = 1 then
    if why = 1 || why = 4 then { d with su := { d.su with retest := d.su.first.map (·.1) } } else d
  else if outcome = 3 && (why = 1 || why = 2) then { d with su := { d.su with kat := why + 3 } }
  else { d with su := { d.su with first := none, retest := none, kat := 0, fail := some outcome } }

/-- SU's test reaches END (R263). One that read a poisoned word of its pocket fails (R397). -/
def katEnd (d : Dev) : Dev :=
  let k := core d 16
  if inKat d 16 && k.run = .ended then
    judgeKat d (if k.und || k.spoilt || k.crc ≠ w24 (fld d F.SU_KAT_SIG_SIG 0) then 2 else 1)
  else d

/-! ## The tick edge (R259, R265 to R271) -/

/-- SU pairs with, retests or replaces engine `n`. -/
def suMode (d : Dev) (mode n : Nat) : Dev := setf (setf d F.SU_STAT_MODE 0 mode) F.SU_STAT_PARTNER 0 n

/-- What the tick that ends leaves of a test or retest. -/
def suClose (d : Dev) : Dev :=
  let mode := fld d F.SU_STAT_MODE 0
  let d :=
    if mode = 2 && d.su.katNow ≠ 0 then
      (if (core d 16).run = .ended then katEnd d else judgeKat d (if (core d 16).spoilt then 2 else 3))
    else d
  let d := if mode = 3 then { d with su := { d.su with first := none } } else d
  { d with su := { d.su with met := false } }

/-- SU goes OFF (R268, R270): nothing that was due remains, and a test of CLRFAULT not yet judged leaves FAULT. -/
def suOff (d : Dev) : Dev :=
  let d := if suRest d = 5 then setf d F.SU_STAT_MODE 0 5 else d
  let d := setf d F.SU_CTRL_STATUS 0 0
  { d with su := { d.su with first := none, retest := none, kat := 0, katNow := 0, confirmed := none, take := none } }

/-- SU's STATUS at the edge: a drained SU is OFF (R270). -/
def suDrain (d : Dev) : Dev := if fld d F.SU_CTRL_STATUS 0 = 2 then suOff d else d

/-- A release takes effect (R270); a FAULT has ended the takeover before it (R271). -/
def suRelease (d : Dev) : Dev :=
  if fld d F.SU_STAT_MODE 0 = 5 then { d with su := { d.su with release := false, releaseRetest := false } }
  else if d.su.release then
    let n := fld d F.SU_STAT_PARTNER 0
    let again := d.su.releaseRetest && fld d F.SU_CTRL_STATUS 0 = 1
    let d := { d with su := { d.su with release := false, releaseRetest := false, first := none
                                        retest := if again then some n else none } }
    post (setf d F.SU_STAT_MODE 0 0) 0x17 n 0 0
  else d

/-- A takeover takes effect (R266, R268, R269). -/
def suTake (d : Dev) (n how : Nat) : Dev :=
  let d := { d with su := { d.su with take := none, confirmed := none, first := none, retest := none, kat := 0 } }
  post (suMode d 4 n) 0x16 n how 0

/-- What SU does in the tick that begins (R259). The test itself starts with the engine run. -/
def suChoose (d : Dev) : Dev :=
  if fld d F.SU_STAT_MODE 0 = 5 then
    if d.su.clrFault && !d.su.memFault && fld d F.SU_CTRL_STATUS 0 = 1 && !suStill d then
      setf { d with su := { d.su with clrFault := false, kat := 3 } } F.SU_STAT_MODE 0 2
    else d
  else if fld d F.SU_CTRL_STATUS 0 ≠ 1 then setf d F.SU_STAT_MODE 0 0
  else if suStill d then (if fld d F.SU_STAT_MODE 0 = 4 then d else setf (suAbandon d) F.SU_STAT_MODE 0 (suRest d))
  else if fld d F.SU_STAT_MODE 0 = 4 then d
  else if d.su.kat ≠ 0 then setf d F.SU_STAT_MODE 0 2
  else
    match d.su.retest with
    | some n =>
      let d := { d with su := { d.su with retest := none } }
      if positionRuns d n then suMode d 3 n else rotate { d with su := { d.su with first := none } }
    | none => rotate d
where
  /-- The rotation by the tick number. -/
  rotate (d : Dev) : Dev :=
    let n := d.tick % 16
    if positionRuns d n then suMode d 1 n else setf { d with su := { d.su with kat := 2 } } F.SU_STAT_MODE 0 2

/-- The tick edges cease: a test that has failed leads to FAULT now (R265), SU is idle (R259), and a takeover or FAULT in
force stays so. -/
def suStop (d : Dev) : Dev :=
  let d := suFail d
  let mode := fld d F.SU_STAT_MODE 0
  if mode = 4 || mode = 5 then d else setf (suAbandon d) F.SU_STAT_MODE 0 (suRest d)

/-- SU at a tick edge, `d.tick` being the tick that begins. A FAULT stands before a takeover that is due (R259,
R271). -/
def suEdge (d : Dev) : Dev :=
  let d := suRelease (suDrain (suFail (suClose d)))
  let d := if fld d F.SU_STAT_MODE 0 = 5 then { d with su := { d.su with take := none, confirmed := none } } else d
  let d := match d.su.take, d.su.confirmed with
    | some (n, _), _ => suTake d n 2
    | none, some n =>
      let d := { d with su := { d.su with confirmed := none } }
      if flag d F.HOUSE_POLICY_TAKEOVER 0 then suTake d n 1 else d
    | none, none => d
  suChoose d

/-! ## Registers -/

/-- The TAKEOVER command (R267, R269). -/
def takeoverCmd (d : Dev) (n : Nat) : Dev :=
  let mode := fld d F.SU_STAT_MODE 0
  let pending := d.su.take.isSome || (d.su.confirmed.isSome && flag d F.HOUSE_POLICY_TAKEOVER 0)
  if mode = 4 || pending then setf d F.SU_CMD_RESULT 0 2
  else if mode = 5 then setf d F.SU_CMD_RESULT 0 3
  else if fld d F.SU_CTRL_STATUS 0 ≠ 1 then setf d F.SU_CMD_RESULT 0 4
  else
    let d := setf d F.SU_CMD_RESULT 0 1
    let d := { d with su := { d.su with take := some (n, false) } }
    if mode = 2 || mode = 3 || d.su.retest.isSome || d.su.kat ≠ 0 || d.su.fail.isSome then
      setf (suAbandon d) F.SU_STAT_MODE 0 0
    else d

/-- A write of SU.CMD (R269 to R271): a refused TAKEOVER leaves ENG as it was. -/
def writeSuCmd (w : BitVec 6) (v : W24) (d : Dev) : Dev :=
  let taken := F.SU_CMD_TAKEOVER.of v = 1 && fld (takeoverCmd d (F.SU_CMD_ENG.of v)) F.SU_CMD_RESULT 0 = 1
  let v' := if F.SU_CMD_TAKEOVER.of v = 1 && !taken then F.SU_CMD_ENG.put v (fld d F.SU_CMD_ENG 0) else v
  let d := regWrite d w.toNat A.SU_CMD v'
  let d := if F.SU_CMD_TAKEOVER.of v = 1 then takeoverCmd d (F.SU_CMD_ENG.of v) else d
  let d := if F.SU_CMD_RELEASE.of v = 1 && fld d F.SU_STAT_MODE 0 = 4 then
      { d with su := { d.su with release := true, releaseRetest := !d.su.release || d.su.releaseRetest } }
    else d
  if F.SU_CMD_CLRFAULT.of v = 1 && fld d F.SU_STAT_MODE 0 = 5 then { d with su := { d.su with clrFault := true } } else d

/-- A write of SU.CTRL (R270). -/
def writeSuCtrl (w : BitVec 6) (v : W24) (d : Dev) : Dev :=
  let d := regWrite d w.toNat A.SU_CTRL v
  if flag d F.SU_CTRL_ENABLE 0 then setf d F.SU_CTRL_STATUS 0 1
  else if fld d F.SU_CTRL_STATUS 0 = 1 then
    let d := if d.ticking || fld d F.SU_STAT_MODE 0 = 4 then setf d F.SU_CTRL_STATUS 0 2 else suOff d
    if fld d F.SU_STAT_MODE 0 = 4 then { d with su := { d.su with release := true, releaseRetest := false } } else d
  else d

/-- A write of SU.MMLOG: CLR clears the register (R262). -/
def writeMmlog (w : BitVec 6) (v : W24) (d : Dev) : Dev :=
  let d := regWrite d w.toNat A.SU_MMLOG v
  if F.SU_MMLOG_CLR.of v = 1 then wr d A.SU_MMLOG 0 else d

/-- SU_KAT_END (R263). -/
def execSuKatEnd (s : State) : Host.Outcome State Fault Refusal := .next (s.act katEnd)

/-- SU_TAKEOVER_CMD (R269). -/
def execSuTakeoverCmd (w : BitVec 6) (v : W24) (s : State) : Host.Outcome State Fault Refusal :=
  .next (s.write w A.SU_CMD v (writeSuCmd w v))

/-- SU_RELEASE (R270). -/
def execSuRelease (w : BitVec 6) (v : W24) (s : State) : Host.Outcome State Fault Refusal :=
  .next (s.write w A.SU_CMD v (writeSuCmd w v))

/-- SU_CLRFAULT (R271). -/
def execSuClrfault (w : BitVec 6) (v : W24) (s : State) : Host.Outcome State Fault Refusal :=
  .next (s.write w A.SU_CMD v (writeSuCmd w v))

/-- SU_ENABLE_WRITE (R270). -/
def execSuEnableWrite (w : BitVec 6) (v : W24) (s : State) : Host.Outcome State Fault Refusal :=
  .next (s.write w A.SU_CTRL v (writeSuCtrl w v))

/-- MMLOG_CLR (R262). -/
def execMmlogClr (w : BitVec 6) (v : W24) (s : State) : Host.Outcome State Fault Refusal :=
  .next (s.write w A.SU_MMLOG v (writeMmlog w v))

end Sys2Proof.Machine
end

