-- ==== Sys2Proof/Machine/EngineRows.lean ====
section
/-!
DEFINITION. The engine run and its end (R40, R69), late data (R92), the overrun policy at a tick edge (R42 to R44), and
the engines' registers (R43, R45, R129, R134, R135, R191, R272).
-/
namespace Sys2Proof.Machine

/-! ## The run -/

/-- The core that runs position `p`: SU under takeover (R268). -/
def runnerOf (d : Dev) (p : Nat) : Nat :=
  if fld d F.SU_STAT_MODE 0 = 4 && fld d F.SU_STAT_PARTNER 0 = p then 16 else p

/-- The engine run begins (R69): every position that runs in the tick, and a test that is due (R259, R265). -/
def engineRun (d : Dev) : Dev :=
  let d := forAll (List.range 16)
    (fun d p => if (ovrOf d p).ran then updCore d (runnerOf d p) fun k => { k with run := .on } else d) d
  if fld d F.SU_STAT_MODE 0 = 2 && d.su.kat ≠ 0 then startKat d d.su.kat else d

/-- TICK stops position `p` if it has not reached END (R40, R41). -/
def cutOff (d : Dev) (p : Nat) : Dev :=
  let c := runnerOf d p
  let k := core d c
  if (ovrOf d p).ran && k.run = .on then
    let d := setCore d c { k with run := .cutoff, loads := [], hold := .free, rpc := 0 }
    tailFrom (overrun d p 1 k.pc.toNat) (fld d F.TICK_CUTOFF_EFF_EFF 0)
  else d

/-- The cut-off point (R40). -/
def cutOffPoint (d : Dev) : Dev := forAll (List.range 16) cutOff d

/-- A unit holds the call that load `l` of core `c` waits for. -/
def isDynLoad (d : Dev) (c : Nat) (l : Load) : Bool :=
  d.dus.any fun u => u.2.calls.any fun q => q.live && q.core = c && q.reg = l.reg && q.due = l.due

/-- Late data arrives for the oldest load of physical register `r` that waits (R92). -/
def dataArrival (d : Dev) (c r : Nat) : Dev :=
  let k := core d c
  match k.loads.find? fun l => l.reg = r && !l.arrived && !isDynLoad d c l with
  | some l => setCore d c (deliver k r l.due l.val)
  | none => d

/-! ## The overrun policy (R42 to R44) -/

/-- HOLDMAX; 0 is taken as 1 (R45). -/
def holdMax (d : Dev) (p : Nat) : Nat :=
  if fld d F.SE_OVR_CTRL_HOLDMAX p = 0 then 1 else fld d F.SE_OVR_CTRL_HOLDMAX p

/-- What the tick that ends asks of position `p`'s outputs: an overrunning tick. HOLD lasts by the ticks under HOLD. -/
def ovrTick (d : Dev) (p : Nat) (o : Overrun) : Overrun :=
  let holds := if fld d F.SE_OVR_CTRL_POLICY p = 0 then satTo 255 (o.holds + 1) else 0
  let o := { o with overran := true, clean := 0, holds := holds }
  let curtain := { o with ovr := true, mode := 3 }
  if o.ovr then curtain
  else
    match fld d F.SE_OVR_CTRL_POLICY p with
    | 0 => if o.holds > holdMax d p then curtain else { o with mode := 1 }
    | 1 => { o with mode := 2 }
    | _ => curtain

/-- A tick that completes without overrun: after REOPEN of them the OVR cause ends for the next tick. -/
def cleanTick (d : Dev) (p : Nat) (o : Overrun) : Overrun :=
  let o := { o with overran := false, holds := 0 }
  if o.ovr then
    let n := o.clean + 1
    let re := fld d F.SE_OVR_CTRL_REOPEN p
    { o with clean := satTo 255 n, mode := 3, ovr := !(re ≠ 0 && re ≤ n) }
  else { o with mode := 0, clean := 0 }

/-- Position `p` at the tick edge (R42, R43, R45, R46): a REOPEN write ends the cause for the tick that begins, the
samples of the tick that ends still pass as they were, and a cause set at this edge shows in CURTAINED all the same. A
tick in which the engine does not run is no overrunning tick, so it ends HOLD, and it neither counts as a clean tick nor
restarts the count (DEDUCED, notes/assumptions/49). -/
def ovrEdge (d : Dev) (p : Nat) : Dev :=
  let o := ovrOf d p
  let o' := if o.now ≠ 0 then ovrTick d p o
    else if o.ran then cleanTick d p o
    else { o with overran := false, holds := 0, mode := if o.ovr then 3 else 0 }
  let set := o'.ovr && !o.ovr
  let o' := if o.reopen then { o' with reopen := false, ovr := false, clean := 0 } else o'
  let d := setOvr d p { o' with prev := o.now, now := 0, ran := false }
  if set then setf d F.SE_OVR_STAT_CURTAINED p 1 else d

/-- CURTAINED ends once the cause has ended and every curtain it acted on is OPEN (R45). -/
def ovrSettle (d : Dev) (p : Nat) : Dev :=
  let o := ovrOf d p
  if flag d F.SE_OVR_STAT_CURTAINED p && !o.ovr && o.mode ≠ 3 then
    let open_ (k : Nat) : Bool :=
      if k < 512 then (bus d k).curtain.state = 0 else (Tab.get {} d.egress (k - 512) : Curtain).state = 0
    if o.acted.all open_ then setf (setOvr d p { o with acted := [] }) F.SE_OVR_STAT_CURTAINED p 0 else d
  else d

/-- The bus output stage, after which CURTAINED ends of the positions whose curtains it opened (R45, R242). -/
def outputStage (d : Dev) : Dev := forAll (List.range 16) ovrSettle (busOutputStage d)

/-- What position `p` starts the tick from (R67, R69, R134, R201): its settings, and whether it runs. -/
def positionEdge (d : Dev) (p : Nat) : Dev :=
  let run := positionRuns d p
  let d := setf d F.SE_ENG_CTRL_STATUS p (b1 run)
  let d := setOvr d p { ovrOf d p with ran := run }
  let k := Core.start (flag d F.SE_ENG_CTRL_ACCMODE p) (flag d F.SE_ENG_CTRL_UDTRAP p)
  setCore (setCore d p { k with run := .off }) (runnerOf d p) { k with run := .off }

/-! ## Registers -/

/-- A write of SEn.ENG_CTRL (R134): what it says takes effect at the next tick edge, and so an engine that drains and is
enabled again shows RUN from that edge. A position that failed a memory test takes no 1 (R397). -/
def writeEngCtrl (w : BitVec 6) (n : Nat) (v : W24) (d : Dev) : Dev :=
  let v := if (fld d F.HOUSE_MEMFAIL_POS 0).testBit n then v &&& 0x7FFFFF else v
  let d := regWrite d w.toNat (F.SE_ENG_CTRL_ENABLE.addr n) v
  let st := fld d F.SE_ENG_CTRL_STATUS n
  if !flag d F.SE_ENG_CTRL_ENABLE n && st = 1 then setf d F.SE_ENG_CTRL_STATUS n (if d.ticking then 2 else 0) else d

/-- A write of SEn.OVR_STAT (R43, R45). -/
def writeOvrStat (w : BitVec 6) (n : Nat) (v : W24) (d : Dev) : Dev :=
  let d := regWrite d w.toNat (F.SE_OVR_STAT_CLR.addr n) v
  let d := if F.SE_OVR_STAT_REOPEN.of v = 1 then setOvr d n { ovrOf d n with reopen := true } else d
  if F.SE_OVR_STAT_CLR.of v = 1 then setf d F.SE_OVR_STAT_COUNT n 0 else d

/-- A write of a clash counter (R129): 0 to 15 the engines, 16 and 17 the prompters. -/
def writeClash (w : BitVec 6) (n : Nat) (v : W24) (d : Dev) : Dev :=
  if n < 16 then
    let d := regWrite d w.toNat (F.SE_DUET_CLASH_CLR.addr n) v
    if F.SE_DUET_CLASH_CLR.of v = 1 then setf d F.SE_DUET_CLASH_COUNT n 0 else d
  else
    let d := regWrite d w.toNat (F.PC_DUET_CLASH_CLR.addr (n - 16)) v
    if F.PC_DUET_CLASH_CLR.of v = 1 then setf d F.PC_DUET_CLASH_COUNT (n - 16) 0 else d

/-- The DUET_CLASH register of core `n`, prompters from 16 on. -/
def clashAddr (n : Nat) : Nat := if n < 16 then F.SE_DUET_CLASH_CLR.addr n else F.PC_DUET_CLASH_CLR.addr (n - 16)

/-- The PKT_ECC register of a pocket, SU's the seventeenth. -/
def pktEccAddr (n : Nat) : Nat := if n < 16 then F.SE_PKT_ECC_CLR.addr n else A.SU_PKT_ECC

/-- A write of ENGn.UND_PC: CLR clears VALID, CAUSE and PC (R135). -/
def writeUndPc (w : BitVec 6) (n : Nat) (v : W24) (d : Dev) : Dev :=
  let d := regWrite d w.toNat (F.SE_UND_PC_CLR.addr n) v
  if F.SE_UND_PC_CLR.of v = 1 then wr d (F.SE_UND_PC_CLR.addr n) 0 else d

/-- A write of SEn.STICKY (R272). -/
def writeSticky (w : BitVec 6) (n : Nat) (v : W24) (d : Dev) : Dev :=
  let d := regWrite d w.toNat (F.SE_STICKY_CLR.addr n) v
  if F.SE_STICKY_CLR.of v = 1 then setf d F.SE_STICKY_MISMATCH n 0 else d

/-- A write of a PKT_ECC register (R191): 16 is SU's. -/
def writePktEcc (w : BitVec 6) (n : Nat) (v : W24) (d : Dev) : Dev :=
  if n < 16 then
    let d := regWrite d w.toNat (F.SE_PKT_ECC_CLR.addr n) v
    if F.SE_PKT_ECC_CLR.of v = 1 then setf (setf d F.SE_PKT_ECC_UECNT n 0) F.SE_PKT_ECC_CECNT n 0 else d
  else
    let d := regWrite d w.toNat A.SU_PKT_ECC v
    if F.SU_PKT_ECC_CLR.of v = 1 then setf (setf d F.SU_PKT_ECC_UECNT 0 0) F.SU_PKT_ECC_CECNT 0 0 else d

/-! ## Commands -/

/-- LOAD_DATA_ARRIVAL (R92). -/
def execLoadDataArrival (c : Fin 19) (r : BitVec 7) (s : State) : Host.Outcome State Fault Refusal :=
  .next (s.act fun d => dataArrival d c.val r.toNat)

/-- ENGINE_RUN (R69). -/
def execEngineRun (s : State) : Host.Outcome State Fault Refusal := .next (s.act engineRun)

/-- BUS_OUTPUT_STAGE (R45, R242). -/
def execBusOutputStage (s : State) : Host.Outcome State Fault Refusal := .next (s.act outputStage)

/-- CUT_OFF_POINT (R40). -/
def execCutOffPoint (s : State) : Host.Outcome State Fault Refusal := .next (s.act cutOffPoint)

/-- SE_ENABLE_WRITE (R134). -/
def execSeEnableWrite (w : BitVec 6) (n : Fin 16) (v : W24) (s : State) : Host.Outcome State Fault Refusal :=
  .next (s.write w (F.SE_ENG_CTRL_ENABLE.addr n) v (writeEngCtrl w n.val v))

/-- OVR_STAT_REOPEN (R43). -/
def execOvrStatReopen (w : BitVec 6) (n : Fin 16) (v : W24) (s : State) : Host.Outcome State Fault Refusal :=
  .next (s.write w (F.SE_OVR_STAT_CLR.addr n) v (writeOvrStat w n.val v))

/-- OVR_STAT_CLR (R45). -/
def execOvrStatClr (w : BitVec 6) (n : Fin 16) (v : W24) (s : State) : Host.Outcome State Fault Refusal :=
  .next (s.write w (F.SE_OVR_STAT_CLR.addr n) v (writeOvrStat w n.val v))

/-- DUET_CLASH_CLR (R129). -/
def execDuetClashClr (w : BitVec 6) (n : Fin 18) (v : W24) (s : State) : Host.Outcome State Fault Refusal :=
  .next (s.write w (clashAddr n) v (writeClash w n.val v))

/-- UND_PC_CLR (R135). -/
def execUndPcClr (w : BitVec 6) (n : Fin 16) (v : W24) (s : State) : Host.Outcome State Fault Refusal :=
  .next (s.write w (F.SE_UND_PC_CLR.addr n) v (writeUndPc w n.val v))

/-- STICKY_CLR (R272). -/
def execStickyClr (w : BitVec 6) (n : Fin 16) (v : W24) (s : State) : Host.Outcome State Fault Refusal :=
  .next (s.write w (F.SE_STICKY_CLR.addr n) v (writeSticky w n.val v))

/-- PKT_ECC_CLR (R191). -/
def execPktEccClr (w : BitVec 6) (n : Fin 17) (v : W24) (s : State) : Host.Outcome State Fault Refusal :=
  .next (s.write w (pktEccAddr n) v (writePktEcc w n.val v))

end Sys2Proof.Machine
end

