-- ==== Sys2Proof/Machine/Clock.lean ====
section
/-!
DEFINITION. How TIME counts (R327, R328), to a tick edge, to a second, or to the instant of a command within a tick.
`Time.frac` counts units of 2^-32 ns; one period of LP0 adds a fifth of 2^34 + RATE such units.
-/
namespace Sys2Proof.Machine

/-- A second in units of 2^-32 ns. -/
abbrev secUnits : Nat := 1000000000 * 2 ^ 32

/-- TIME in whole nanoseconds within its second. -/
def timeNs (d : Dev) : Nat := d.time.frac / 2 ^ 32

/-- TIME in nanoseconds. -/
def nowNs (d : Dev) : Nat := d.time.sec * 1000000000 + timeNs d

/-- TIME in units of 2^-32 ns. -/
def nowUnits (d : Dev) : Nat := d.time.sec * secUnits + d.time.frac

/-- What one period of LP0 adds, in fifths of a unit (R327). -/
def timeStep (d : Dev) : Nat := ((2 ^ 34 : Int) + sfld d F.TIME_RATE_RATE 0).toNat

/-- TIME counts `n` periods of LP0 (R327), in steps of 8 of them while COARSE = 1 (R328): the whole seconds it passed,
and the machine. The governor's settle interval runs with it. -/
def timeCount (d : Dev) (n : Nat) : Nat × Dev :=
  let t := d.time
  let coarse := flag d F.TIME_CTRL_COARSE 0
  let fifths := t.fifth + (if coarse then (t.sub + n) / 8 * 8 else n) * timeStep d
  let frac := t.frac + fifths / 5
  let s := frac / secUnits
  let t := { t with sec := (t.sec + s) % 2 ^ 48, frac := frac % secUnits, fifth := fifths % 5
                    sub := if coarse then (t.sub + n) % 8 else 0 }
  (s, govTime { d with time := t } n)

/-- The periods of LP0 after which TIME first stands in its next second. -/
def toSecond (d : Dev) : Nat :=
  let k := timeStep d
  let n := ((secUnits - d.time.frac) * 5 - d.time.fifth + k - 1) / k
  if flag d F.TIME_CTRL_COARSE 0 then (n + 7) / 8 * 8 - d.time.sub else n

/-- TIME counts on to the instant of a command that reads or changes its counting. How far into the tick that lies is
open, short of the next second, which has its own command (notes/assumptions/43). -/
def timeWithin (d : Dev) : Dev :=
  let (u, d) := freshWord d
  let room := satTo (65536 - d.time.ahead) (toSecond d)
  let n := if room = 0 then 0 else u.toNat % room
  let (_, d) := timeCount d n
  { d with time := { d.time with ahead := d.time.ahead + n } }

end Sys2Proof.Machine
end

