-- ==== Sys2Proof/Machine/Ramp.lean ====
section
/-!
DEFINITION. The ramp unit (R228 to R232).
-/
namespace Sys2Proof.Machine

/-- Ramp slot `n`. -/
def ramp (d : Dev) (n : Nat) : Ramp := Tab.get {} d.ramps n

/-- Slots that ramp, ascending. -/
def rampsActive (d : Dev) : List Nat := (d.ramps.filter fun r => r.2.active).map (·.1)

/-- Ramp slot `n` replaced; its register shows ACTIVE and REMAIN, and RAMP.STAT the slots that ramp. A unit that drains
is OFF once none does (R232). -/
def setRamp (d : Dev) (n : Nat) (r : Ramp) : Dev :=
  let d := { d with ramps := Tab.set {} d.ramps n r }
  let d := setf d F.RAMPN_GO_ACTIVE n (b1 r.active)
  let d := setf d F.RAMPN_GO_REMAIN n (if r.active then r.len - r.step else 0)
  let k := (rampsActive d).length
  let d := setf d F.RAMP_STAT_ACTIVE 0 k
  if fld d F.RAMP_CTRL_STATUS 0 = 2 && k = 0 then setf d F.RAMP_CTRL_STATUS 0 0 else d

/-- 65,536 × log2 of a positive number, to nearest (R231). -/
def log2Scaled (m : Nat) : Int := Real.rndAway (65536 * Real.ln m 0) Real.ln2

/-- 2^(l / 65536), to nearest, for l of 0 or more (R231). -/
def pow2Scaled (l : Nat) : Int :=
  Real.rndAway ((2 ^ (l / 65536 + 1) * Real.expNeg ((65536 - l % 65536) * Real.ln2 / 65536) : Nat) : Int) Real.one

/-- `m`, or 1 for 0. -/
def atLeast1 (m : Nat) : Nat := if m = 0 then 1 else m

/-- The value of step `i` of `len` from `s` to `t` (R231). -/
def rampValue (db : Bool) (s t : Int) (i len : Nat) : Int :=
  if i = len then t
  else if !db || (s < 0 && t > 0) || (s > 0 && t < 0) then s + Real.rndAway ((t - s) * i) len
  else if s = 0 && t = 0 then 0
  else
    let la := log2Scaled (atLeast1 s.natAbs)
    let lb := log2Scaled (atLeast1 t.natAbs)
    let v := pow2Scaled (la + Real.rndAway ((lb - la) * i) len).toNat
    if t < 0 || (t = 0 && s < 0) then -v else v

/-- Slot `n` starts a ramp to what its live registers say (R229, R230), or stops where it stands with EN = 0. A start
is refused and counted while the unit does not run (R232). -/
def rampStart (d : Dev) (n : Nat) : Dev :=
  let old := ramp d n
  if !flag d F.RAMPN_CFG_EN n then setRamp d n { old with active := false }
  else if fld d F.RAMP_CTRL_STATUS 0 ≠ 1 then inc d F.RAMP_STAT_REFUSED 0
  else
    let addr := fld d F.RAMPN_CFG_ADDR_HI n * 2 ^ 24 + fld d F.RAMPN_ADDR_ADDR_LO n
    let start := if old.active && old.addr = addr then (if old.wrote then some old.last else old.start) else none
    setRamp d n
      { active := true, addr := addr, start := start, last := old.last, wrote := false, step := 0
        len := atLeast1 (fld d F.RAMPN_CFG_LEN n), target := sfld d F.RAMPN_TARGET_TARGET n
        db := flag d F.RAMPN_CFG_SHAPE n }

/-- A value of R231 as the word holds it. Near the top of the range the DB law gives one more than R228's greatest value,
and no rule says what is written there: the word is a free value (DESIGN CHOICE, notes/assumptions/57). -/
def rampWord (d : Dev) (v : Int) : Int × Dev :=
  if -8388608 ≤ v && v ≤ 8388607 then (v, d) else let (u, d) := freshWord d; (u.toInt, d)

/-- One step of slot `n` (R228, R229, R231). -/
def rampStep (d : Dev) (n : Nat) : Dev :=
  let r := ramp d n
  if !r.active then d
  else
    let (s, d) := match r.start with
      | some s => (s, d)
      | none => let (v, _, d) := mktRead d 27 r.addr; (v.toInt, d)
    let i := r.step + 1
    let (v, d) := rampWord d (rampValue r.db s r.target i r.len)
    let d := mktWrite d 27 r.addr (w24i v)
    setRamp d n { r with start := some s, last := v, wrote := true, step := i, active := decide (i < r.len) }

/-- Phase 3: every active slot in ascending order (R228). -/
def rampPhase (d : Dev) : Dev := if d.house.engStop then d else forAll (rampsActive d) rampStep d

/-- The registers of slot `n` that R230 compares. -/
def rampWords (d : Dev) (n : Nat) : List W24 :=
  [rd d (F.RAMPN_ADDR_ADDR_LO.addr n), rd d (F.RAMPN_CFG_EN.addr n), rd d (F.RAMPN_TARGET_TARGET.addr n)]

/-- Slot `n`'s next copies made live (R230). -/
def rampLive (d : Dev) (n : Nat) : Dev :=
  forAll [F.RAMPN_ADDR_ADDR_LO.addr n, F.RAMPN_CFG_EN.addr n, F.RAMPN_TARGET_TARGET.addr n]
    (fun d a => wr d a (nrd d a)) d

/-- A write of RAMPn.GO (R230). -/
def writeRampGo (w : BitVec 6) (n : Nat) (v : W24) (d : Dev) : Dev :=
  let d := regWrite d w.toNat (F.RAMPN_GO_GO.addr n) v
  if F.RAMPN_GO_GO.of v = 1 then rampStart (rampLive d n) n else d

/-- A write of RAMP.CTRL (R232). -/
def writeRampCtrl (w : BitVec 6) (v : W24) (d : Dev) : Dev :=
  let d := regWrite d w.toNat A.RAMP_CTRL v
  if flag d F.RAMP_CTRL_ENABLE 0 then setf d F.RAMP_CTRL_STATUS 0 1
  else if fld d F.RAMP_CTRL_STATUS 0 = 1 then
    setf d F.RAMP_CTRL_STATUS 0 (if (rampsActive d).isEmpty then 0 else 2)
  else d

/-- A write of RAMP.STAT: CLR zeroes REFUSED (R232). -/
def writeRampStat (w : BitVec 6) (v : W24) (d : Dev) : Dev :=
  let d := regWrite d w.toNat A.RAMP_STAT v
  if F.RAMP_STAT_CLR.of v = 1 then setf d F.RAMP_STAT_REFUSED 0 0 else d

/-- RAMP_PHASE (R228). -/
def execRampPhase (s : State) : Host.Outcome State Fault Refusal := .next (s.act rampPhase)

/-- RAMP_GO (R230). -/
def execRampGo (w : BitVec 6) (n : BitVec 12) (v : W24) (s : State) : Host.Outcome State Fault Refusal :=
  .next (s.write w (F.RAMPN_GO_GO.addr n.toNat) v (writeRampGo w n.toNat v))

/-- RAMP_ENABLE_WRITE (R232). -/
def execRampEnableWrite (w : BitVec 6) (v : W24) (s : State) : Host.Outcome State Fault Refusal :=
  .next (s.write w A.RAMP_CTRL v (writeRampCtrl w v))

/-- RAMP_STAT_CLR (R232). -/
def execRampStatClr (w : BitVec 6) (v : W24) (s : State) : Host.Outcome State Fault Refusal :=
  .next (s.write w A.RAMP_STAT v (writeRampStat w v))

end Sys2Proof.Machine
end

