-- ==== Sys2Proof/Machine/Image.lean ====
section
/-!
DEFINITION. The Sprinan image (R202 to R209): bytes in the Market, the checks of R210 and R473, and the write pass of
R212.
-/
namespace Sys2Proof.Machine

/-! ## Bytes -/

/-- Byte `j` of words packed three to a word (R202). -/
def byteOf (v : W24) (j : Nat) : Byte := v.extractLsb' (8 * (j % 3)) 8

/-- A word from three bytes, least significant first (R202). -/
def word3 (a b c : Byte) : W24 := c ++ b ++ a

/-- Bytes packed three to a word, the last word padded with zeros (R202). -/
def pack3 : List Byte → List W24
  | a :: b :: c :: t => word3 a b c :: pack3 t
  | [a, b] => [word3 a b 0]
  | [a] => [word3 a 0 0]
  | [] => []

/-- A little-endian number of `n` bytes at `off`. -/
def leAt (l : List Byte) (off n : Nat) : Nat :=
  ((l.drop off).take n).foldr (fun b x => x * 256 + b.toNat) 0

/-- Bytes `lo` to `hi - 1` are all zero. -/
def zeros (l : List Byte) (lo hi : Nat) : Bool := ((l.drop lo).take (hi - lo)).all (· == 0)

/-- One byte enters the CRC-32 register, reflected (R202). -/
def crc32Byte (r : BitVec 32) (b : Byte) : BitVec 32 :=
  (List.range 8).foldl (fun r _ => if r.getLsbD 0 then (r >>> 1) ^^^ 0xEDB88320 else r >>> 1) (r ^^^ b.zeroExtend 32)

/-- CRC-32 of IEEE 802.3 (R202). -/
def crc32 (l : List Byte) : Nat := (l.foldl crc32Byte 0xFFFFFFFF ^^^ 0xFFFFFFFF).toNat

/-- The Market word at `a` as a read returns it: zero where it is poisoned (R173). -/
def mktSeen (d : Dev) (a : Nat) : W24 :=
  let a := a % mktSize
  if poisoned (Tab.get 0 d.ecc a) || 2 ≤ ones (Tab.get 0 d.ecc a) then 0 else Tab.get 0 d.mkt a

/-- Bytes `off` to `off + n - 1` of the slot at `base`, as reads return them. -/
def slotBytes (d : Dev) (base off n : Nat) : List Byte :=
  (List.range n).map fun i => byteOf (mktSeen d (base + (off + i) / 3)) (off + i)

/-- The first of two numbers there may be. -/
def firstOf : Option Nat → Option Nat → Option Nat
  | some a, _ => some a
  | none, b => b

/-- The words that hold these bytes are read by porter `m`: the first that was poisoned, by its place in the slot, and the
machine after. -/
def touch (d : Dev) (m base off n : Nat) : Option Nat × Dev :=
  if n = 0 then (none, d)
  else
    (List.range ((off + n - 1) / 3 - off / 3 + 1)).foldl
      (fun (p, d) i =>
        let (_, bad, d) := mktRead d m (base + off / 3 + i)
        (firstOf p (if bad then some (off / 3 + i) else none), d)) (none, d)

/-! ## Results (CUE.LOAD) -/

/-- RESULT codes of CUE.LOAD. -/
inductive LoadResult where
  | ok | badHdr | badSig | badSect | badRate | budget | depth | badEntry | poison | mismatch | refused | wrongId
deriving DecidableEq, Repr

/-- The RESULT field's value. -/
def LoadResult.code : LoadResult → Nat
  | .ok => 1 | .badHdr => 2 | .badSig => 3 | .badSect => 4 | .badRate => 5 | .budget => 6 | .depth => 7
  | .badEntry => 8 | .poison => 9 | .mismatch => 10 | .refused => 11 | .wrongId => 12

/-! ## Sections -/

/-- One entry of the section table (R204). -/
structure Section where
  type : Nat
  inst : Nat
  rsv : Nat
  off : Nat
  len : Nat
  crc : Nat
deriving DecidableEq, Repr

/-- The section table of `n` entries. -/
def sectionsOf (table : List Byte) (n : Nat) : List Section :=
  (List.range n).map fun i =>
    let e := table.drop (16 * i)
    { type := leAt e 0 1, inst := leAt e 1 1, rsv := leAt e 2 2, off := leAt e 4 4, len := leAt e 8 4, crc := leAt e 12 4 }

/-- L of a header (R203). -/
def hdrLen (h : List Byte) : Nat := leAt h 8 4

/-- S of a header. -/
def hdrCount (h : List Byte) : Nat := leAt h 14 2

/-- SIGNED. -/
def hdrSigned (h : List Byte) : Bool := leAt h 13 1 % 2 = 1

/-- TRANSITION. -/
def hdrTransition (h : List Byte) : Bool := leAt h 13 1 / 2 % 2 = 1

/-- The image ID. -/
def hdrId (h : List Byte) : Nat := leAt h 16 4

/-- L and S are in range (R203, R473). -/
def rangesOk (h : List Byte) : Bool :=
  1 ≤ hdrCount h && hdrCount h ≤ 64 && 64 + 16 * hdrCount h ≤ hdrLen h && hdrLen h ≤ 16777216

/-- The checks of order 1 that R217 names: those of the header alone. -/
def headerOk (h : List Byte) : Bool :=
  h.take 4 == [0x53, 0x50, 0x52, 0x4E] && leAt h 4 2 == 1 && leAt h 6 2 == 64 && crc32 (h.take 60) == leAt h 60 4
    && rangesOk h && leAt h 12 1 ≤ 3 && hdrId h != 0 && zeros h 30 56

/-- The rest of order 1 within the header: flags, Ikimal version, TRANSITION fields (R203). -/
def headerRest (h : List Byte) : Bool :=
  leAt h 13 1 < 4 && leAt h 28 1 * 256 + leAt h 29 1 ≤ 256 &&
    (if hdrTransition h then leAt h 20 4 != 0 && 1 ≤ leAt h 24 4 && leAt h 24 4 ≤ 0xFFFFFF
     else leAt h 20 4 == 0 && leAt h 24 4 == 0)

/-- The end of the section bodies (R204). -/
def bodyEnd (h : List Byte) : Nat := if hdrSigned h then hdrLen h - 192 else hdrLen h

/-- The section's type and instance are assigned (R205). -/
def typeOk (s : Section) : Bool :=
  match s.type with
  | 1 => s.inst ≤ 16
  | 2 | 3 | 4 | 5 | 6 | 7 | 8 => s.inst == 0
  | 9 => s.inst ≤ 15
  | _ => false

/-- Two sections of which only one is allowed (R205). -/
def sameOnce (s t : Section) : Bool :=
  (s.type == 1 && t.type == 1 && s.inst == t.inst) || (2 ≤ s.type && s.type ≤ 7 && s.type == t.type)

/-- Two bodies overlap (R204). -/
def overlap (s t : Section) : Bool := 0 < s.len && 0 < t.len && s.off < t.off + t.len && t.off < s.off + s.len

/-- The body lies where R204 allows. -/
def boundsOk (h : List Byte) (s : Section) : Bool :=
  s.off % 4 == 0 && 64 + 16 * hdrCount h ≤ s.off && s.off + s.len ≤ bodyEnd h

/-- The layout of a program section (R206, R210 order 3). -/
def programOk (b : List Byte) : Bool :=
  12 ≤ b.length && 1 ≤ leAt b 0 4 && leAt b 0 4 ≤ 16384 && b.length == 12 + 4 * leAt b 0 4 && zeros b 9 12

/-- The words of an entry of a table section (R207); `none` for a section that is no table. -/
def tableWords : Nat → Option Nat
  | 2 => some 3 | 3 => some 4 | 4 => some 3 | 5 => some 8 | 6 => some 1 | _ => none

/-- The index range of a table (R207). -/
def tableSize (double : Bool) : Nat → Nat
  | 2 | 4 => 4096
  | 3 => if double then 256 else 512
  | 5 => 2048
  | _ => 8192

/-- The address of word `j` of entry `i` of a table (R207). -/
def tableAddr (type i j : Nat) : Nat :=
  match type with
  | 2 => 0x044000 + 4 * i + j
  | 3 => 0x029000 + 4 * i + j
  | 4 => 0x030000 + 4 * i + j
  | 5 => 0x034000 + 8 * i + j
  | _ => 0x018000 + i

/-- Pieces of a body after its count (R207, R208). -/
def chunks (k n : Nat) (b : List Byte) : List (List Byte) := (List.range n).map fun i => (b.drop (4 + k * i)).take k

/-- Numbers rise strictly. -/
def rising : List Nat → Bool
  | a :: b :: t => a < b && rising (b :: t)
  | _ => true

/-- A section's entries pass order 7 (R207 to R209); program sections have none. -/
def entriesOk (double : Bool) (s : Section) (b : List Byte) : Bool :=
  match tableWords s.type with
  | some w =>
    let c := leAt b 0 2
    let es := chunks (3 + 3 * w) c b
    b.length == 4 + c * (3 + 3 * w) && zeros b 2 4 && rising (es.map fun e => leAt e 0 2)
      && es.all fun e => leAt e 0 2 < tableSize double s.type && (if s.type = 2 then leAt e 2 1 ≤ 1 else leAt e 2 1 == 0)
  | none =>
    if s.type = 7 then
      let c := leAt b 0 2
      let es := chunks 12 c b
      c ≤ 16384 && b.length == 4 + 12 * c && zeros b 2 4 && rising (es.map fun e => leAt e 0 2)
        && es.all fun e => leAt e 0 2 ≤ 16383 && zeros e 9 12
          && (leAt e 5 2 ≤ 1023 || leAt e 5 2 == 0xFFFF) && (leAt e 7 2 ≤ 1023 || leAt e 7 2 == 0xFFFF)
    else if s.type = 8 then
      8 ≤ b.length && leAt b 0 4 < mktSize && 1 ≤ leAt b 4 4 && b.length == 8 + 3 * leAt b 4 4
        && leAt b 0 4 + leAt b 4 4 ≤ mktSize
    else if s.type = 9 then
      8 ≤ b.length && leAt b 0 2 < 16384 && zeros b 2 4 && 1 ≤ leAt b 4 4 && b.length == 8 + 3 * leAt b 4 4
        && leAt b 0 2 + leAt b 4 4 ≤ 16384
    else true

/-- The 24-bit words of a data section or table entry. -/
def wordsOf (b : List Byte) (off : Nat) : List W24 := pack3 (b.drop off)

/-! ## The check pass (R210, R473) -/

/-- A failed check: its result and the section it names, 127 for none. -/
abbrev Failure := LoadResult × Nat

/-- The first failure in a list of checks. -/
def firstFailure : List (Option Failure) → Option Failure
  | [] => none
  | some f :: _ => some f
  | none :: t => firstFailure t

/-- A failure where a condition does not hold. -/
def failUnless (ok : Bool) (r : LoadResult) (sect : Nat) : Option Failure := if ok then none else some (r, sect)

/-- The sections with their numbers. -/
def numbered (ss : List Section) : List (Section × Nat) := ss.zipIdx

/-- Order 2 (R210, R211). -/
def sigOk (req : Bool) (h image : List Byte) : Bool :=
  if req || hdrSigned h then
    let n := hdrLen h
    let key := (image.drop (n - 192)).take 96
    hdrSigned h && decide (192 ≤ n) && sha384 key == Config.fuseKeyHash
      && ecdsaVerify key (sha384 (image.take (n - 96))) (image.drop (n - 96))
  else true

/-- Order 3 for section `i` (R204 to R206, R210). -/
def sectionOk (h : List Byte) (ss : List Section) (body : Section → List Byte) (s : Section) (i : Nat) : Bool :=
  let before := ss.take i
  typeOk s && s.rsv == 0 && boundsOk h s && !(before.any (sameOnce s)) && !(before.any (overlap s))
    && crc32 (body s) == s.crc && (s.type != 1 || programOk (body s))

/-- Orders 3 to 7 over the bodies. -/
def bodyFailure (rate : Nat) (h : List Byte) (ss : List Section) (body : Section → List Byte) : Option Failure :=
  let ns := numbered ss
  let double := 2 ≤ leAt h 12 1
  let budget (s : Section) : Nat := if s.inst = 16 then 512 else if double then 7168 else 16384
  firstFailure
    (ns.map (fun (s, i) => failUnless (sectionOk h ss body s i) .badSect i)
      ++ [failUnless (ss.any fun s => s.type == 7) .badSect 127, failUnless (leAt h 12 1 % 2 == rate % 2) .badRate 127]
      ++ ns.map (fun (s, i) => failUnless (s.type != 1 || leAt (body s) 4 4 ≤ budget s) .budget i)
      ++ ns.map (fun (s, i) => failUnless (s.type != 1 || leAt (body s) 8 1 ≤ 12) .depth i)
      ++ ns.map (fun (s, i) => failUnless (entriesOk double s (body s)) .badEntry i))

/-- The bytes of instruction words in program space. -/
def progBytes (t : Tab W32) (p n : Nat) : List Byte :=
  (List.range n).flatMap fun i => leBytes 4 (Tab.get 0x07900000 t (p * 16384 + i)).toNat

/-- Order 9 (R210): the wings hold each program section's words, and END above them. -/
def verifyFailure (d : Dev) (ss : List Section) (body : Section → List Byte) : Option Failure :=
  firstFailure ((numbered ss).map fun (s, i) =>
    let n := leAt (body s) 0 4
    failUnless (s.type != 1
      || (crc32 ((body s).take 12 ++ progBytes d.wings s.inst n) == s.crc
          && (keysIn d.wings (s.inst * 16384 + n) ((s.inst + 1) * 16384)).isEmpty)) .mismatch i)

/-- The section whose body holds a byte of word `w` of the slot, 127 for none (CUE.LOAD's SECT). -/
def sectionOfWord (ss : List Section) (w : Nat) : Nat :=
  match (numbered ss).find? fun (s, _) => 0 < s.len && s.off / 3 ≤ w && w ≤ (s.off + s.len - 1) / 3 with
  | some (_, i) => i
  | none => 127

/-- The check pass of a load or verify of the slot at `base` (R210, R473): the failure, the header, the section table,
and the machine after its reads, which are of the header, the section table, and then the rest of the image, bytes outside
every body among it. -/
def checkPass (d : Dev) (m base : Nat) (verify : Bool) (follow : Option Nat) :
    Option Failure × List Byte × List Byte × Dev :=
  let (p0, d) := touch d m base 0 64
  let h := slotBytes d base 0 64
  if !rangesOk h then (some (.badHdr, 127), h, [], d)
  else
    let (p1, d) := touch d m base 64 (16 * hdrCount h)
    let table := slotBytes d base 64 (16 * hdrCount h)
    let ok1 := headerOk h && headerRest h && crc32 table == leAt h 56 4
    if !ok1 then (some (.badHdr, 127), h, table, d)
    else
      match follow with
      | some id => if hdrId h ≠ id then (some (.wrongId, 0), h, table, d) else
        let (f, d) := checkBodies d m base verify h table (firstOf p0 p1); (f, h, table, d)
      | none => let (f, d) := checkBodies d m base verify h table (firstOf p0 p1); (f, h, table, d)
where
  /-- Orders 2 to 9. `p` is the first poisoned word already read. -/
  checkBodies (d : Dev) (m base : Nat) (verify : Bool) (h table : List Byte) (p : Option Nat) : Option Failure × Dev :=
    let ss := sectionsOf table (hdrCount h)
    let (q, d) := touch d m base (64 + 16 * hdrCount h) (hdrLen h - (64 + 16 * hdrCount h))
    let body (s : Section) : List Byte := slotBytes d base s.off s.len
    let image := if flag d F.CUE_CTRL_SIGREQ 0 || hdrSigned h then slotBytes d base 0 (hdrLen h) else []
    let f := firstFailure
      [failUnless (sigOk (flag d F.CUE_CTRL_SIGREQ 0) h image) .badSig 127,
       bodyFailure (fld d F.TICK_RATE_RATE 0) h ss body,
       (firstOf p q).map fun w => (LoadResult.poison, sectionOfWord ss w),
       (if verify then verifyFailure d ss body else none)]
    (f, d)

/-! ## The write pass (R212) -/

/-- Words `lo` to `hi - 1` of position `p` in a program store become END. -/
def emptyStore (t : Tab W32) (p lo hi : Nat) : Tab W32 :=
  t.filter fun e => !(p * 16384 + lo ≤ e.1 && e.1 < p * 16384 + hi)

/-- A program section in the wings (R206). -/
def putProgram (d : Dev) (p : Nat) (b : List Byte) : Dev :=
  let n := leAt b 0 4
  let t := (List.range n).foldl
    (fun t i => Tab.set 0x07900000 t (p * 16384 + i) (BitVec.ofNat 32 (leAt b (12 + 4 * i) 4)))
    (emptyStore d.wings p 0 16384)
  { d with wings := t }

/-- The built-in known-answer program in the wings of position 16, with its signature (R201, R212;
notes/assumptions/14). -/
def putBuiltin (d : Dev) : Dev :=
  let t := (List.range 512).foldl
    (fun t i => Tab.set 0x07900000 t (16 * 16384 + i) (Config.builtinKat i)) (emptyStore d.wings 16 0 16384)
  setn { d with wings := t } F.SU_KAT_SIG_SIG 0 (fld d F.SU_KAT_BUILTIN_SIG 0)

/-- The RWC fields of one register word go to its next copy (R207); an unassigned value is posted under the identity of the
porter, `m` (R441). -/
def putNext (m : Nat) (d : Dev) (a : Nat) (v : W24) : Dev :=
  match RegMap.lookup a with
  | none => d
  | some r =>
    let (x, bad) := wordWrite r true (nrd d a) v
    let d := nwr d a x
    if bad then post d 0x01 m a v.toNat else d

/-- A table section's words go to the next copies (R207). -/
def putTable (d : Dev) (m type w : Nat) (b : List Byte) : Dev :=
  (chunks (3 + 3 * w) (leAt b 0 2) b).foldl
    (fun d e => (wordsOf e 3).zipIdx.foldl (fun d (v, j) => putNext m d (tableAddr type (leAt e 0 2) j) v) d) d

/-- A section copied by the write pass. A verify leaves the program sections as they stand. -/
def putSection (d : Dev) (m : Nat) (verify : Bool) (s : Section) (b : List Byte) : Dev :=
  match tableWords s.type with
  | some w => putTable d m s.type w b
  | none =>
    if s.type = 1 then (if verify then d else putProgram d s.inst b)
    else if s.type = 8 then mktWriteN d m (leAt b 0 4) ((wordsOf b 8).take (leAt b 4 4))
    else if s.type = 9 then
      (((wordsOf b 8).take (leAt b 4 4)).zipIdx).foldl (fun d (v, i) => pktWrite d (pktKey s.inst (leAt b 0 2 + i)) v) d
    else d

/-- The write pass over the sections from number `i` (R212, R213): each body is read a second time, and written only if what
was read carries its CRC. Answers the section that fails, if any, and the bodies as copied. -/
def writeSections (m base : Nat) (verify : Bool) :
    List Section → Nat → List (Section × List Byte) → Dev → Option Nat × List (Section × List Byte) × Dev
  | [], _, got, d => (none, got, d)
  | s :: t, i, got, d =>
    let (_, d) := touch d m base s.off s.len
    let b := slotBytes d base s.off s.len
    if crc32 b == s.crc then writeSections m base verify t (i + 1) (got ++ [(s, b)]) (putSection d m verify s b)
    else (some i, got, d)

/-- Positions with no program section are emptied (R201, R212). -/
def emptyRest (d : Dev) (ss : List Section) : Dev :=
  let none_ (p : Nat) : Bool := !(ss.any fun s => s.type == 1 && s.inst == p)
  let d := forAll ((List.range 16).filter none_) (fun d p => { d with wings := emptyStore d.wings p 0 16384 }) d
  if none_ 16 then putBuiltin d else d

/-- The windows whose HEADZ an image sets (R207, R471), by its sections as copied. -/
def headzOf (got : List (Section × List Byte)) : List Nat :=
  got.flatMap fun (s, b) =>
    if s.type = 2 then
      ((chunks 12 (leAt b 0 2) b).filter fun e => leAt e 2 1 % 2 = 1).map fun e => leAt e 0 2
    else []

/-- The path table of an image (R208), by its sections as copied. -/
def pathsOf (got : List (Section × List Byte)) : List Path :=
  got.flatMap fun (s, b) =>
    if s.type = 7 then
      (chunks 12 (leAt b 0 2) b).map fun e =>
        { num := leAt e 0 2, lat := leAt e 2 3, rx := leAt e 5 2, tx := leAt e 7 2 }
    else []

end Sys2Proof.Machine
end

