-- ==== Sys2Proof/Machine/Cue.lean ====
section
/-!
DEFINITION. The cue unit (R199 to R201, R211 to R227, R471): loads, the cue sheet, the cue point.
-/
namespace Sys2Proof.Machine

/-! ## The cue sheet's views -/

/-- Entry `n` as submitted. -/
def cueEntry (d : Dev) (n : Nat) : CueEntry := Tab.get {} d.cue.entries n

/-- STATE of entry `n`: 0 EMPTY, 1 PENDING, 2 ARMED, 3 FOLLOW, 4 DONE, 5 CANCELLED. -/
def cueState (d : Dev) (n : Nat) : Nat := fld d F.CUEN_STATE_STATE n

/-- Entry `n` changes state; CTL.VALID reads 1 while it is PENDING, ARMED or FOLLOW. -/
def setCueState (d : Dev) (n st : Nat) : Dev :=
  setf (setf d F.CUEN_STATE_STATE n st) F.CUEN_CTL_VALID n (b1 (1 ≤ st && st ≤ 3))

/-- Entry `n` becomes CANCELLED (R220). -/
def cueCancel (d : Dev) (n cause : Nat) : Dev :=
  post (setf (setCueState d n 5) F.CUEN_STATE_CAUSE n cause) 0x34 n n cause

/-- The numbers of the entries. -/
def cueNumbers : List Nat := List.range 64

/-- The slot of a submitted entry. -/
def entrySlot (e : CueEntry) : Nat := F.CUEN_CTL_SLOT.of e.ctl

/-- The final slot of a submitted entry. -/
def entryFslot (e : CueEntry) : Nat := F.CUEN_CTL_FSLOT.of e.ctl

/-- MODE is XFADE. -/
def entryXfade (e : CueEntry) : Bool := F.CUEN_CTL_MODE.of e.ctl = 1

/-- NOW. -/
def entryNow (e : CueEntry) : Bool := F.CUEN_CTL_NOW.of e.ctl = 1

/-- Entry `a` is due before entry `b` (R216). Within one nanosecond a NOW entry, submitted in it, stands behind a timed one,
which is due as it begins, and behind an earlier submission. -/
def dueBefore (a b : CueEntry) : Bool :=
  a.sec < b.sec || (a.sec = b.sec && (a.ns < b.ns || (a.ns = b.ns && a.seq < b.seq)))

/-- The entry's time is reached (R216). -/
def dueReached (d : Dev) (e : CueEntry) : Bool :=
  e.sec < d.time.sec || (e.sec = d.time.sec && e.ns ≤ timeNs d)

/-- The head (R216): an entry in FOLLOW, else the earliest due, the lowest number among equals. -/
def cueHead (d : Dev) : Option Nat :=
  match cueNumbers.find? fun n => cueState d n = 3 with
  | some n => some n
  | none =>
    cueNumbers.foldl
      (fun h n =>
        if cueState d n = 1 || cueState d n = 2 then
          match h with
          | none => some n
          | some m => if dueBefore (cueEntry d n) (cueEntry d m) then some n else h
        else h) none

/-- The wings validly hold a slot. -/
def wingsHold (d : Dev) (slot : Nat) : Bool := flag d F.CUE_WINGS_VALID 0 && fld d F.CUE_WINGS_SLOT 0 = slot

/-- The ID of the image in the wings. -/
def wingsId (d : Dev) : Nat := fld d F.CUE_WINGS_ID_HI 0 * 2 ^ 24 + fld d F.CUE_WINGS_ID_ID_LO 0

/-- The base of slot `n`. -/
def slotBase (d : Dev) (n : Nat) : Nat := fld d F.CUE_SLOT_HI_BASE n * 2 ^ 24 + fld d F.CUE_SLOT_LO_BASE n

/-- The porter that loads read through (R210). -/
def loadMaster (d : Dev) : Nat := 28 + fld d F.CUE_CTRL_LPORT 0

/-! ## Arming (R217) -/

/-- The XFADE condition of R217: the machine after the header of FSLOT is read, and whether it holds. -/
def xfadeOk (d : Dev) (e : CueEntry) : Bool × Dev :=
  if !d.cue.wings.transition then (false, d)
  else
    let base := slotBase d (entryFslot e)
    let (p, d) := touch d (loadMaster d) base 0 64
    let h := slotBytes d base 0 64
    (p.isNone && headerOk h && hdrId h = d.cue.wings.followId, d)

/-- STAT shows the head; an ARMED entry that is not the head, or whose slot the wings no longer hold, is PENDING. -/
def cueShow (d : Dev) : Dev :=
  let h := cueHead d
  let d := setf (setf d F.CUE_STAT_HEADV 0 (b1 h.isSome)) F.CUE_STAT_HEAD 0 (h.getD 0)
  forAll cueNumbers
    (fun d n =>
      if cueState d n = 2 && (h != some n || !wingsHold d (entrySlot (cueEntry d n))) then setCueState d n 1 else d) d

/-- The head is armed where it can be; an XFADE that fails is cancelled and the next head tried (R217). -/
def cueArm : Nat → Dev → Dev
  | 0, d => cueShow d
  | n + 1, d =>
    let d := cueShow d
    match cueHead d with
    | none => d
    | some h =>
      let e := cueEntry d h
      if cueState d h = 1 && wingsHold d (entrySlot e) then
        if entryXfade e then
          let (ok, d) := xfadeOk d e
          if ok then setCueState d h 2 else cueArm n (cueCancel d h 4)
        else setCueState d h 2
      else d

/-- A drained cue unit is OFF once no entry is in FOLLOW (R221). -/
def cueSettle (d : Dev) : Dev :=
  if fld d F.CUE_CTRL_STATUS 0 = 2 && !(cueNumbers.any fun n => cueState d n = 3) then setf d F.CUE_CTRL_STATUS 0 0
  else d

/-- The sheet after any change. -/
def cueUpdate (d : Dev) : Dev := cueSettle (cueArm 64 d)

/-! ## Loads (R210 to R214, R225) -/

/-- The check pass of the load or verify `j`, which is in progress. -/
def loadCheck (d : Dev) (j : LoadJob) : Dev :=
  let (f, h, table, d) := checkPass d j.master j.base j.verify (j.follow.map (·.2))
  let (r, s) := match f with | none => (1, 0) | some (r, s) => (r.code, s)
  { d with cue := { d.cue with job := some { j with result := r, sect := s, head := h, table := table, begun := true } } }

/-- A load that waits for its porter is served once the porter has no descriptor in progress (R385). -/
def loadBegin (d : Dev) : Dev :=
  match d.cue.job with
  | some j => if j.begun || (Tab.get none d.moves (j.master - 28)).isSome then d else loadCheck d j
  | none => d

/-- A load or verify of `slot` starts with its check pass, between two descriptors of the porter's ring (R385). -/
def startLoad (d : Dev) (slot : Nat) (verify : Bool) (follow : Option (Nat × Nat)) (entry : Option Nat) : Dev :=
  let j : LoadJob :=
    { slot := slot, base := slotBase d slot, verify := verify, follow := follow, entry := entry, master := loadMaster d
      result := 0, sect := 0, head := [], table := [], begun := false }
  loadBegin (setf { d with cue := { d.cue with job := some j } } F.CUE_LOAD_BUSY 0 1)

/-- The FSLOT load that waits starts once no other runs (R225 step 2). -/
def tryFollow (d : Dev) : Dev :=
  match d.cue.followLoad, d.cue.job with
  | some e, none =>
    let d := { d with cue := { d.cue with followLoad := none } }
    if cueState d e = 3 then
      startLoad d (entryFslot (cueEntry d e)) false (some (e, d.cue.stage.followId)) none
    else d
  | _, _ => d

/-- A load fails (R212, R217, R226): it was for the head if the head still names its slot. -/
def loadFails (d : Dev) (j : LoadJob) (result sect : Nat) : Dev :=
  let d := setf (setf (setf d F.CUE_WINGS_VALID 0 0) F.CUE_LOAD_RESULT 0 result) F.CUE_LOAD_SECT 0 sect
  let d := post { d with cue := { d.cue with headz := [] } } 0x35 j.slot j.slot result
  let d := match j.follow with
    | some (e, _) => if cueState d e = 3 then cueCancel d e 6 else d
    | none => d
  match j.entry with
  | some e =>
    if cueHead d = some e && (cueState d e = 1 || cueState d e = 2) && entrySlot (cueEntry d e) = j.slot then
      cueCancel d e 3
    else d
  | none => d

/-- A load succeeds (R212): the image is what its write pass copied. -/
def loadSucceeds (d : Dev) (j : LoadJob) (got : List (Section × List Byte)) : Dev :=
  let h := j.head
  let info : ImageInfo :=
    { followId := leAt h 20 4, followDelay := leAt h 24 4, transition := hdrTransition h, paths := pathsOf got
      full := 16 :: (got.filter fun s => s.1.type = 1).map (·.1.inst) }
  let d := { d with cue := { d.cue with wings := info, headz := headzOf got } }
  let d := setf (setf d F.CUE_WINGS_VALID 0 1) F.CUE_WINGS_SLOT 0 j.slot
  let d := setf (setf d F.CUE_WINGS_RATE 0 (leAt h 12 1)) F.CUE_WINGS_ID_HI 0 (hdrId h / 2 ^ 24)
  setf (setf (setf d F.CUE_WINGS_ID_ID_LO 0 (hdrId h)) F.CUE_LOAD_RESULT 0 1) F.CUE_LOAD_SECT 0 0

/-- The wings are no longer valid (R200, R214): armed cues are disarmed, and a follow-up's load starts again (R225
step 3). -/
def invalidateWings (d : Dev) : Dev :=
  let was := flag d F.CUE_WINGS_VALID 0
  let d := setf d F.CUE_WINGS_VALID 0 0
  let d := match cueHead d with
    | some e =>
      if was && cueState d e = 3 && d.cue.followLoad.isNone && (d.cue.job.bind (·.follow)).isNone then
        tryFollow { d with cue := { d.cue with followLoad := some e } }
      else d
    | none => d
  cueUpdate d

/-- A write of CUE.SLOTn takes effect (R214). -/
def slotWrite (w : BitVec 6) (a : Nat) (v : W24) (d : Dev) : Dev :=
  let d := regWrite d w.toNat a v
  if wingsHold d ((a - A.CUE_SLOT_LO) / 2) then invalidateWings d else d

/-- A write of CUE.SLOTn (R214): after a load of the slot that runs. -/
def writeCueSlot (w : BitVec 6) (n : Nat) (hi : Bool) (v : W24) (d : Dev) : Dev :=
  let a := A.CUE_SLOT_LO + 2 * n + b1 hi
  match d.cue.job with
  | some j =>
    if j.slot = n then { d with cue := { d.cue with slotWrites := d.cue.slotWrites ++ [(w, a, v)] } }
    else slotWrite w a v d
  | none => slotWrite w a v d

/-- A load or verify completes (R212): the write pass, the result, and what waited for it. One that its porter does not yet
serve does not. -/
def loadDone (d : Dev) : Dev :=
  let d := loadBegin d
  match d.cue.job with
  | none => d
  | some j =>
    if !j.begun then d else
    let held := d.cue.slotWrites
    let d := { d with cue := { d.cue with job := none, slotWrites := [] } }
    let d := setf d F.CUE_LOAD_BUSY 0 0
    let d :=
      if j.result ≠ 1 then loadFails d j j.result j.sect
      else
        let ss := sectionsOf j.table (hdrCount j.head)
        let (bad, got, d) := writeSections j.master j.base j.verify ss 0 [] d
        match bad with
        | some i => loadFails d j LoadResult.badSect.code i
        | none => loadSucceeds (emptyRest d ss) j got
    let d := held.foldl (fun d (w, a, v) => slotWrite w a v d) d
    cueUpdate (tryFollow d)

/-- A write of CUE.LOAD (R212): GO is refused while a load runs or AUTOLOAD = 1, and then nothing else changes. -/
def writeCueLoad (w : BitVec 6) (v : W24) (d : Dev) : Dev :=
  if F.CUE_LOAD_GO.of v = 1 then
    if flag d F.CUE_LOAD_BUSY 0 || flag d F.CUE_CTRL_AUTOLOAD 0 then
      setf (setf d F.CUE_LOAD_RESULT 0 LoadResult.refused.code) F.CUE_LOAD_SECT 0 0
    else
      let d := regWrite d w.toNat A.CUE_LOAD v
      startLoad d (F.CUE_LOAD_SLOT.of v) (F.CUE_LOAD_MODE.of v = 1) none none
  else regWrite d w.toNat A.CUE_LOAD v

/-- The cue unit starts a LOAD of the head's slot by itself (R217). -/
def autoload (d : Dev) : Dev :=
  match cueHead d with
  | some h =>
    let slot := entrySlot (cueEntry d h)
    if flag d F.CUE_CTRL_AUTOLOAD 0 && d.cue.job.isNone && cueState d h = 1 && !wingsHold d slot then
      startLoad d slot false none (some h)
    else d
  | none => d

/-! ## Submissions (R215, R226) -/

/-- A write of CUEn.CTL (R215, R226), TIME standing at its moment. -/
def writeCueCtl (w : BitVec 6) (n : Nat) (v : W24) (d : Dev) : Dev :=
  let valid := F.CUEN_CTL_VALID.of v = 1
  let st := cueState d n
  if st = 3 then (if valid then d else cueUpdate (cueCancel d n 1))
  else
    let d := regWrite d w.toNat (F.CUEN_CTL_VALID.addr n) v
    let d := setf d F.CUEN_CTL_VALID n (b1 (st = 1 || st = 2))
    if valid then
      let sec := fld d F.CUEN_SEC_HI_SEC n * 2 ^ 24 + fld d F.CUEN_SEC_LO_SEC n
      let ns := fld d F.CUEN_NS_HI_NS n * 2 ^ 24 + fld d F.CUEN_NS_LO_NS n
      let now := F.CUEN_CTL_NOW.of v = 1
      let d := setf (setf d F.CUEN_STATE_LATEFLAG n 0) F.CUEN_STATE_CAUSE n 0
      let bad := (!now && 1000000000 ≤ ns)
        || (F.CUEN_CTL_MODE.of v = 1 && F.CUEN_CTL_FSLOT.of v = F.CUEN_CTL_SLOT.of v)
      if bad then cueUpdate (cueCancel d n 5)
      else
        let e : CueEntry :=
          { ctl := v, sec := if now then d.time.sec else sec, ns := if now then timeNs d else ns
            seq := if now then d.cue.subs + 1 else 0 }
        let d := { d with cue := { d.cue with entries := Tab.set {} d.cue.entries n e, subs := d.cue.subs + b1 now } }
        cueUpdate (setCueState d n (if st = 2 && wingsHold d (entrySlot e) then 2 else 1))
    else if st = 1 || st = 2 then cueUpdate (cueCancel d n 1)
    else d

/-- A write of CUE.CTRL (R221). -/
def writeCueCtrl (w : BitVec 6) (v : W24) (d : Dev) : Dev :=
  let d := regWrite d w.toNat A.CUE_CTRL v
  let follow := cueNumbers.any fun n => cueState d n = 3
  setf d F.CUE_CTRL_STATUS 0 (if flag d F.CUE_CTRL_ENABLE 0 then 1 else if follow then 2 else 0)

/-- A write of a wings word (R200). -/
def wingsWrite (p a : Nat) (v : W32) (d : Dev) : Dev :=
  invalidateWings { d with wings := Tab.set 0x07900000 d.wings (p * 16384 + a) v }

/-! ## The cue point (R222) -/

/-- The live word at `a` with its RWC fields taken from the next copy (R11). -/
def cueCopy (d : Dev) (a : Nat) : Dev :=
  match RegMap.lookup a with
  | none => d
  | some r =>
    if r.rwc then
      let live := (rd d a).toNat
      let next := (nrd d a).toNat
      wr d a (w24 (r.fields.foldl
        (fun n f => n + bits (if f.ty == .rwc then next else live) f.hi f.lo * 2 ^ f.lo) 0))
    else d

/-- The registers whose copies can differ. -/
def cueAddrs (d : Dev) : List Nat :=
  dedup ((d.nxt.map (·.1) ++ d.ctl.map (·.1)).filter fun a =>
    match RegMap.lookup a with | some r => r.rwc && rd d a != nrd d a | none => false)

/-- Every next copy becomes live (R222 step 2): windows with HEADZ and windows whose length changed, and the ramps that
start. -/
def cueTables (d : Dev) : Dev :=
  let addrs := cueAddrs d
  let lens := ((addrs.filter fun a => 0x044000 ≤ a && a < 0x048000 && a % 4 = 2).map fun a => (a - 0x044000) / 4).filter
    fun n => fld d F.WIN_LEN_LENM1 n != nfld d F.WIN_LEN_LENM1 n
  let slots := dedup ((addrs.filter fun a => 0x030000 ≤ a && a < 0x034000).map fun a => (a - 0x030000) / 4)
  let d' := forAll addrs cueCopy d
  let d' := forAll d.cue.headz (fun d n => setf d F.WIN_HEAD_HEAD n 0) d'
  let d' := forAll lens headFit { d' with cue := { d'.cue with headz := [] } }
  forAll slots (fun x n => if rampWords d n = rampWords x n then x else rampStart x n) d'

/-- The wings become stage (R222). -/
def cuePoint (d : Dev) : Dev :=
  let c := d.cue
  let d := { d with stage := d.wings, wings := d.stage
                    cue := { c with stage := c.wings, wings := { full := c.stage.full } } }
  let d := cueTables (setf d F.CUE_WINGS_VALID 0 0)
  let d := setf d F.CUE_PATH_CNT_COUNT 0 c.wings.paths.length
  let d := setf d F.TICK_RATE_RATE 0 (fld d F.CUE_WINGS_RATE 0)
  let d := setf (setf d F.CUE_STAGE_LOADED 0 1) F.CUE_STAGE_SLOT 0 (fld d F.CUE_WINGS_SLOT 0)
  let d := setf (setf d F.CUE_STAGE_RATE 0 (fld d F.CUE_WINGS_RATE 0)) F.CUE_STAGE_ID_HI 0 (fld d F.CUE_WINGS_ID_HI 0)
  setf d F.CUE_STAGE_ID_ID_LO 0 (fld d F.CUE_WINGS_ID_ID_LO 0)

/-- Entry `n`'s cue executes (R220, R222). -/
def cueExecute (d : Dev) (n : Nat) : Dev :=
  let d := cuePoint d
  let d := setf (setf d F.CUE_STAT_LASTV 0 1) F.CUE_STAT_LAST 0 n
  let d := setf d F.CUE_STAT_COUNT 0 (fld d F.CUE_STAT_COUNT 0 + 1)
  post d 0x32 n n (stageId d)

/-- The follow-up of entry `n` is armed: its own load of FSLOT has completed with OK, and the wings still hold it (R225
step 3). -/
def followArmed (d : Dev) (n : Nat) : Bool :=
  d.cue.followLoad.isNone && (d.cue.job.bind (·.follow)).isNone && wingsHold d (entryFslot (cueEntry d n)) && wingsId d = d.cue.stage.followId

/-- Lateness of the entries that did not execute at this edge (R219): a NOW entry is due once it is head and armed. -/
def cueLate (d : Dev) (head : Option Nat) (done : Option Nat) : Dev :=
  forAll cueNumbers
    (fun d n =>
      let e := cueEntry d n
      let st := cueState d n
      let due := if entryNow e then head = some n && st = 2 else dueReached d e
      if some n = done || !(st = 1 || st = 2) || flag d F.CUEN_STATE_LATEFLAG n || !due then d
      else
        let c := F.CUEN_CTL_LATE.of e.ctl
        let d := post (setf d F.CUEN_STATE_LATEFLAG n 1) 0x33 n n c
        if c = 1 then cueCancel d n 2 else d) d

/-- The first edge after a family change: every timed entry that fell due while edges stopped is late, one that is head and
armed among them, which under LATE_OK executes at this edge (R219, R352; notes/assumptions/17). -/
def cueStopped (d : Dev) : Dev :=
  forAll cueNumbers
    (fun d n =>
      let e := cueEntry d n
      let st := cueState d n
      if !(st = 1 || st = 2) || flag d F.CUEN_STATE_LATEFLAG n || entryNow e || !dueReached d e then d
      else
        let c := F.CUEN_CTL_LATE.of e.ctl
        let d := post (setf d F.CUEN_STATE_LATEFLAG n 1) 0x33 n n c
        if c = 1 then cueCancel d n 2 else d) d

/-- The cue unit at a tick edge (R218, R219, R225); `true` when a cue executed. -/
def cueEdge (d : Dev) : Bool × Dev :=
  let h := cueHead d
  let (done, d) := match h with
    | none => ((none : Option Nat), d)
    | some n =>
      let e := cueEntry d n
      if cueState d n = 3 then
        if e.followAt ≤ d.tick && followArmed d n then
          let d := if e.followAt < d.tick then post (setf d F.CUEN_STATE_LATEFLAG n 1) 0x33 n n 0 else d
          (some n, setCueState (cueExecute d n) n 4)
        else (none, d)
      else if flag d F.CUE_CTRL_ENABLE 0 && cueState d n = 2 && (entryNow e || dueReached d e) then
        let d := cueExecute d n
        if entryXfade e then
          let e := { e with followAt := d.tick + d.cue.stage.followDelay }
          let d := setCueState { d with cue := { d.cue with entries := Tab.set {} d.cue.entries n e } } n 3
          (some n, tryFollow { d with cue := { d.cue with followLoad := some n } })
        else (some n, setCueState d n 4)
      else (none, d)
  (done.isSome, cueUpdate (cueLate d h done))

/-! ## Commands -/

/-- CUE_LOAD (R210, R212). -/
def execCueLoad (w : BitVec 6) (v : W24) (s : State) : Host.Outcome State Fault Refusal :=
  .next (s.write w A.CUE_LOAD v (writeCueLoad w v))

/-- CUE_VERIFY (R210, R212). -/
def execCueVerify (w : BitVec 6) (v : W24) (s : State) : Host.Outcome State Fault Refusal :=
  .next (s.write w A.CUE_LOAD v (writeCueLoad w v))

/-- AUTOLOAD (R217). -/
def execAutoload (s : State) : Host.Outcome State Fault Refusal := .next (s.act autoload)

/-- CUE_LOAD_DONE (R212). -/
def execCueLoadDone (s : State) : Host.Outcome State Fault Refusal := .next (s.act loadDone)

/-- CUE_SLOT_WRITE (R214). -/
def execCueSlotWrite (w : BitVec 6) (n : Fin 16) (hi : Bool) (v : W24) (s : State) : Host.Outcome State Fault Refusal :=
  .next (s.write w (A.CUE_SLOT_LO + 2 * n.val + b1 hi) v (writeCueSlot w n.val hi v))

/-- CUE_ENABLE_WRITE (R221). -/
def execCueEnableWrite (w : BitVec 6) (v : W24) (s : State) : Host.Outcome State Fault Refusal :=
  .next (s.write w A.CUE_CTRL v (writeCueCtrl w v))

/-- WINGS_WRITE (R200). -/
def execWingsWrite (p : Fin 17) (a : BitVec 14) (v : W32) (s : State) : Host.Outcome State Fault Refusal :=
  .next (s.act (wingsWrite p.val a.toNat v))

end Sys2Proof.Machine
end

