-- ==== Sys2Proof/Machine/Prompter.lean ====
section
/-!
DEFINITION. The prompters' control (R30, R70, R377), their watchdogs (R29, R30), the interrupt controller (R102, R105,
R378 to R380) and the two-wire master.
-/
namespace Sys2Proof.Machine

/-! ## Run, halt and reset (R30, R70, R377) -/

/-- The memory tests hold a prompter whatever its program's word was held on (R397). -/
def Hold.testOnly (h : Hold) : Hold := if h = .test then .test else .free

/-- Core `17 + n` after a prompter reset (R70, R444): ST.SEC follows PCn.CTRL.SEC, and the core runs while RUN = 1. -/
def pcReset (d : Dev) (n : Nat) : Dev :=
  setCore d (17 + n)
    { st := if flag d F.PC_CTRL_SEC n then 0x4000 else 0, run := if flag d F.PC_CTRL_RUN n then .on else .off
      hold := (core d (17 + n)).hold.testOnly }

/-- The prompter halts at the word boundary, its loads completed (R93, R377); one in WAIT stays in it. -/
def pcHalt (d : Dev) (n : Nat) : Dev :=
  updCore d (17 + n) fun k =>
    let k := { k.finishLoads with hold := k.hold.testOnly }
    if k.run = .on then { k with run := .off } else k

/-- The prompter executes (R377); one in WAIT or STOPPED stays there. -/
def pcGo (d : Dev) (n : Nat) : Dev :=
  updCore d (17 + n) fun k => if k.run = .off then { k with run := .on } else k

/-- A write of PCn.CTRL (R377, R397, R402): while MEMFAIL = 1, or HALTED, a 1 to RUN is dropped. -/
def writePcCtrl (w : BitVec 6) (n : Nat) (v : W24) (d : Dev) : Dev :=
  let was := flag d F.PC_CTRL_RUN n
  let v' := if (flag d F.PC_CTRL_MEMFAIL n || fld d F.HOUSE_STATE_STATE 0 = 4) && F.PC_CTRL_RUN.of v = 1 then F.PC_CTRL_RUN.put v (b1 was) else v
  let d := regWrite d w.toNat (F.PC_CTRL_RUN.addr n) v'
  let now := flag d F.PC_CTRL_RUN n
  let d := if was && !now then pcHalt d n else if !was && now then pcGo d n else d
  if F.PC_CTRL_RESET.of v = 1 then pcReset d n else d

/-- PCn.CTRL.STATUS: HALT, RUN, WAIT or STOPPED (R377). -/
def pcStatus (d : Dev) (n : Nat) : Nat :=
  match (core d (17 + n)).run with
  | .stopped => 3
  | .waiting => if flag d F.PC_CTRL_RUN n then 2 else 0
  | .on => 1
  | _ => 0

/-! ## Watchdogs (R29, R30) -/

/-- A write of HOUSE.PCWDn: it writes TIMEOUT and so reloads the count. -/
def writePcwd (w : BitVec 6) (n : Nat) (v : W24) (d : Dev) : Dev :=
  let d := regWrite d w.toNat (F.HOUSE_PCWD_TIMEOUT.addr n) v
  { d with house := { d.house with stopped := d.house.stopped &&& ~~~(1#2 <<< n) } }

/-- A count reaches zero (R30): ALERT_N falls at once, by cause 0, and does not wait for the post (R391). -/
def watchdogExpiry (d : Dev) (n : Nat) : Dev :=
  if !flag d F.HOUSE_PCWD_TIMEOUT n || d.house.stopped.getLsbD n then d
  else
    let d := setf d F.HOUSE_PCWD_EXPIRED n 1
    let d := alert (post d 0x18 n n (core d (17 + n)).pc.toNat) 0
    let d := { d with house := { d.house with stopped := d.house.stopped ||| (1#2 <<< n) } }
    if fld d F.HOUSE_PCWD_ACTION n = 1 then pcReset d n else d

/-! ## Interrupts (R102, R105, R378, R379) -/

/-- The candidates of prompter `n` at a level, in ascending order. -/
def candidates (d : Dev) (n level : Nat) : List Nat :=
  (List.range 64).filter fun s =>
    flag d F.INTC_SRC_PEND s && flag d (if n = 0 then F.INTC_SRC_EN0 else F.INTC_SRC_EN1) s
      && fld d F.INTC_SRC_LEVEL s = level

/-- The winner of prompter `n`: its level and source (R379). -/
def winner (d : Dev) (n : Nat) : Option (Nat × Nat) :=
  match candidates d n 1, candidates d n 0 with
  | s :: _, _ => some (1, s)
  | [], s :: _ => some (0, s)
  | [], [] => none

/-- An interrupt of `level` is enabled in ST (R102). -/
def Core.takes (k : Core) (level : Nat) : Bool :=
  if level = 1 then k.st.getLsbD 11 && (k.ctx = 0 || k.ctx = 1) else k.st.getLsbD 10 && k.ctx = 0

/-- The core stands at a boundary at which R102 lets an interrupt in: no load delay is open, be it that of a load whose
result a later write discarded (R91) or of one into x0. -/
def Core.atBoundary (k : Core) : Bool := k.hold = .free && !k.prefixed && k.openTo ≤ k.words

/-- Prompter `n` takes the winner (R101, R102, R379). -/
def interruptEntry (d : Dev) (n : Nat) : Dev :=
  let k := core d (17 + n)
  match winner d n with
  | some (level, s) =>
    if k.run = .on && k.atBoundary && k.takes level then takeInterrupt d (17 + n) level (0x100 + 8 * s) else d
  | none => d

/-- A pending unmasked source ends the WAIT of prompter `n` (R105). Where a load delay is still open, R102 lets no
interrupt in, and the core goes on at the word after the WAIT (notes/assumptions/7). -/
def waitWake (d : Dev) (n : Nat) : Dev :=
  let k := core d (17 + n)
  if k.run ≠ .waiting || !flag d F.PC_CTRL_RUN n || d.house.trans = 3 then d
  else
    match winner d n with
    | none => d
    | some (level, s) =>
      let d := updCore d (17 + n) fun k => { k with run := .on }
      if k.atBoundary && k.takes level then takeInterrupt d (17 + n) level (0x100 + 8 * s) else d

/-- A source is of the level kind (R378). -/
def levelSource (s : Nat) : Bool := s = 14 || s = 15

/-- A write of INTC.SRCs (R378): a level source's PEND takes no write, and SWSET serves sources 32 to 63. -/
def writeIntc (w : BitVec 6) (s : Nat) (v : W24) (d : Dev) : Dev :=
  let v' := if levelSource s then v &&& 0x7FFFFF else v
  let d := regWrite d w.toNat (F.INTC_SRC_PEND.addr s) v'
  if 32 ≤ s && F.INTC_SRC_SWSET.of v = 1 then raise d s else d

/-- INTC.SRCs as read, with its KIND. -/
def readIntc (d : Dev) (s : Nat) : W24 := F.INTC_SRC_KIND.put (rd d (F.INTC_SRC_PEND.addr s)) (b1 (levelSource s))

/-! ## The two-wire master -/

/-- A write of TWI.CTRL: GO starts a transaction unless one runs. -/
def writeTwiCtrl (w : BitVec 6) (v : W24) (d : Dev) : Dev :=
  if F.TWI_CTRL_GO.of v = 1 then
    if flag d F.TWI_CTRL_BUSY 0 then d else setf (regWrite d w.toNat A.TWI_CTRL v) F.TWI_CTRL_BUSY 0 1
  else regWrite d w.toNat A.TWI_CTRL v

/-- The length of a transaction: LEN of DATA2, 0 taken as 1 and at most 8. -/
def twiLen (d : Dev) : Nat :=
  let n := bits (rd d (A.TWI_DATA + 2)).toNat 23 20
  if n = 0 then 1 else satTo 8 n

/-- Byte `i` of the data registers set. -/
def twiPut (d : Dev) (i : Nat) (b : Byte) : Dev :=
  let a := A.TWI_DATA + i / 3
  wr d a (Fld.put ⟨a, 0, 8 * (i % 3) + 7, 8 * (i % 3)⟩ (rd d a) b.toNat)

/-- A transaction ends: a read that ends OK fills the data bytes. -/
def twiDone (d : Dev) (res : Nat) (data : List Byte) : Dev :=
  if !flag d F.TWI_CTRL_BUSY 0 then d
  else
    let d := setf (setf d F.TWI_CTRL_BUSY 0 0) F.TWI_CTRL_RESULT 0 res
    let d := if res = 0 && flag d F.TWI_CTRL_READ 0 then
        forAll (List.range (twiLen d)) (fun d i => twiPut d i (data.getD i 0)) d
      else d
    raise d 23

/-! ## Commands -/

/-- WATCHDOG_KICK (R29). -/
def execWatchdogKick (w : BitVec 6) (n : Fin 2) (v : W24) (s : State) : Host.Outcome State Fault Refusal :=
  .next (s.write w (F.HOUSE_PCWD_TIMEOUT.addr n) v (writePcwd w n.val v))

/-- WATCHDOG_EXPIRY (R30). -/
def execWatchdogExpiry (n : Fin 2) (s : State) : Host.Outcome State Fault Refusal :=
  .next (s.onDev fun d => watchdogExpiry d n.val)

/-- PC_RUN_WRITE (R377). -/
def execPcRunWrite (w : BitVec 6) (n : Fin 2) (v : W24) (s : State) : Host.Outcome State Fault Refusal :=
  .next (s.write w (F.PC_CTRL_RUN.addr n) v (writePcCtrl w n.val v))

/-- PC_RESET_WRITE (R377). -/
def execPcResetWrite (w : BitVec 6) (n : Fin 2) (v : W24) (s : State) : Host.Outcome State Fault Refusal :=
  .next (s.write w (F.PC_CTRL_RUN.addr n) v (writePcCtrl w n.val v))

/-- INTERRUPT_ENTRY (R101, R102, R379). -/
def execInterruptEntry (n : Fin 2) (s : State) : Host.Outcome State Fault Refusal :=
  .next (s.act fun d => interruptEntry d n.val)

/-- WAIT_WAKE (R105). -/
def execWaitWake (n : Fin 2) (s : State) : Host.Outcome State Fault Refusal := .next (s.act fun d => waitWake d n.val)

/-- SWSET (R378). -/
def execSwset (w : BitVec 6) (src : BitVec 6) (v : W24) (s : State) : Host.Outcome State Fault Refusal :=
  .next (s.write w (F.INTC_SRC_PEND.addr src.toNat) v (writeIntc w src.toNat v))

/-- TWI_GO (R276). -/
def execTwiGo (w : BitVec 6) (v : W24) (s : State) : Host.Outcome State Fault Refusal :=
  .next (s.write w A.TWI_CTRL v (writeTwiCtrl w v))

/-- TWI_DONE (R276). -/
def execTwiDone (res : BitVec 2) (data : List Byte) (s : State) : Host.Outcome State Fault Refusal :=
  .next (s.act fun d => twiDone d res.toNat data)

end Sys2Proof.Machine
end

