-- ==== Sys2Proof/Machine/HostIf.lean ====
section
/-!
DEFINITION. The host interface (R199, R377, R380 to R383): BAR4, the MSI-X state, HOST.STAT, and the porters' ring
registers.
-/
namespace Sys2Proof.Machine

/-! ## MSI-X (R380) -/

/-- Vector `s` is unmasked: its pending message is sent if PEND is still 1. While the function may send none, it stays
pending. -/
def msixUnmask (d : Dev) (s : Nat) : Dev :=
  let bit : BitVec 64 := 1#64 <<< s
  let pending := d.msixPba.getLsbD s
  let d := { d with msixMask := d.msixMask &&& ~~~bit }
  if !msixReady d then d
  else
    let d := { d with msixPba := d.msixPba &&& ~~~bit }
    if pending && flag d F.INTC_SRC_PEND s then { d with msixSent := d.msixSent ++ [s] } else d

/-- A write of word `j` of table entry `s`: word 3 is the vector control, whose bit 0 masks. -/
def msixWrite (d : Dev) (s j : Nat) (v : W32) : Dev :=
  if j = 3 then
    let d := { d with msixTab := Tab.set 0 d.msixTab (4 * s + 3) (v &&& 0xFFFFFFFE) }
    if v.getLsbD 0 then { d with msixMask := d.msixMask ||| (1#64 <<< s) } else msixUnmask d s
  else { d with msixTab := Tab.set 0 d.msixTab (4 * s + j) v }

/-- Word `i` of the MSI-X table. -/
def msixRead (d : Dev) (i : Nat) : W32 :=
  let v := Tab.get 0 d.msixTab i
  if i % 4 = 3 && d.msixMask.getLsbD (i / 4) then v ||| 1 else v

/-! ## BAR4 (R199, R377, R381, R382) -/

/-- What lies at word `i` of BAR4. -/
inductive Bar4 where
  | stage (p a : Nat)
  | wings (p a : Nat)
  | program (n a : Nat)
  | msix (i : Nat)
  | pba (i : Nat)
  | none
deriving DecidableEq, Repr

/-- The layout of BAR4 (R199, R381). -/
def bar4At (i : Nat) : Bar4 :=
  if i < 0x88000 then
    if i % 32768 < 16384 then .stage (i / 32768) (i % 32768) else .wings (i / 32768) (i % 32768 - 16384)
  else if i < 0xA8000 then .program ((i - 0x88000) / 65536) ((i - 0x88000) % 65536)
  else if 0xFC000 ≤ i && i < 0xFC100 then .msix (i - 0xFC000)
  else if 0xFC400 ≤ i && i < 0xFC402 then .pba (i - 0xFC400)
  else .none

/-- Word `i` of BAR4 as read. -/
def bar4Read (d : Dev) (i : Nat) : W32 :=
  match bar4At i with
  | .stage p a => Tab.get 0x07900000 d.stage (p * 16384 + a)
  | .wings p a => Tab.get 0x07900000 d.wings (p * 16384 + a)
  | .program n a => Tab.get 0 d.prog (progKey n a)
  | .msix j => msixRead d j
  | .pba j => BitVec.ofNat 32 (d.msixPba.toNat >>> (32 * j))
  | .none => 0

/-- A whole word written to BAR4 by master `w`: a stage word is no address a write may reach (R14, R440), a secure
prompter's program memory drops the write (R377). -/
def bar4Put (d : Dev) (w i : Nat) (v : W32) : Dev :=
  match bar4At i with
  | .stage _ _ => post d 0x02 w i (v.toNat % 2 ^ 24)
  | .wings p a => wingsWrite p a v d
  | .program n a =>
    if flag d F.PC_CTRL_SEC n then (if w = 32 then inc d F.HOST_STAT_DENIED 0 else d)
    else progPut d (progKey n a) v
  | .msix j => msixWrite d (j / 4) (j % 4) v
  | .pba _ | .none => d

/-- BAR4_WRITE (R382): a write that leaves out a byte is dropped and counted. -/
def bar4Write (d : Dev) (i : Nat) (be : BitVec 4) (v : W32) : Dev :=
  if be = 15 then bar4Put d 32 i v else inc d F.HOST_STAT_PARTIAL 0

/-! ## HOST.STAT and the host reset (R383, R444) -/

/-- A write of HOST.STAT. -/
def writeHostStat (w : BitVec 6) (v : W24) (d : Dev) : Dev :=
  let d := regWrite d w.toNat A.HOST_STAT v
  if F.HOST_STAT_CLR.of v = 1 then setf (setf d F.HOST_STAT_PARTIAL 0 0) F.HOST_STAT_DENIED 0 0 else d

/-- The identifiers of the PCIe configuration space (R443). -/
structure PcieIds where
  vendor : Nat
  subsystemVendor : Nat
  device : Nat
  subsystem : Nat
  revision : Nat
  classCode : Nat
deriving DecidableEq, Repr

/-- What the configuration space shows of them. -/
def pcieIds (d : Dev) : PcieIds :=
  let v := fld d F.ID_VENDOR_VID 0
  let i := fld d F.ID_DEVICE_DID 0
  { vendor := v, subsystemVendor := v, device := i, subsystem := i, revision := fld d F.ID_REV_PCIREV 0
    classCode := 0x040100 }

/-- The host configures the function as it enumerates it, how being open (R381; notes/assumptions/58). -/
def pcieConfigure (d : Dev) : Dev :=
  let (u, d) := freshWord d
  let (m, d) := freshWord d
  let (v, d) := freshWord d
  let (c, d) := freshWord d
  let p : Pcie :=
    { msixEn := u.getLsbD 0, msixMask := u.getLsbD 1, d3hot := u.getLsbD 2, mps := BitVec.ofNat 3 (u.toNat / 8 % 3)
      mrrs := BitVec.ofNat 3 (u.toNat / 32 % 6), aspm := if u.getLsbD 10 then 2 else 0, uncMask := m.zeroExtend 32
      uncSev := v.zeroExtend 32, corMask := c.zeroExtend 32 }
  { d with pcie := p }

/-- The PCIe link is up, and the host has configured the function. -/
def linkTrained (d : Dev) (speed width : Nat) : Dev :=
  pcieConfigure (setf (setf d F.HOST_STAT_SPEED 0 speed) F.HOST_STAT_WIDTH 0 width)

/-- A link-down, hot reset or Function Level Reset: the porters drop their descriptors, and the classes of R444 reset.
Whether the link stayed up is open (notes/assumptions/2). -/
def hostReset (d : Dev) : Dev :=
  let (u, d) := freshWord d
  let d := if u.getLsbD 0 then setf d F.HOST_STAT_WIDTH 0 3 else d
  let d := setf (setf d F.HOST_STAT_PARTIAL 0 0) F.HOST_STAT_DENIED 0 0
  let d := forAll (List.range 4)
    (fun d n => forAll (List.range 5) (fun d o => wr d (F.PT_BASE_LO.addr n + o) (rstOf (F.PT_BASE_LO.addr n + o))) d) d
  { d with pcie := {}, moves := [], msixMask := 0xFFFFFFFFFFFFFFFF, msixPba := 0, msixTab := [] }

/-! ## The porters' registers (R299, R385) -/

/-- The descriptors of porter `n`'s ring. -/
def ptSize (d : Dev) (n : Nat) : Nat :=
  let k := fld d F.PT_CFG_LOG2SZ n
  2 ^ (if k < 4 then 4 else satTo 12 k)

/-- The Market address of descriptor `i` of porter `n`. -/
def ptAddr (d : Dev) (n i : Nat) : Nat := fld d F.PT_CFG_BASE_HI n * 2 ^ 24 + fld d F.PT_BASE_LO n / 8 * 8 + 8 * i

/-- Porter `n` has a descriptor in progress. -/
def ptBusy (d : Dev) (n : Nat) : Bool := (Tab.get none d.moves n).isSome

/-- A porter that drains is OFF once no descriptor is in progress (R299). -/
def ptSettle (d : Dev) (n : Nat) : Dev :=
  if fld d F.PT_CFG_STATUS n = 2 && !ptBusy d n then setf d F.PT_CFG_STATUS n 0 else d

/-- A write of offset 1 of PTn (R299): LOG2SZ is written only while STATUS is OFF. -/
def writePtCfg (w : BitVec 6) (n : Nat) (v : W24) (d : Dev) : Dev :=
  let v := if fld d F.PT_CFG_STATUS n = 0 then v else F.PT_CFG_LOG2SZ.put v (fld d F.PT_CFG_LOG2SZ n)
  let d := regWrite d w.toNat (F.PT_CFG_EN.addr n) v
  if flag d F.PT_CFG_EN n then setf d F.PT_CFG_STATUS n 1
  else if fld d F.PT_CFG_STATUS n = 1 then ptSettle (setf d F.PT_CFG_STATUS n 2) n
  else d

/-- A write of offset 4 of PTn (R385). -/
def writePtFails (w : BitVec 6) (n : Nat) (v : W24) (d : Dev) : Dev :=
  let d := regWrite d w.toNat (F.PT_FAILS_CLR.addr n) v
  if F.PT_FAILS_CLR.of v = 1 then setf d F.PT_FAILS_FAILS n 0 else d

/-! ## Commands -/

/-- MSIX_UNMASK (R380). -/
def execMsixUnmask (v : BitVec 6) (s : State) : Host.Outcome State Fault Refusal :=
  .next (s.act fun d => if hostOpen d then msixUnmask d v.toNat else d)

/-- BAR4_WRITE (R377, R382). -/
def execBar4Write (word : BitVec 20) (be : BitVec 4) (v : W32) (s : State) : Host.Outcome State Fault Refusal :=
  .next (s.act fun d => if hostOpen d then bar4Write d word.toNat be v else d)

/-- HOST_RESET (R383). -/
def execHostReset (s : State) : Host.Outcome State Fault Refusal := .next (s.act hostReset)

/-- HOST_STAT_CLR (R382). -/
def execHostStatClr (w : BitVec 6) (v : W24) (s : State) : Host.Outcome State Fault Refusal :=
  .next (s.write w A.HOST_STAT v (writeHostStat w v))

/-- PCIE_LINK_UP (R381). -/
def execPcieLinkUp (speed width : BitVec 2) (s : State) : Host.Outcome State Fault Refusal :=
  .next (s.act fun d => if 2 ≤ d.house.boot then linkTrained d speed.toNat width.toNat else d)

/-- PT_CLR (R385). -/
def execPtClr (w : BitVec 6) (n : Fin 4) (v : W24) (s : State) : Host.Outcome State Fault Refusal :=
  .next (s.write w (F.PT_FAILS_CLR.addr n) v (writePtFails w n.val v))

end Sys2Proof.Machine
end

