-- ==== Sys2Proof/Machine/Vault.lean ====
section
/-!
DEFINITION. The vault (R194, R195), the wrapped vault (R196 to R198) and the crypto unit (R405).
-/
namespace Sys2Proof.Machine

/-! ## Who may reach it (R194) -/

/-- A prompter with ST.SEC = 1. -/
def secure (d : Dev) (w : Nat) : Bool := (w = 17 || w = 18) && (core d w).st.getLsbD 14

/-- The registers that R194 guards: those of the vault but STAT, those of the crypto unit but CSTAT. -/
def guarded (a : Nat) : Bool :=
  a = A.VAULT_ADDR || a = A.VAULT_DATA || a = A.VAULT_CMD || a = A.VAULT_BLOB0 || a = A.VAULT_BLOB1
    || a = A.VAULT_CCMD || a = A.VAULT_CSRC_LO || a = A.VAULT_CSRC_HI || a = A.VAULT_CDST_LO || a = A.VAULT_CDST_HI
    || a = A.VAULT_CLEN || a = A.VAULT_CKEY

/-- Master `w` accesses a guarded register: whether it may, and the machine after; VAULT_DENY once for each run of
refused accesses from one source. -/
def vaultGate (d : Dev) (w : Nat) : Bool × Dev :=
  let runs := d.house.vaultDeny
  if secure d w then (true, { d with house := { d.house with vaultDeny := runs.filter (· != w) } })
  else if runs.contains w then (false, d)
  else (false, post { d with house := { d.house with vaultDeny := w :: runs } } 0x26 w w 0)

/-! ## Vault words -/

/-- Vault word `a` as its code gives it back, bits `upset` having flipped since the last write: an uncorrectable word
reads as zero and posts VAULT_UE (R194). -/
def vaultRead (s : State) (a : Nat) (upset : BitVec 30) : W24 × State :=
  let e := Tab.get 0 s.sec.vecc a ^^^ upset
  let s := { s with sec := { s.sec with vecc := Tab.set 0 s.sec.vecc a e } }
  if ones (e.zeroExtend 31) ≤ 1 then (Tab.get 0 s.sec.vault a, s) else (0, s.onDev fun d => post d 0x27 0 a 0)

/-- Vault word `a` written. -/
def vaultWrite (s : State) (a : Nat) (v : W24) : State :=
  { s with sec := { s.sec with vault := Tab.set 0 s.sec.vault a v, vecc := Tab.set 0 s.sec.vecc a 0 } }

/-- Vault words from `a` in turn. -/
def vaultReadN (s : State) (a n : Nat) : List W24 × State :=
  (List.range n).foldl (fun (l, s) i => let (v, s) := vaultRead s (a + i) 0; (l ++ [v], s)) ([], s)

/-- Vault words written in turn from `a`. -/
def vaultWriteN (s : State) (a : Nat) (l : List W24) : State :=
  (l.foldl (fun (s, i) v => (vaultWrite s (a + i) v, i + 1)) (s, 0)).1

/-- As `vaultWriteN`, but every write of the vault is dropped while it is wiped (R195). -/
def vaultStore (s : State) (a : Nat) (l : List W24) : State :=
  if flag s.dev F.VAULT_STAT_WIPING 0 then s else vaultWriteN s a l

/-- VAULT.ADDR after a DATA access. -/
def vaultNext (d : Dev) : Dev :=
  if flag d F.VAULT_ADDR_AINC 0 then setf d F.VAULT_ADDR_ADDR 0 (fld d F.VAULT_ADDR_ADDR 0 + 1) else d

/-- An access to VAULT.DATA by master `w`, a write of `wr` or a read: the word read, and the machine (R194, R195). -/
def vaultData (s : State) (w : Nat) (wr : Option W24) (upset : BitVec 30) : W24 × State :=
  let (ok, d) := vaultGate s.dev w
  let s := { s with dev := d }
  if !ok then (0, s)
  else
    let a := fld d F.VAULT_ADDR_ADDR 0
    let (v, s) :=
      if flag d F.VAULT_STAT_WIPING 0 then (0, s)
      else match wr with
        | some v => (0, vaultWrite s a v)
        | none => vaultRead s a upset
    (v, s.onDev vaultNext)

/-! ## The random source and the battery key -/

/-- `n` bytes of the random source, and the machine after (R196, R405). -/
def drawBytes (s : State) (n : Nat) : List Byte × State :=
  ((List.range n).map (Config.randomByte s.sec.draws), { s with sec := { s.sec with draws := s.sec.draws + 1 } })

/-- The battery key set, and BKEY with it. -/
def setKey (s : State) (k : BitVec 256) : State :=
  { s with sec := { s.sec with key := k }, dev := setf s.dev F.VAULT_STAT_BKEY 0 (b1 (k != 0)) }

/-! ## WRAP and UNWRAP -/

/-- RESULT codes of VAULT.STAT. -/
inductive SealResult where
  | ok | badHdr | badSerial | badTag | noKey | refused | exhausted
deriving DecidableEq, Repr

/-- The RESULT field's value. -/
def SealResult.code : SealResult → Nat
  | .ok => 1 | .badHdr => 2 | .badSerial => 3 | .badTag => 4 | .noKey => 5 | .refused => 6 | .exhausted => 7

/-- RESULT shows how a command ended. -/
def sealResult (s : State) (r : SealResult) : State := s.onDev fun d => setf d F.VAULT_STAT_RESULT 0 r.code

/-- A command ends. -/
def sealEnd (s : State) (r : SealResult) : State :=
  sealResult { s with dev := setf s.dev F.VAULT_STAT_BUSY 0 0, sec := { s.sec with sealing := none } } r

/-- Bytes 0 to 35 of a blob of `w` words (R197). -/
def blobHead (w count : Nat) (nonce : List Byte) : List Byte :=
  [0x56, 0x4B, 0x42, 0x31, 1, 0, 0, 0] ++ leBytes 8 Config.fuseSerial.toNat ++ leBytes 4 w ++ leBytes 4 count ++ nonce

/-- The bytes of words packed three to a word (R202). -/
def wordBytes (l : List W24) : List Byte := l.flatMap fun v => [byteOf v 0, byteOf v 1, byteOf v 2]

/-- The battery key as bytes. -/
def keyBytes (s : State) : List Byte := beBytes 32 s.sec.key.toNat

/-- A battery key is drawn where there is none (R196). -/
def ensureKey (s : State) : State :=
  if s.sec.key = 0 then
    let (l, s) := drawBytes s 32
    let s := setKey s (BitVec.ofNat 256 (beNat l))
    { s with sec := { s.sec with wraps := 0 } }
  else s

/-- WRAP completes (R196, R197). -/
def wrapDone (s : State) (j : Seal) : State :=
  let s := ensureKey s
  if s.sec.wraps = 0xFFFFFFFF then sealEnd s .exhausted
  else
    let s := { s with sec := { s.sec with wraps := s.sec.wraps + 1 } }
    let (r, s) := drawBytes s 8
    let nonce := leBytes 4 s.sec.wraps.toNat ++ r
    let head := blobHead j.len s.sec.wraps.toNat nonce
    let (l, s) := vaultReadN s 0 j.len
    let cipher := gcmStream (keyBytes s) nonce (wordBytes l)
    let tag := gcmTag (keyBytes s) nonce head cipher
    sealEnd (s.onDev fun d => mktWriteN d j.who j.blob (pack3 (head ++ cipher ++ tag))) .ok

/-- The Market bytes from word `a`, read by master `m`. -/
def mktBytes (d : Dev) (m a n : Nat) : List Byte × Dev :=
  let (l, _, d) := mktReadN d m a ((n + 2) / 3)
  ((wordBytes l).take n, d)

/-- The checks of UNWRAP in the order of R198, on the whole blob. -/
def unwrapCheck (s : State) (b : List Byte) (w : Nat) : SealResult :=
  if !(b.take 8 == [0x56, 0x4B, 0x42, 0x31, 1, 0, 0, 0]) || w = 0 || 65536 < w then .badHdr
  else if leAt b 8 8 ≠ Config.fuseSerial.toNat then .badSerial
  else if s.sec.key = 0 then .noKey
  else
    let cipher := (b.drop 36).take (3 * w)
    if gcmTag (keyBytes s) ((b.drop 24).take 12) (b.take 36) cipher == (b.drop (36 + 3 * w)).take 16 then .ok
    else .badTag

/-- UNWRAP completes (R198). It reads the header's words to find W, then the whole blob, the header again, also where the
header check fails; errors of these reads count and post as those of any read (DEDUCED, notes/assumptions/22). -/
def unwrapDone (s : State) (j : Seal) : State :=
  let (h, d) := mktBytes s.dev j.who j.blob 36
  let w := leAt h 16 4
  let (b, d) := mktBytes d j.who j.blob (52 + 3 * satTo 65536 w)
  let s := { s with dev := d }
  let r := unwrapCheck s b w
  if r = .ok then
    let plain := gcmStream (keyBytes s) ((b.drop 24).take 12) ((b.drop 36).take (3 * w))
    sealEnd (vaultStore s 0 ((List.range w).map fun i => word3 (plain.getD (3 * i) 0) (plain.getD (3 * i + 1) 0)
      (plain.getD (3 * i + 2) 0))) .ok
  else
    let s := { s with sec := { s.sec with vault := Tab.clear s.sec.vault 0 w, vecc := Tab.clear s.sec.vecc 0 w } }
    sealEnd (s.onDev fun d => post d 0x28 0 r.code 0) r

/-- A command of VAULT.CMD completes. -/
def sealDone (s : State) : State :=
  match s.sec.sealing with
  | none => s
  | some j => if j.wrap then wrapDone s j else unwrapDone s j

/-- A write of VAULT.CMD by master `w` (R194 to R198). With both command bits set it is WRAP, and a crypto command that runs
refuses neither: R405 has a running WRAP or UNWRAP refuse a crypto command and says nothing of the reverse (DEDUCED,
notes/assumptions/22). -/
def writeVaultCmd (w : Nat) (v : W24) (s : State) : State :=
  let (ok, d) := vaultGate s.dev w
  let s := { s with dev := d }
  if !ok then s
  else
    let s := s.onDev fun d => regWrite d w A.VAULT_CMD v
    let wrap := F.VAULT_CMD_WRAP.of v = 1
    if !wrap && F.VAULT_CMD_UNWRAP.of v = 0 then s
    else if flag s.dev F.VAULT_STAT_BUSY 0 || flag s.dev F.VAULT_STAT_WIPING 0 then sealResult s .refused
    else
      let j : Seal :=
        { wrap := wrap, len := fld s.dev F.VAULT_CMD_WLENM1 0 + 1, who := w
          blob := fld s.dev F.VAULT_BLOB1_HI 0 * 2 ^ 24 + fld s.dev F.VAULT_BLOB0_LO 0 }
      { s with dev := setf s.dev F.VAULT_STAT_BUSY 0 1, sec := { s.sec with sealing := some j } }

/-- A write of another guarded register by master `w`. -/
def writeGuarded (w a : Nat) (v : W24) (s : State) : State :=
  let (ok, d) := vaultGate s.dev w
  { s with dev := if ok then regWrite d w a v else d }

/-- A read of a guarded register by master `w`. -/
def readGuarded (w a : Nat) (s : State) : W24 × State :=
  if a = A.VAULT_DATA then vaultData s w none 0
  else
    let (ok, d) := vaultGate s.dev w
    (if ok then rd d a else 0, { s with dev := d })

/-! ## The wipe (R195, R399, R401) -/

/-- The battery key is zeroed. -/
def zeroKey (s : State) : State := setKey s 0

/-- The vault and the prompt book's secure section are wiped while VCORE is up; a WRAP or UNWRAP ends as REFUSED. -/
def wipe (s : State) : State :=
  let s := { s with sec := { s.sec with vault := [], vecc := [], pb := Tab.clear s.sec.pb 0x78000 0x80000 }
                    dev := setf s.dev F.VAULT_STAT_WIPING 0 1 }
  if s.sec.sealing.isSome then sealEnd s .refused else s

/-! ## The crypto unit (R405) -/

/-- RESULT codes of CSTAT. -/
inductive CryptoResult where
  | ok | badTag | badSig | badArg | refused
deriving DecidableEq, Repr

/-- The RESULT field's value. -/
def CryptoResult.code : CryptoResult → Nat
  | .ok => 1 | .badTag => 2 | .badSig => 3 | .badArg => 4 | .refused => 5

/-- A command ends, and source 22 is raised. -/
def cryptoResult (s : State) (r : CryptoResult) : State :=
  s.onDev fun d => raise (setf d F.VAULT_CSTAT_RESULT 0 r.code) 22

/-- `n` bytes from Market word `a` lie in the Market. -/
def regionOk (a n : Nat) : Bool := a + (n + 2) / 3 ≤ mktSize

/-- The bytes a command reads at CSRC, `a` the length of the additional data. -/
def cryptoIn (j : CryptoJob) (a : Nat) : Nat :=
  match j.cmd with
  | 1 => j.len | 2 => 16 + a + j.len | 3 => 32 + a + j.len | 4 => 48 | 5 => 240 | _ => 0

/-- The bytes a command writes at CDST. -/
def cryptoOut (j : CryptoJob) : Nat :=
  match j.cmd with
  | 1 => 48 | 2 => j.len + 16 | 3 => j.len | 4 => 96 | 6 => 96 | 7 => j.len | _ => 0

/-- The vault words of a command's key. -/
def cryptoKey (j : CryptoJob) : Nat := match j.cmd with | 2 | 3 => 11 | 4 | 6 => 16 | _ => 0

/-- The length of the additional data of GCMENC and GCMDEC. -/
def aadLen (s : State) (j : CryptoJob) : Nat × State :=
  if j.cmd = 2 || j.cmd = 3 then
    let (l, d) := mktBytes s.dev j.who j.src 16
    (leAt l 12 4, { s with dev := d })
  else (0, s)

/-- Bytes written at CDST. -/
def cryptoPut (s : State) (j : CryptoJob) (l : List Byte) : State :=
  s.onDev fun d => mktWriteN d j.who j.dst (pack3 l)

/-- A command's operation on its input, its regions in range: the result, and the machine after. -/
def cryptoRun (s : State) (j : CryptoJob) (aad : Nat) (b : List Byte) (key : List Byte) : CryptoResult × State :=
  let iv := b.take 12
  let ad := (b.drop 16).take aad
  let body := (b.drop (16 + aad)).take j.len
  match j.cmd with
  | 1 => (.ok, cryptoPut s j (sha384 b))
  | 2 =>
    let c := gcmStream key iv body
    (.ok, cryptoPut s j (c ++ gcmTag key iv ad c))
  | 3 =>
    if gcmTag key iv ad body == (b.drop (16 + aad + j.len)).take 16 then
      (.ok, cryptoPut s j (gcmStream key iv body))
    else (.badTag, s)
  | 4 =>
    let (k, s) := drawBytes s 48
    (.ok, cryptoPut s j (ecdsaSign key b (p384Scalar k)))
  | 5 => (if ecdsaVerify ((b.drop 48).take 96) (b.take 48) (b.drop 144) then .ok else .badSig, s)
  | 6 =>
    let (k, s) := drawBytes s 48
    let k := beBytes 48 (p384Scalar k)
    (.ok, cryptoPut (vaultStore s j.key (pack3 k)) j (ecdsaPublic k))
  | _ =>
    let (l, s) := drawBytes s j.len
    (.ok, cryptoPut s j l)

/-- A crypto command ends. -/
def cryptoDone (s : State) : State :=
  match s.sec.crypto with
  | none => s
  | some j =>
    let s := { s with dev := setf s.dev F.VAULT_CSTAT_BUSY 0 0, sec := { s.sec with crypto := none } }
    if j.cmd = 0 then cryptoResult s .badArg
    else
      let (aad, s) := aadLen s j
      if !(regionOk j.src (cryptoIn j aad) && regionOk j.dst (cryptoOut j) && j.key + cryptoKey j ≤ 65536) then
        cryptoResult s .badArg
      else
        let (b, d) := mktBytes s.dev j.who j.src (cryptoIn j aad)
        let (k, s) := if j.cmd = 6 then ([], { s with dev := d }) else vaultReadN { s with dev := d } j.key (cryptoKey j)
        let (r, s) := cryptoRun s j aad b ((wordBytes k).take (if j.cmd = 4 then 48 else 32))
        cryptoResult s r

/-- A write of VAULT.CCMD by master `w` (R405). -/
def writeCcmd (w : Nat) (v : W24) (s : State) : State :=
  let (ok, d) := vaultGate s.dev w
  let s := { s with dev := d }
  if !ok then s
  else
    let s := s.onDev fun d => regWrite d w A.VAULT_CCMD v
    if F.VAULT_CCMD_GO.of v = 0 then s
    else if flag s.dev F.VAULT_CSTAT_BUSY 0 || flag s.dev F.VAULT_STAT_BUSY 0 || flag s.dev F.VAULT_STAT_WIPING 0 then
      cryptoResult s .refused
    else
      let d := s.dev
      let j : CryptoJob :=
        { cmd := fld d F.VAULT_CCMD_CMD 0, who := w, len := fld d F.VAULT_CLEN_LEN 0, key := fld d F.VAULT_CKEY_ADDR 0
          src := fld d F.VAULT_CSRC_HI_ADDR 0 * 2 ^ 24 + fld d F.VAULT_CSRC_LO_ADDR 0
          dst := fld d F.VAULT_CDST_HI_ADDR 0 * 2 ^ 24 + fld d F.VAULT_CDST_LO_ADDR 0 }
      { s with dev := setf d F.VAULT_CSTAT_BUSY 0 1, sec := { s.sec with crypto := some j } }

/-! ## Commands -/

/-- VAULT_DATA_ACCESS (R194). -/
def execVaultDataAccess (w : BitVec 6) (wr : Option W24) (upset : BitVec 30) (s : State) :
    Host.Outcome State Fault Refusal :=
  .next (s.access w [(A.VAULT_DATA, wr)] fun s => (vaultData s w.toNat wr upset).2)

/-- WRAP (R196). -/
def execWrap (w : BitVec 6) (v : W24) (s : State) : Host.Outcome State Fault Refusal :=
  .next (s.access w [(A.VAULT_CMD, some v)] (writeVaultCmd w.toNat v))

/-- UNWRAP (R198). -/
def execUnwrap (w : BitVec 6) (v : W24) (s : State) : Host.Outcome State Fault Refusal :=
  .next (s.access w [(A.VAULT_CMD, some v)] (writeVaultCmd w.toNat v))

/-- VAULT_CMD_DONE (R196, R198). -/
def execVaultCmdDone (s : State) : Host.Outcome State Fault Refusal := .next (s.whileUp sealDone)

/-- VAULT_WIPE_DONE (R195). -/
def execVaultWipeDone (s : State) : Host.Outcome State Fault Refusal :=
  .next (s.onDev fun d => setf d F.VAULT_STAT_WIPING 0 0)

/-- SHA384 (R405). -/
def execSha384 (w : BitVec 6) (v : W24) (s : State) : Host.Outcome State Fault Refusal :=
  .next (s.access w [(A.VAULT_CCMD, some v)] (writeCcmd w.toNat v))

/-- GCMENC (R405). -/
def execGcmenc (w : BitVec 6) (v : W24) (s : State) : Host.Outcome State Fault Refusal :=
  .next (s.access w [(A.VAULT_CCMD, some v)] (writeCcmd w.toNat v))

/-- GCMDEC (R405). -/
def execGcmdec (w : BitVec 6) (v : W24) (s : State) : Host.Outcome State Fault Refusal :=
  .next (s.access w [(A.VAULT_CCMD, some v)] (writeCcmd w.toNat v))

/-- SIGN (R405). -/
def execSign (w : BitVec 6) (v : W24) (s : State) : Host.Outcome State Fault Refusal :=
  .next (s.access w [(A.VAULT_CCMD, some v)] (writeCcmd w.toNat v))

/-- VERIFY (R405). -/
def execVerify (w : BitVec 6) (v : W24) (s : State) : Host.Outcome State Fault Refusal :=
  .next (s.access w [(A.VAULT_CCMD, some v)] (writeCcmd w.toNat v))

/-- KEYGEN (R405). -/
def execKeygen (w : BitVec 6) (v : W24) (s : State) : Host.Outcome State Fault Refusal :=
  .next (s.access w [(A.VAULT_CCMD, some v)] (writeCcmd w.toNat v))

/-- RANDOM (R405). -/
def execRandom (w : BitVec 6) (v : W24) (s : State) : Host.Outcome State Fault Refusal :=
  .next (s.access w [(A.VAULT_CCMD, some v)] (writeCcmd w.toNat v))

/-- CRYPTO_DONE (R405). -/
def execCryptoDone (s : State) : Host.Outcome State Fault Refusal := .next (s.whileUp cryptoDone)

end Sys2Proof.Machine
end

