-- ==== Sys2Proof/Machine/PromptBook.lean ====
section
/-!
DEFINITION. The prompt book (R403, R404): `Sec.pb` holds its bytes.
-/
namespace Sys2Proof.Machine

/-- Byte `a` of the prompt book. -/
def pbByte (s : State) (a : Nat) : Byte := Tab.get 0 s.sec.pb (a % 0x80000)

/-- Bytes from `a`. -/
def pbBytes (s : State) (a n : Nat) : List Byte := (List.range n).map fun i => pbByte s (a + i)

/-- Bytes written from `a`. -/
def pbPut (s : State) (a : Nat) (l : List Byte) : State :=
  let pb := (l.foldl (fun (t, i) b => (Tab.set 0 t ((a + i) % 0x80000) b, i + 1)) (s.sec.pb, 0)).1
  { s with sec := { s.sec with pb := pb } }

/-- Byte `a` lies in the secure section. -/
def pbSecure (a : Nat) : Bool := decide (0x78000 ≤ a % 0x80000)

/-- Byte `a` lies in the persistent ledger summary, which HOUSE alone writes. -/
def pbLedger (a : Nat) : Bool := decide (0x1000 ≤ a % 0x80000) && decide (a % 0x80000 < 0x10000)

/-- Master `w` may read (or write) byte `a` (R403, R404). -/
def pbAllows (d : Dev) (w : Nat) (write : Bool) (a : Nat) : Bool :=
  if pbSecure a then secure d w
  else !write || (!pbLedger a && (w = 17 || w = 18 || w = 32))

/-- An access is refused: DENIED, and PB_DENY once for each run of refused accesses of one source. -/
def pbRefuse (d : Dev) (w : Nat) : Dev :=
  let d := setf d F.PB_STAT_DENIED 0 1
  let runs := d.house.pbDeny
  if runs.contains w then d else post { d with house := { d.house with pbDeny := w :: runs } } 0x29 w w 0

/-- PB.ADDR after an access of `n` bytes. -/
def pbNext (d : Dev) (n : Nat) : Dev :=
  if flag d F.PB_ADDR_AINC 0 then setf d F.PB_ADDR_ADDR 0 (fld d F.PB_ADDR_ADDR 0 + n) else d

/-- An access of `n` bytes at ADDR through DATA or DATA3 by master `w`: the word read, and the machine. A write sets
BUSY. -/
def pbAccess (s : State) (w n : Nat) (wr : Option W24) : W24 × State :=
  let d := s.dev
  let a := fld d F.PB_ADDR_ADDR 0
  if !((List.range n).all fun i => pbAllows d w wr.isSome (a + i)) then
    (0, s.onDev fun d => pbNext (pbRefuse d w) n)
  else
    let s := s.onDev fun d => { d with house := { d.house with pbDeny := d.house.pbDeny.filter (· != w) } }
    match wr with
    | some v =>
      (0, (pbPut s a ((List.range n).map (byteOf v))).onDev fun d => pbNext (setf d F.PB_STAT_BUSY 0 1) n)
    | none => (w24 (leAt (pbBytes s a n) 0 n), s.onDev fun d => pbNext d n)

/-- An access of master `w` to the register at `a`, PB.ADDR, DATA or DATA3, made while nothing holds it. -/
def pbReg (s : State) (w a : Nat) (wr : Option W24) : W24 × State :=
  if a = A.PB_DATA then pbAccess s w 1 wr
  else if a = A.PB_DATA3 then pbAccess s w 3 wr
  else match wr with
    | some v => (0, s.onDev fun d => regWrite d w a v)
    | none => (rd s.dev a, s)

/-- An access to PB.ADDR, DATA or DATA3: held while BUSY = 1 (R404). What a held read returns reaches no one here. -/
def pbTry (s : State) (w a : Nat) (wr : Option W24) : W24 × State :=
  if flag s.dev F.PB_STAT_BUSY 0 then (0, { s with sec := { s.sec with pbHeld := s.sec.pbHeld ++ [(w, a, wr)] } })
  else pbReg s w a wr

end Sys2Proof.Machine
end

