-- ==== Sys2Proof/Machine/Ledger.lean ====
section
/-!
DEFINITION. The ledger (R411 to R417): acceptance, storage, reading, persistence, and the software posts (R432).
-/
namespace Sys2Proof.Machine

/-! ## Acceptance (R412) -/

/-- Code `c` is counted: CNTc, and its increments since the last flush (R412 step 1, R415). -/
def countCode (d : Dev) (c : Nat) : Dev :=
  let d := { d with led := { d.led with since := Tab.set 0 d.led.since c (Tab.get 0 d.led.since c + 1) } }
  inc d F.LEDG_CNT_COUNT c

/-- A post stands before another of its cycle: lower source, then lower code (R26). -/
def postBefore (a b : Post) : Bool := a.src < b.src || (a.src = b.src && a.code < b.code)

/-- A post put in its place. -/
def postInsert (p : Post) : List Post → List Post
  | [] => [p]
  | q :: t => if postBefore p q then p :: q :: t else q :: postInsert p t

/-- The posts of a cycle in their order. -/
def postSort (l : List Post) : List Post := l.foldl (fun r p => postInsert p r) []

/-- One post is accepted, or counted and dropped by a full queue, and then it raises no interrupt. -/
def acceptPost (d : Dev) (p : Post) : Dev :=
  if d.led.queue.length < 16 then
    let q : Accepted := { post := p, seq := d.led.seq, sec := d.time.sec, ns := timeNs d }
    postRaises { d with led := { d.led with queue := d.led.queue ++ [q], seq := d.led.seq + 1 } } p.code
  else inc (countCode d p.code) F.LEDG_DROPS_COUNT 0

/-- An acceptance cycle (R412): TIME counts on to its instant, which every post of it carries (R26, R411). -/
def ledgerPost (d : Dev) : Dev :=
  match postSort d.led.arriving with
  | [] => d
  | l =>
    let d := timeWithin d
    l.foldl acceptPost { d with led := { d.led with arriving := [] } }

/-! ## Entries (R411) -/

/-- The severity of a code; a code that is never posted has none. -/
def sevCode (c : Nat) : Nat := (sevOf c).getD 0

/-- The entry of an accepted post. -/
def entryOf (q : Accepted) : Entry :=
  { w0 := w24 (sevCode q.post.code * 2 ^ 22 + q.seq.toNat * 256 + q.post.code)
    w1 := w24 (q.ns / 2 ^ 24 * 2 ^ 18 + q.post.src), w2 := q.post.d1, w3 := q.post.d2, w4 := w24 q.sec, w5 := w24 q.ns }

/-- The words of an entry. -/
def Entry.words (e : Entry) : List W24 := [e.w0, e.w1, e.w2, e.w3, e.w4, e.w5]

/-- Codes stored once in a TAI second for each source (R326, R357, R413). -/
def perSource (c : Nat) : Bool := c = 0x02 || c = 0x71 || (decide (0x50 ≤ c) && decide (c ≤ 0x54))

/-- Step 3 turns an accepted post away (R412, R413). -/
def suppressed (d : Dev) (p : Post) : Bool :=
  decide (sevCode p.code < fld d F.LEDG_CTRL_MINSEV 0)
    || (fld d F.LEDG_CTRL_RLIM 0 != 0 && decide (fld d F.LEDG_CTRL_RLIM 0 ≤ Tab.get 0 d.led.codeSec p.code))
    || (perSource p.code && d.led.srcSec.contains (p.code, p.src))

/-- An index of the ring, one further. -/
def ringNext (n : Nat) : Nat := (n + 1) % 4096

/-- The entry is stored at HEAD (R412 steps 4 and 5), the ring having room or its oldest entry giving way. -/
def storeEntry (d : Dev) (e : Entry) (p : Post) : Dev :=
  let full := decide (4096 ≤ fld d F.LEDG_COUNT_COUNT 0)
  let d := if full then inc (setf d F.LEDG_TAIL_TAIL 0 (ringNext (fld d F.LEDG_TAIL_TAIL 0))) F.LEDG_OVWR_COUNT 0
    else setf d F.LEDG_COUNT_COUNT 0 (fld d F.LEDG_COUNT_COUNT 0 + 1)
  let d := if 4096 ≤ d.led.smb then setf d F.LEDG_SMBPTR_PTR 0 (ringNext (fld d F.LEDG_SMBPTR_PTR 0)) else d
  let h := fld d F.LEDG_HEAD_HEAD 0
  let led := { d.led with
    ring := Tab.set {} d.led.ring h e, smb := satTo 4096 (d.led.smb + 1)
    codeSec := Tab.set 0 d.led.codeSec p.code (Tab.get 0 d.led.codeSec p.code + 1)
    srcSec := if perSource p.code then (p.code, p.src) :: d.led.srcSec else d.led.srcSec }
  setf { d with led := led } F.LEDG_HEAD_HEAD 0 (ringNext h)

/-! ## Persistence (R415) -/

/-- The boot count in the summary. -/
def bootCount (s : State) : Nat := leAt (pbBytes s 0x1008 4) 0 4

/-- A record of the persisted ring: the entry and the boot count. -/
def recordOf (s : State) (e : Entry) : List Byte := wordBytes e.words ++ leBytes 2 (bootCount s)

/-- An entry goes to the persisted ring. -/
def persistRing (s : State) (e : Entry) : State :=
  let i := leAt (pbBytes s 0x1010 2) 0 2
  let s := pbPut s (0x1440 + 20 * (i % 2048)) (recordOf s e)
  let s := pbPut s 0x1010 (leBytes 2 ((i + 1) % 2048))
  if i % 2048 = 2047 then pbPut s 0x1012 (leBytes 2 (leAt (pbBytes s 0x1012 2) 0 2 + 1)) else s

/-- An entry goes to the first free record of the life-cycle history; a full history stays as it is. -/
def persistHistory (s : State) (e : Entry) : State :=
  match (List.range 8).find? fun i => (pbBytes s (0xB440 + 20 * i) 20).all (· == 0) with
  | some i => pbPut s (0xB440 + 20 * i) (recordOf s e)
  | none => s

/-- Step 6: an entry of at least PSEV, 16 in a TAI second. -/
def persist (s : State) (e : Entry) (p : Post) : State :=
  if sevCode p.code < fld s.dev F.LEDG_PCTRL_PSEV 0 then s
  else if s.dev.led.persSec < 16 then
    (persistRing s e).onDev fun d => { d with led := { d.led with persSec := d.led.persSec + 1 } }
  else s.onDev fun d => inc d F.LEDG_PSTAT_PSKIP 0

/-- The codes that are persisted whatever becomes of their entry: LC_CHANGE and TAMPER. -/
def alwaysPersisted (s : State) (e : Entry) (c : Nat) : State :=
  if c = 0x84 then persistHistory s e else if c = 0x83 then persistRing s e else s

/-- One accepted post leaves the queue (R412 steps 1 to 6). -/
def storePost (s : State) (q : Accepted) : State :=
  let p := q.post
  let e := entryOf q
  let s := s.onDev fun d =>
    let d := countCode d p.code
    if fld d F.LEDG_CTRL_IRQSEV 0 ≤ sevCode p.code then alert (raise d 20) 11 else d
  let s := alwaysPersisted s e p.code
  if suppressed s.dev p then s.onDev fun d => inc d F.LEDG_SUPP_COUNT 0
  else if flag s.dev F.LEDG_CTRL_MODE 0 && 4096 ≤ fld s.dev F.LEDG_COUNT_COUNT 0 then
    s.onDev fun d => inc d F.LEDG_DROPS_COUNT 0
  else
    let s := s.onDev fun d => storeEntry d e p
    if p.code = 0x83 || p.code = 0x84 then s else persist s e p

/-- The oldest accepted post is handled. -/
def ledgerStore (s : State) : State :=
  match s.dev.led.queue with
  | [] => s
  | q :: t => storePost (s.onDev fun d => { d with led := { d.led with queue := t } }) q

/-- Every post on its way is handled at once: what HOUSE waits for before CORE_EN falls and before a life-cycle
reset. -/
def ledgerDrain (s : State) : State :=
  let empty (s : State) : State := s.dev.led.queue.foldl (fun s _ => ledgerStore s) s
  empty ((empty s).onDev ledgerPost)

/-- The flush (R415): each code's increments go to its lifetime counter. -/
def flushNow (s : State) : State :=
  let s := s.dev.led.since.foldl
    (fun s e =>
      let a := 0x1040 + 4 * e.1
      pbPut s a (leBytes 4 (satTo 0xFFFFFFFF (leAt (pbBytes s a 4) 0 4 + e.2)))) s
  let s := pbPut s 0x100C (leBytes 4 (leAt (pbBytes s 0x100C 4) 0 4 + 1))
  s.onDev fun d => { d with led := { d.led with since := [] } }

/-- A flush starts. -/
def flushStart (d : Dev) : Dev := setf d F.LEDG_PCTRL_BUSY 0 1

/-- A running flush completes. -/
def flushDone (s : State) : State :=
  if flag s.dev F.LEDG_PCTRL_BUSY 0 then flushNow (s.onDev fun d => setf d F.LEDG_PCTRL_BUSY 0 0) else s

/-- HOUSE counts a boot (R415, R418): magic and version stand in the summary. -/
def countBoot (s : State) : State :=
  let s := pbPut s 0x1000 [0x4C, 0x47, 0x53, 0x31, 1, 0]
  pbPut s 0x1008 (leBytes 4 (bootCount s + 1))

/-- A TAI second passes: the limits of R413 and R415 begin again. -/
def ledgerSecond (d : Dev) : Dev :=
  { d with led := { d.led with codeSec := [], srcSec := [], postSec := [], persSec := 0 } }

/-! ## Registers (R414, R416, R432) -/

/-- A write of LEDG.TAIL by master `w`: entries are consumed; a value outside the held range is dropped. -/
def writeLedgTail (w : BitVec 6) (v : W24) (d : Dev) : Dev :=
  let t := fld d F.LEDG_TAIL_TAIL 0
  let n := fld d F.LEDG_COUNT_COUNT 0
  let o := (F.LEDG_TAIL_TAIL.of v + 4096 - t) % 4096
  let o := if o = 0 && 4096 ≤ n then 4096 else o
  if o ≤ n then setf (regWrite d w.toNat A.LEDG_TAIL v) F.LEDG_COUNT_COUNT 0 (n - o) else d

/-- A write of LEDG.CTRL: CLEAR sets TAIL and SMBPTR to HEAD. -/
def writeLedgCtrl (w : BitVec 6) (v : W24) (d : Dev) : Dev :=
  let d := regWrite d w.toNat A.LEDG_CTRL v
  if F.LEDG_CTRL_CLEAR.of v = 1 then
    let h := fld d F.LEDG_HEAD_HEAD 0
    let d := setf (setf (setf d F.LEDG_TAIL_TAIL 0 h) F.LEDG_SMBPTR_PTR 0 h) F.LEDG_COUNT_COUNT 0 0
    { d with led := { d.led with smb := 0 } }
  else d

/-- A read of ENTRY0 latches the six words of entry SEL (R414, R442). -/
def latchEntry (d : Dev) : Dev :=
  let e : Entry := Tab.get {} d.led.ring (fld d F.LEDG_SEL_SEL 0)
  forAll (List.range 6) (fun d i => wr d (A.LEDG_ENTRY + i) (e.words.getD i 0)) d

/-- A write of LEDG.CNTCLR. -/
def writeCntclr (w : BitVec 6) (v : W24) (d : Dev) : Dev :=
  let d := regWrite d w.toNat A.LEDG_CNTCLR v
  let all := F.LEDG_CNTCLR_ALL.of v = 1
  let stat := F.LEDG_CNTCLR_STATCLR.of v = 1
  let d := if all then forAll (List.range 256) (fun d c => setf d F.LEDG_CNT_COUNT c 0) d else d
  let d := if stat then
      wr (wr (wr (wr d A.LEDG_DROPS 0) A.LEDG_OVWR 0) A.LEDG_SUPP 0) A.LEDG_PSTAT 0
    else d
  if all || stat then d else setf d F.LEDG_CNT_COUNT (F.LEDG_CNTCLR_CODE.of v) 0

/-- A write of LEDG.PCTRL: FLUSH starts a flush. -/
def writePctrl (w : BitVec 6) (v : W24) (d : Dev) : Dev :=
  let d := regWrite d w.toNat A.LEDG_PCTRL v
  if F.LEDG_PCTRL_FLUSH.of v = 1 then flushStart d else d

/-- A write of LEDG.SWPOST0 (R432). -/
def writeSwpost (w : BitVec 6) (v : W24) (d : Dev) : Dev :=
  let d := regWrite d w.toNat A.LEDG_SWPOST0 v
  if F.LEDG_SWPOST0_GO.of v = 1 then
    let c := F.LEDG_SWPOST0_CODE.of v
    if c = 0x90 || c = 0x91 then post d c 0 (rd d A.LEDG_SWPOST1).toNat (rd d A.LEDG_SWPOST2).toNat
    else post d 0x01 w.toNat A.LEDG_SWPOST0 v.toNat
  else d

/-! ## Commands -/

/-- LEDGER_POST (R412). -/
def execLedgerPost (s : State) : Host.Outcome State Fault Refusal := .next (s.onDev ledgerPost)

/-- LEDGER_STORE (R412). -/
def execLedgerStore (s : State) : Host.Outcome State Fault Refusal := .next (ledgerStore s)

/-- LEDGER_TAIL_WRITE (R414). -/
def execLedgerTailWrite (w : BitVec 6) (v : W24) (s : State) : Host.Outcome State Fault Refusal :=
  .next (s.write w A.LEDG_TAIL v (writeLedgTail w v))

/-- LEDGER_CLEAR (R414). -/
def execLedgerClear (w : BitVec 6) (v : W24) (s : State) : Host.Outcome State Fault Refusal :=
  .next (s.write w A.LEDG_CTRL v (writeLedgCtrl w v))

/-- LEDGER_ENTRY0_READ (R414): any master's read. -/
def execLedgerEntry0Read (w : BitVec 6) (s : State) : Host.Outcome State Fault Refusal :=
  .next (s.read w A.LEDG_ENTRY latchEntry)

/-- LEDG_CNTCLR_ALL (R416). -/
def execLedgCntclrAll (w : BitVec 6) (v : W24) (s : State) : Host.Outcome State Fault Refusal :=
  .next (s.write w A.LEDG_CNTCLR v (writeCntclr w v))

/-- LEDG_STATCLR (R416). -/
def execLedgStatclr (w : BitVec 6) (v : W24) (s : State) : Host.Outcome State Fault Refusal :=
  .next (s.write w A.LEDG_CNTCLR v (writeCntclr w v))

/-- LEDG_CNTCLR_CODE (R416). -/
def execLedgCntclrCode (w : BitVec 6) (v : W24) (s : State) : Host.Outcome State Fault Refusal :=
  .next (s.write w A.LEDG_CNTCLR v (writeCntclr w v))

/-- FLUSH (R415). -/
def execFlush (w : BitVec 6) (v : W24) (s : State) : Host.Outcome State Fault Refusal :=
  .next (s.write w A.LEDG_PCTRL v (writePctrl w v))

/-- FLUSH_PERIOD (R415): with PFLUSH = 0 there is no period. -/
def execFlushPeriod (s : State) : Host.Outcome State Fault Refusal :=
  .next (s.onDev fun d => if fld d F.LEDG_PCTRL_PFLUSH 0 = 0 then d else flushStart d)

/-- SWPOST (R432). -/
def execSwpost (w : BitVec 6) (v : W24) (s : State) : Host.Outcome State Fault Refusal :=
  .next (s.write w A.LEDG_SWPOST0 v (writeSwpost w v))

end Sys2Proof.Machine
end

