-- ==== Sys2Proof/Machine/TimeBase.lean ====
section
/-!
DEFINITION. The time base (R328 to R333): SET and ADD, the RD registers, and the timestamps of the ports.
-/
namespace Sys2Proof.Machine

/-- What a new TAI second means to HOUSE and the ledger (R378, R401, R413). -/
def secondMark (d : Dev) : Dev :=
  raise (ledgerSecond { d with house := { d.house with vbat := d.time.sec } }) 25

/-- The signed 48-bit number of seconds. -/
def sec48 (n : Nat) : Int := if n < 2 ^ 47 then n else (n : Int) - 2 ^ 48

/-- A SET or ADD takes effect (R329): PTP_JUMP where the change exceeds 1 s. -/
def timeStepApply (d : Dev) : Dev :=
  match d.time.step with
  | none => d
  | some (add, sec, frac) =>
    let d := timeWithin d
    let now : Int := nowUnits d
    let change : Int := if add then sec48 sec * secUnits + frac else ((sec * secUnits + frac : Nat) : Int) - now
    let upTo := (now + change) % ((2 ^ 48 * secUnits : Nat) : Int)
    let t := { d.time with sec := upTo.toNat / secUnits, frac := upTo.toNat % secUnits, fifth := 0, step := none }
    let d' := { d with time := t }
    let d' := if t.sec = d.time.sec then d' else ledgerSecond d'
    if secUnits < change.natAbs then
      let whole : Int := if change < 0 then -((change.natAbs / secUnits : Nat) : Int) else ((change.natAbs / secUnits : Nat) : Int)
      post d' 0x57 0 (w24i whole).toNat (b1 add)
    else d'

/-- The value of the WR registers: seconds, nanoseconds, 1/256 ns. -/
def timeWr (d : Dev) : Nat × Nat × Nat :=
  (fld d F.TIME_WR_SEC_HI_SEC 0 * 2 ^ 24 + fld d F.TIME_WR_SEC_LO_SEC 0,
   fld d F.TIME_WR_NS_HI_NS 0 * 2 ^ 24 + fld d F.TIME_WR_NS_LO_NS 0, fld d F.TIME_WR_NS_HI_FRAC 0)

/-- SNAP latches the time base into the RD registers (R333). -/
def timeSnap (d : Dev) : Dev :=
  let ns := timeNs d
  let d := setf (setf d F.TIME_RD_SEC_HI_SEC 0 (d.time.sec / 2 ^ 24)) F.TIME_RD_SEC_LO_SEC 0 d.time.sec
  let d := setf (setf d F.TIME_RD_NS_HI_NS 0 (ns / 2 ^ 24)) F.TIME_RD_NS_LO_NS 0 ns
  setf d F.TIME_RD_NS_HI_FRAC 0 (d.time.frac / 2 ^ 24 % 256)

/-- A write of TIME.CTRL (R329, R333). -/
def writeTimeCtrl (w : BitVec 6) (v : W24) (d : Dev) : Dev :=
  let set := F.TIME_CTRL_SET.of v = 1
  let add := F.TIME_CTRL_ADD.of v = 1
  if set && add then setf d F.TIME_CTRL_CFGERR 0 1
  else
    let d := regWrite d w.toNat A.TIME_CTRL v
    let d := if F.TIME_CTRL_SNAP.of v = 1 then timeSnap (timeWithin d) else d
    if set || add then
      let (sec, ns, frac) := timeWr d
      if 1000000000 ≤ ns then setf d F.TIME_CTRL_CFGERR 0 1
      else
        let d := timeStepApply d
        { d with time := { d.time with step := some (add, sec, ns * 2 ^ 32 + frac * 2 ^ 24) } }
    else d

/-- A write of TIME.RATE (R327): the periods before it have counted at the rate that stood. -/
def writeTimeRate (w : BitVec 6) (v : W24) (d : Dev) : Dev := regWrite (timeWithin d) w.toNat A.TIME_RATE v

/-! ## Timestamps (R330, R331) -/

/-- The bound of a stamp's uncertainty in 1/256 ns (R330): `RS` is in force at 25G with FEC25 = RS. -/
def stampBound (d : Dev) (n : Nat) : Nat :=
  let fec := fld d F.PORT_CTRL_FEC25 n
  if !flag d F.PORT_STAT_RATE n && fec = 2 then 819 else 204

/-- A stamp at port `n`, `bits_` bit times before (`tx`: after) the instant `lp0` periods of LP0 after the last tick edge:
its seconds and 1/256 ns, off by an open part of its uncertainty (notes/assumptions/2). While COARSE = 1 it is a whole number
of 6.4 ns steps from TIME (R328). -/
def stamp (d : Dev) (n bits_ lp0 : Nat) (tx : Bool) : (Nat × Nat) × Dev :=
  let (u, d) := freshWord d
  let k := stampBound d n
  let open_ : Int := (u.toNat % (2 * k + 1) : Nat) - (k : Int)
  let span : Int := (bits_ * 2 ^ 32 / (if flag d F.PORT_STAT_RATE n then 10 else 25) : Nat)
  let corr : Int := if tx then sfld d F.TIME_PCORR_TXC n else sfld d F.TIME_PCORR_RXC n
  let since : Int := ((lp0 : Int) - d.time.ahead) * timeStep d / 5
  let part : Int := since + (if tx then span else -span) + open_ * 2 ^ 24
  let coarse : Int := 8 * timeStep d / 5
  let part := if flag d F.TIME_CTRL_COARSE 0 then part / coarse * coarse else part
  let t := (nowUnits d : Int) + part + corr * 2 ^ 32 / 10
  let t := (t % ((2 ^ 48 * secUnits : Nat) : Int)).toNat
  ((t / secUnits, t % secUnits / 2 ^ 24), d)

/-- Words 4 to 6 of a descriptor (R331). -/
def stampWords (s : Nat × Nat) : List W24 :=
  let ns := s.2 / 256
  [w24 s.1, w24 ns, w24 (ns / 2 ^ 24 * 2 ^ 18 + s.2 % 256 * 2 ^ 10 + 2 ^ 9)]

/-- Words 4 to 6 of a descriptor whose frame asked for a stamp and got none: VALID is 0, and what stands beside it is open
(notes/assumptions/2). -/
def noStampWords (d : Dev) : List W24 × Dev :=
  let (a, d) := freshWord d
  let (b, d) := freshWord d
  let (c, d) := freshWord d
  ([a, b, c &&& 0xFFFC00], d)

/-! ## Commands -/

/-- TIME_SNAP (R333). -/
def execTimeSnap (w : BitVec 6) (v : W24) (s : State) : Host.Outcome State Fault Refusal :=
  .next (s.write w A.TIME_CTRL v (writeTimeCtrl w v))

/-- TIME_SET (R329). -/
def execTimeSet (w : BitVec 6) (v : W24) (s : State) : Host.Outcome State Fault Refusal :=
  .next (s.write w A.TIME_CTRL v (writeTimeCtrl w v))

/-- TIME_ADD (R329). -/
def execTimeAdd (w : BitVec 6) (v : W24) (s : State) : Host.Outcome State Fault Refusal :=
  .next (s.write w A.TIME_CTRL v (writeTimeCtrl w v))

/-- TIME_STEP_APPLY (R329). -/
def execTimeStepApply (s : State) : Host.Outcome State Fault Refusal := .next (s.act timeStepApply)

end Sys2Proof.Machine
end

