-- ==== Sys2Proof/Machine/Frames.lean ====
section
/-!
DEFINITION. Ethernet, IPv4, UDP and RTP as the ports and streams read and write them (R277, R278, R308, R312, R322). A
frame is its bytes from the destination address to the last byte before the FCS.
-/
namespace Sys2Proof.Machine

/-- The big-endian number of `n` bytes at `off`. -/
def beAt (l : List Byte) (off n : Nat) : Nat := beNat ((l.drop off).take n)

/-- The frame carries an 802.1Q tag (R277). -/
def tagged (l : List Byte) : Bool := beAt l 12 2 = 0x8100

/-- The frame carries a second tag, which no accepted frame does (R277). -/
def doubleTagged (l : List Byte) : Bool := tagged l && beAt l 16 2 = 0x8100

/-- The VLAN ID of a tagged frame. -/
def frameVid (l : List Byte) : Nat := beAt l 14 2 % 4096

/-- Where the payload begins. -/
def l3 (l : List Byte) : Nat := if tagged l then 18 else 14

/-- The EtherType. -/
def etherType (l : List Byte) : Nat := beAt l (l3 l - 2) 2

/-! ## IPv4, UDP, RTP -/

/-- An IPv4 packet. -/
def isIp4 (l : List Byte) : Bool := etherType l = 0x0800 && beAt l (l3 l) 1 / 16 = 4

/-- The length of its header. -/
def ipLen (l : List Byte) : Nat := beAt l (l3 l) 1 % 16 * 4

/-- Its protocol. -/
def ipProto (l : List Byte) : Nat := beAt l (l3 l + 9) 1

/-- Its source address. -/
def ipSrc (l : List Byte) : Nat := beAt l (l3 l + 12) 4

/-- Its destination address. -/
def ipDst (l : List Byte) : Nat := beAt l (l3 l + 16) 4

/-- It is a fragment. -/
def ipFrag (l : List Byte) : Bool := beAt l (l3 l + 6) 2 % 0x4000 != 0

/-- It is a fragment other than the first. -/
def ipLaterFrag (l : List Byte) : Bool := beAt l (l3 l + 6) 2 % 0x2000 != 0

/-- The sum of 16-bit words, big-endian. -/
def wordSum : List Byte → Nat
  | a :: b :: t => a.toNat * 256 + b.toNat + wordSum t
  | [a] => a.toNat * 256
  | [] => 0

/-- A sum folded to 16 bits. -/
def fold16 (n : Nat) : Nat := let m := n % 65536 + n / 65536; m % 65536 + m / 65536

/-- The header checksum is good. -/
def ipSumOk (l : List Byte) : Bool :=
  decide (20 ≤ ipLen l) && fold16 (wordSum ((l.drop (l3 l)).take (ipLen l))) = 0xFFFF

/-- A UDP datagram whose header the frame carries. -/
def isUdp (l : List Byte) : Bool := isIp4 l && ipProto l = 17 && !ipLaterFrag l

/-- Its destination port. -/
def udpDst (l : List Byte) : Nat := beAt l (l3 l + ipLen l + 2) 2

/-- Where the UDP header of an IPv6 packet begins (R278, R308): `next` is the header that stands at `off`. Extension
headers are passed over; a fragment other than the first has none. -/
def udp6At (l : List Byte) : Nat → Nat → Nat → Option Nat
  | 0, _, _ => none
  | fuel + 1, next, off =>
    if next = 17 then some off
    else if next = 0 || next = 43 || next = 60 then udp6At l fuel (beAt l off 1) (off + (beAt l (off + 1) 1 + 1) * 8)
    else if next = 44 && beAt l (off + 2) 2 / 8 = 0 then udp6At l fuel (beAt l off 1) (off + 8)
    else none

/-- Where the frame's UDP header begins, over IPv4 or IPv6. -/
def udpAt (l : List Byte) : Option Nat :=
  if isUdp l then some (l3 l + ipLen l)
  else if etherType l = 0x86DD && beAt l (l3 l) 1 / 16 = 6 then udp6At l 8 (beAt l (l3 l + 6) 1) (l3 l + 40)
  else none

/-- Its destination port, over IPv4 or IPv6. -/
def udpPort (l : List Byte) : Option Nat := (udpAt l).map fun o => beAt l (o + 2) 2

/-- What it carries, by its own length field. -/
def udpData (l : List Byte) : List Byte :=
  let o := l3 l + ipLen l
  (l.drop (o + 8)).take (beAt l (o + 4) 2 - 8)

/-- The version of an RTP packet. -/
def rtpVersion (r : List Byte) : Nat := beAt r 0 1 / 64

/-- Its payload type. -/
def rtpType (r : List Byte) : Nat := beAt r 1 1 % 128

/-- Its sequence number. -/
def rtpSeq (r : List Byte) : BitVec 16 := BitVec.ofNat 16 (beAt r 2 2)

/-- Its timestamp. -/
def rtpTime (r : List Byte) : BitVec 32 := BitVec.ofNat 32 (beAt r 4 4)

/-- Its payload: CSRC list, header extension and padding are passed over (R312). -/
def rtpPayload (r : List Byte) : List Byte :=
  let f := beAt r 0 1
  let h := 12 + 4 * (f % 16)
  let h := if f / 16 % 2 = 1 then h + 4 + 4 * beAt r (h + 2) 2 else h
  let pad := if f / 32 % 2 = 1 then (r.getLast?.getD 0).toNat else 0
  (r.take (r.length - pad)).drop h

/-! ## Samples (R308) -/

/-- The bytes of a sample in format `fmt`. -/
def sampleBytes (fmt : Nat) : Nat := match fmt with | 0 => 2 | 1 => 3 | _ => 4

/-- A received sample: its word and flags. The AM824 byte holds B at bit 5, C, U and V at bits 2 to 0
(notes/assumptions/30). -/
def sampleIn (fmt : Nat) (b : List Byte) : W24 × BitVec 4 :=
  match fmt with
  | 0 => (w24 (beAt b 0 2 * 256), 0)
  | 1 => (w24 (beAt b 0 3), 0)
  | _ =>
    let f := beAt b 0 1
    (w24 (beAt b 1 3), BitVec.ofNat 4 (f / 32 % 2 * 8 + f % 2 * 4 + f / 2 % 2 * 2 + f / 4 % 2))

/-- The number of bits set in a number below 2^24. -/
def bitCount (n : Nat) : Nat := (List.range 24).foldl (fun k i => k + b1 (n.testBit i)) 0

/-- A sample on the wire, of channel `ch` of its stream: L16 rounded to even and saturated; AM824 with B, the even
subframe's mark, P, C, U and V above the audio bits (notes/assumptions/30). -/
def sampleOut (fmt ch : Nat) (v : W24) (fl : BitVec 4) : List Byte :=
  match fmt with
  | 0 =>
    let n := Real.rndEven v.toInt 256
    beBytes 2 (BitVec.ofInt 16 (if 32767 < n then 32767 else n)).toNat
  | 1 => beBytes 3 v.toNat
  | _ =>
    let b := b1 (fl.getLsbD 3)
    let vb := b1 (fl.getLsbD 2)
    let u := b1 (fl.getLsbD 1)
    let c := b1 (fl.getLsbD 0)
    let p := (bitCount v.toNat + vb + u + c) % 2
    BitVec.ofNat 8 (b * 32 + b1 (ch % 2 = 0) * 16 + p * 8 + c * 4 + u * 2 + vb) :: beBytes 3 v.toNat

/-! ## Building a stream packet (R322) -/

/-- An IPv4 header with its checksum: DSCP, total length, TTL, addresses. -/
def ipHeader (dscp len ttl src dst : Nat) : List Byte :=
  let a := [0x45, BitVec.ofNat 8 (dscp * 4)] ++ beBytes 2 len ++ [0, 0, 0x40, 0, BitVec.ofNat 8 ttl, 17]
  let z := beBytes 4 src ++ beBytes 4 dst
  a ++ beBytes 2 (65535 - fold16 (wordSum (a ++ z))) ++ z

/-- An Ethernet header, tagged with `tci` where there is one. -/
def etherHeader (dst src : List Byte) (tci : Option Nat) (etype : Nat) : List Byte :=
  dst ++ src ++ (match tci with | some t => [0x81, 0x00] ++ beBytes 2 t | none => []) ++ beBytes 2 etype

/-- The MAC address of port `n`. -/
def portMac (d : Dev) (n : Nat) : List Byte :=
  beBytes 3 (fld d F.PORT_MAC_HI_ADDR n) ++ beBytes 3 (fld d F.PORT_MAC_LO_ADDR n)

end Sys2Proof.Machine
end

