-- ==== Sys2Proof/Machine/Rings.lean ====
section
/-!
DEFINITION. The host frame rings and the ports' hold buffers (R293 to R299). Rings 0 to 3 receive, 4 to 7 transmit.
-/
namespace Sys2Proof.Machine

/-! ## Ports and rings -/

/-- Port `n`. -/
def port (d : Dev) (n : Nat) : Port := Tab.get {} d.ports n

/-- Port `n` replaced. -/
def setPort (d : Dev) (n : Nat) (p : Port) : Dev := { d with ports := Tab.set {} d.ports n p }

/-- Port `n` changed. -/
def updPort (d : Dev) (n : Nat) (f : Port → Port) : Dev := setPort d n (f (port d n))

/-- Port `n` is UP. -/
def portUp (d : Dev) (n : Nat) : Bool := fld d F.PORT_STAT_LINK n = 2

/-- The port's STATUS is RUN. -/
def portRuns (d : Dev) (n : Nat) : Bool := fld d F.PORT_CTRL_STATUS n = 1

/-- Ring `r`. -/
def ring (d : Dev) (r : Nat) : Ring := Tab.get {} d.rings r

/-- Ring `r` changed. -/
def updRing (d : Dev) (r : Nat) (f : Ring → Ring) : Dev := { d with rings := Tab.set {} d.rings r (f (ring d r)) }

/-- The descriptors of ring `r` (R299). -/
def ringSize (d : Dev) (r : Nat) : Nat :=
  let n := fld d F.RING_CFG_LOG2SZ r
  2 ^ (if n < 4 then 4 else if 12 < n then 12 else n)

/-- The Market address of descriptor `i` of ring `r`. -/
def descAddr (d : Dev) (r i : Nat) : Nat :=
  (fld d F.RING_CFG_BASE_HI r * 2 ^ 24 + fld d F.RING_BASE_LO r) / 8 * 8 + 8 * i

/-- A buffer's address: words 0 and 1 of its descriptor. -/
def bufAddr (w0 w1 : W24) : Nat := w1.toNat % 4 * 2 ^ 24 + w0.toNat

/-- Ring `r` has index `i` to give: TAIL lies past it. -/
def ringGiven (d : Dev) (r i : Nat) : Bool := i != fld d F.RING_TAIL_TAIL r % ringSize d r

/-- A descriptor is given back: word 1 with OWN = 0. -/
def disown (d : Dev) (a : Nat) : Dev :=
  let (w1, _, d) := mktRead d 25 (a + 1)
  mktWrite d 25 (a + 1) (w1 &&& 0x7FFFFF)

/-! ## Receiving (R294 to R296) -/

/-- The bytes that wait in the hold buffer of a port. -/
def held (p : Port) : Nat := p.hold.foldl (fun n w => n + (w.bytes.length - w.placed)) 0

/-- The next owned descriptor of receive ring `r` is taken. -/
def rxTake (d : Dev) (r : Nat) : Option Nat × Dev :=
  let h := fld d F.RING_HEAD_HEAD r
  if ringGiven d r h then
    let (w1, _, d) := mktRead d 25 (descAddr d r h + 1)
    if w1.msb then (some h, setf d F.RING_HEAD_HEAD r ((h + 1) % ringSize d r)) else (none, d)
  else (none, d)

/-- The next 2,048 bytes of a frame move into the buffer of descriptor `i`. -/
def rxFill (d : Dev) (w : RxWait) (i : Nat) : RxWait × Dev :=
  let a := descAddr d w.ring i
  let (w0, _, d) := mktRead d 25 a
  let (w1, _, d) := mktRead d 25 (a + 1)
  let b := (w.bytes.drop w.placed).take 2048
  ({ w with placed := w.placed + b.length, used := w.used ++ [i] }, mktWriteN d 25 (bufAddr w0 w1) (pack3 b))

/-- The descriptors a frame used are written back, last to first (R295): status 1 OK, 2 DISCARD, 3 BADFCS. -/
def rxReturn (d : Dev) (n : Nat) (w : RxWait) (status : Nat) : Dev :=
  let tag := (ring d w.ring).tag
  let k := w.used.length
  let d := forAll (List.range k).reverse
    (fun d j =>
      let a := descAddr d w.ring (w.used.getD j 0)
      let len := satTo 2048 (w.placed - 2048 * j)
      let w2 := status * 2 ^ 21 + b1 (j = 0) * 2 ^ 20 + b1 (j + 1 = k) * 2 ^ 19 + n * 2 ^ 17 + len
      disown (mktWriteN d 25 (a + 2)
        ([w24 w2, w24 (tag * 2 ^ 14 + w.bytes.length)] ++ stampWords (w.sec, w.frac))) a) d
  updRing d w.ring fun g => { g with tag := (tag + 1) % 1024 }

/-- A ring that drains is OFF once nothing of it is in progress (R299). -/
def ringSettle (d : Dev) (r : Nat) : Dev :=
  let busy := if r < 4 then
      (List.range 4).any fun n => (port d n).hold.any fun w => w.ring = r && !w.used.isEmpty
    else (ring d r).busy != 0
  if fld d F.RING_CFG_STATUS r = 2 && !busy then setf d F.RING_CFG_STATUS r 0 else d

/-- The oldest frame in the hold buffer of port `n` goes on: complete, or stopped for want of a descriptor. Answers
whether it is gone. -/
def holdStep (d : Dev) (n : Nat) : Nat → RxWait → Bool × RxWait × Dev
  | 0, w => (false, w, d)
  | fuel + 1, w =>
    if w.bytes.length ≤ w.placed then
      let d := rxReturn d n w 1
      (true, w, raise d w.ring)
    else
      match rxTake d w.ring with
      | (some i, d) => let (w, d) := rxFill d w i; holdStep d n fuel w
      | (none, d) => (false, w, d)

/-- The hold buffer of port `n` releases what it can, in arrival order (R295). A frame of a ring that went OFF is
counted in NOBUF. -/
def holdDrain (n : Nat) : Nat → Dev → Dev
  | 0, d => d
  | fuel + 1, d =>
    match (port d n).hold with
    | [] => d
    | w :: t =>
      if fld d F.RING_CFG_STATUS w.ring = 0 then
        holdDrain n fuel (inc (updPort d n fun p => { p with hold := t }) F.PORT_NOBUF_COUNT n)
      else
        let (gone, w, d) := holdStep d n 8 w
        if gone then holdDrain n fuel (ringSettle (updPort d n fun p => { p with hold := t }) w.ring)
        else updPort d n fun p => { p with hold := w :: t }

/-- As much as the buffer can hold of frames, one pass over. -/
def holdRelease (d : Dev) (n : Nat) : Dev := holdDrain n ((port d n).hold.length + 1) d

/-- The waiting frame is discarded (R296). -/
def holdDiscard (d : Dev) (n : Nat) : Dev :=
  match (port d n).hold with
  | [] => d
  | w :: t =>
    let d := rxReturn d n w 2
    let d := inc (updPort d n fun p => { p with hold := t }) F.RING_DISC_DISCARD w.ring
    ringSettle (postSec d 0x47 w.ring w.ring n) w.ring

/-- A frame enters the hold buffer of port `n`; where it does not fit, the waiting frame gives way (R296). -/
def holdEnter (n : Nat) (w : RxWait) : Nat → Dev → Dev
  | 0, d => d
  | fuel + 1, d =>
    if held (port d n) + w.bytes.length ≤ 16384 then
      holdRelease (updPort d n fun p => { p with hold := p.hold ++ [w] }) n
    else holdEnter n w fuel (holdRelease (holdDiscard d n) n)

/-- A frame for receive ring `r` ends at port `n` (R295, R296, R299): dropped whole by an OFF ring or a full buffer. -/
def rxHost (d : Dev) (n r : Nat) (bytes : List Byte) (st : Nat × Nat) : Dev :=
  if fld d F.RING_CFG_STATUS r = 0 || !flag d F.RING_CFG_EN r || 16384 ≤ held (port d n) then
    inc d F.PORT_NOBUF_COUNT n
  else
    holdEnter n { ring := r, bytes := bytes, sec := st.1, frac := st.2 } ((port d n).hold.length + 2) d

/-- A frame that fails at its end: where nothing waited before it, its bytes were placed as they came, and its descriptors
return with `status`: BADFCS where its FCS failed (R295), DISCARD where it was cut short (R300). -/
def rxFailed (d : Dev) (n r : Nat) (bytes : List Byte) (st : Nat × Nat) (status : Nat) : Dev :=
  if fld d F.RING_CFG_STATUS r ≠ 1 || !(port d n).hold.isEmpty then d
  else
    let fill (a : RxWait × Dev) (_ : Nat) : RxWait × Dev :=
      if a.1.bytes.length ≤ a.1.placed then a
      else match rxTake a.2 r with
        | (some i, d) => rxFill d a.1 i
        | (none, d) => (a.1, d)
    let (w, d) := (List.range 5).foldl fill ({ ring := r, bytes := bytes, sec := st.1, frac := st.2 }, d)
    if w.used.isEmpty then d else rxReturn d n w status

/-! ## Transmitting (R297, R298) -/

/-- The owned descriptors of transmit ring `r` from `i` through the one with EOF: index, word 1, length. -/
def txChain (r : Nat) : Nat → Nat → Dev → Option (List (Nat × W24 × Nat)) × Dev
  | 0, _, d => (none, d)
  | fuel + 1, i, d =>
    if !ringGiven d r i then (none, d)
    else
      let a := descAddr d r i
      let (w1, _, d) := mktRead d 25 (a + 1)
      if !w1.msb then (none, d)
      else
        let (w2, _, d) := mktRead d 25 (a + 2)
        let len := if w2.toNat % 4096 = 0 then 1 else w2.toNat % 4096
        let e := (i, w1, len)
        if w1.getLsbD 22 then (some [e], d)
        else match txChain r fuel ((i + 1) % ringSize d r) d with
          | (some l, d) => (some (e :: l), d)
          | (none, d) => (none, d)

/-- The frame at HEAD of ring `r`, where the port owns all of it. -/
def txHead (d : Dev) (r : Nat) : Option (List (Nat × W24 × Nat)) × Dev :=
  if fld d F.RING_CFG_STATUS r ≠ 1 then (none, d) else txChain r (ringSize d r) (fld d F.RING_HEAD_HEAD r) d

/-- The port a frame is for. -/
def chainPort (c : List (Nat × W24 × Nat)) : Nat := match c with | (_, w1, _) :: _ => bits w1.toNat 21 20 | [] => 0

/-- The frame is express. -/
def chainExp (c : List (Nat × W24 × Nat)) : Bool := match c with | (_, w1, _) :: _ => w1.getLsbD 19 | [] => false

/-- The frame asks for a timestamp. -/
def chainReq (c : List (Nat × W24 × Nat)) : Bool := match c with | (_, w1, _) :: _ => w1.getLsbD 18 | [] => false

/-- The length of the frame. -/
def chainLen (c : List (Nat × W24 × Nat)) : Nat := c.foldl (fun n e => n + e.2.2) 0

/-- HEAD moves past a frame that is taken. -/
def txAdvance (d : Dev) (r : Nat) (c : List (Nat × W24 × Nat)) : Dev :=
  setf d F.RING_HEAD_HEAD r ((fld d F.RING_HEAD_HEAD r + c.length) % ringSize d r)

/-- Descriptors are returned, last to first (R298): status 1 SENT, 2 LINKDOWN, 3 TOOBIG, 4 PORTOFF; `req` is the frame's
TSREQ, under which words 4 to 6 tell of a stamp or of none (R331). -/
def txReturn (d : Dev) (r : Nat) (descs : List Nat) (status : Nat) (req : Bool) (st : Option (Nat × Nat)) : Dev :=
  let tag := (ring d r).tag
  let (ts, d) := if !req then ([], d) else match st with | some s => (stampWords s, d) | none => noStampWords d
  let d := forAll descs.reverse
    (fun d i =>
      let a := descAddr d r i
      disown (mktWriteN d 25 (a + 3)
        (w24 (status * 2 ^ 21 + tag * 2 ^ 11) :: ts)) a) d
  let d := updRing d r fun g => { g with tag := (tag + 1) % 1024 }
  let d := if status = 1 then d else inc d F.RING_DISC_DISCARD r
  raise d r

/-- Frames at HEAD that are not sent are returned (R298). -/
def txServe (r : Nat) : Nat → Dev → Dev
  | 0, d => d
  | fuel + 1, d =>
    match txHead d r with
    | (none, d) => d
    | (some c, d) =>
      let n := chainPort c
      let back (s : Nat) : Dev := txServe r fuel (txReturn (txAdvance d r c) r (c.map (·.1)) s (chainReq c) none)
      if 5 < c.length || 9212 < chainLen c then back 3
      else if !portRuns d n then back 4
      else if !portUp d n then back 2
      else d

/-- Every transmit ring is served so far. -/
def txServeAll (d : Dev) : Dev := forAll [4, 5, 6, 7] (fun d r => txServe r 4096 d) d

/-- The bytes of a frame's buffers. -/
def txBytes (d : Dev) (r : Nat) (c : List (Nat × W24 × Nat)) : List Byte × Dev :=
  c.foldl
    (fun (l, d) e =>
      let (w0, _, d) := mktRead d 25 (descAddr d r e.1)
      let (b, d) := mktBytes d 25 (bufAddr w0 e.2.1) e.2.2
      (l ++ b, d)) ([], d)

/-- The frame at HEAD of ring `r` is taken for the wire, padded to 60 bytes (R279). -/
def txTake (d : Dev) (r : Nat) (c : List (Nat × W24 × Nat)) : TxFrame × Dev :=
  let (b, d) := txBytes d r c
  let b := b ++ List.replicate (60 - b.length) 0
  ({ bytes := b, kind := if chainExp c then 2 else 3, src := r, descs := c.map (·.1), tsreq := chainReq c },
   updRing (txAdvance d r c) r fun g => { g with busy := g.busy + 1 })

/-- A frame taken from ring `f.src` is done with. -/
def txFinish (d : Dev) (f : TxFrame) (status : Nat) (st : Option (Nat × Nat)) : Dev :=
  let d := txReturn d f.src f.descs status f.tsreq st
  ringSettle (updRing d f.src fun g => { g with busy := g.busy - 1 }) f.src

/-! ## Registers (R299) -/

/-- A write of a ring's TAIL: descriptors are given to the port (R293). -/
def writeRingTail (w : BitVec 6) (r : Nat) (v : W24) (d : Dev) : Dev :=
  let d := regWrite d w.toNat (F.RING_TAIL_TAIL.addr r) v
  if r < 4 then forAll (List.range 4) holdRelease d else txServe r 4096 d

/-- A write of a ring's EN, LOG2SZ and BASE_HI: LOG2SZ is written only while STATUS is OFF. -/
def writeRingCfg (w : BitVec 6) (r : Nat) (v : W24) (d : Dev) : Dev :=
  let st := fld d F.RING_CFG_STATUS r
  let size := fld d F.RING_CFG_LOG2SZ r
  let d := regWrite d w.toNat (F.RING_CFG_EN.addr r) v
  let d := if st = 0 then d else setf d F.RING_CFG_LOG2SZ r size
  if flag d F.RING_CFG_EN r then
    let d := setf d F.RING_CFG_STATUS r 1
    if r < 4 then forAll (List.range 4) holdRelease d else txServe r 4096 d
  else if st = 0 then d
  else
    let d := ringSettle (setf d F.RING_CFG_STATUS r 2) r
    if r < 4 then forAll (List.range 4) holdRelease d else d

/-- A write of a ring's DISCARD register. -/
def writeRingDisc (w : BitVec 6) (r : Nat) (v : W24) (d : Dev) : Dev :=
  let d := regWrite d w.toNat (F.RING_DISC_CLR.addr r) v
  if F.RING_DISC_CLR.of v = 1 then setf d F.RING_DISC_DISCARD r 0 else d

/-! ## Commands -/

/-- RING_TAIL_WRITE (R293). -/
def execRingTailWrite (w : BitVec 6) (r : Fin 8) (v : W24) (s : State) : Host.Outcome State Fault Refusal :=
  .next (s.write w (F.RING_TAIL_TAIL.addr r) v (writeRingTail w r.val v))

/-- RING_ENABLE_WRITE (R299). -/
def execRingEnableWrite (w : BitVec 6) (r : Fin 8) (v : W24) (s : State) : Host.Outcome State Fault Refusal :=
  .next (s.write w (F.RING_CFG_EN.addr r) v (writeRingCfg w r.val v))

/-- RING_CLR (R299). -/
def execRingClr (w : BitVec 6) (r : Fin 8) (v : W24) (s : State) : Host.Outcome State Fault Refusal :=
  .next (s.write w (F.RING_DISC_CLR.addr r) v (writeRingDisc w r.val v))

end Sys2Proof.Machine
end

