-- ==== Sys2Proof/Machine/Streams.lean ====
section
/-!
DEFINITION. Streams (R308 to R326): the stream tables and their checks, receiving and publication, transmitting.
-/
namespace Sys2Proof.Machine

/-! ## The tables (R309, R318, R320, R324) -/

/-- Samples per packet. -/
def sppOf (ptime rate : Nat) : Nat :=
  (match ptime with | 0 => 6 | 1 => 12 | 2 => 16 | _ => 48) * (if 2 ≤ rate then 2 else 1)

/-- The sample rate of a RATE code. -/
def hzOf (rate : Nat) : Nat := match rate with | 0 => 44100 | 1 => 48000 | 2 => 88200 | _ => 96000

/-- EN of the transmit (or receive) table. -/
def fEn (tx : Bool) : Fld := if tx then F.TXS_CFG_EN else F.RXS_CFG_EN
/-- STATUS. -/
def fStatus (tx : Bool) : Fld := if tx then F.TXS_CFG_STATUS else F.RXS_CFG_STATUS
/-- FMT. -/
def fFmt (tx : Bool) : Fld := if tx then F.TXS_CFG_FMT else F.RXS_CFG_FMT
/-- PTIME. -/
def fPtime (tx : Bool) : Fld := if tx then F.TXS_CFG_PTIME else F.RXS_CFG_PTIME
/-- RATE. -/
def fRate (tx : Bool) : Fld := if tx then F.TXS_CFG_RATE else F.RXS_CFG_RATE
/-- LEGB. -/
def fLegb (tx : Bool) : Fld := if tx then F.TXS_CFG_LEGB else F.RXS_CFG_LEGB
/-- CH. -/
def fCh (tx : Bool) : Fld := if tx then F.TXS_CFG_CH else F.RXS_CFG_CH
/-- FIRSTCH. -/
def fFirst (tx : Bool) : Fld := if tx then F.TXS_PT_FIRSTCH else F.RXS_LO_FIRSTCH

/-- Channels of stream `s`, 1 to 64. -/
def chOf (d : Dev) (tx : Bool) (s : Nat) : Nat :=
  let n := fld d (fCh tx) s
  if n < 1 then 1 else if 64 < n then 64 else n

/-- Samples per packet of stream `s`. -/
def sppAt (d : Dev) (tx : Bool) (s : Nat) : Nat := sppOf (fld d (fPtime tx) s) (fld d (fRate tx) s)

/-- Payload bytes of a packet of stream `s`. -/
def payloadLen (d : Dev) (tx : Bool) (s : Nat) : Nat :=
  sppAt d tx s * chOf d tx s * sampleBytes (fld d (fFmt tx) s)

/-- The link offset as the table stands, up to 384. -/
def loOf (d : Dev) (s : Nat) : Nat := satTo 384 (fld d F.RXS_LO_LO s)

/-- The jitter buffer of stream `s`. -/
def bufOf (d : Dev) (s : Nat) : Nat := fld d F.RXS_MISS_BUF_HI s * 2 ^ 24 + fld d F.RXS_BUF_LO_BUF s

/-- The port of leg `l` of stream `s`. -/
def legPort (d : Dev) (tx : Bool) (s l : Nat) : Nat :=
  if tx then fld d F.TXL_PORT_PORT (2 * s + l) else fld d F.RXL_VID_PORT (2 * s + l)

/-- The legs of stream `s`: B only with LEGB = 1. -/
def legsOf (d : Dev) (tx : Bool) (s : Nat) : List Nat := if flag d (fLegb tx) s then [0, 1] else [0]

/-- What tells a receive leg apart: port, TAG, VID, DIP, DPORT, and the source filter (R318 reason 6). -/
def legKey (d : Dev) (s l : Nat) : List Nat :=
  let i := 2 * s + l
  let f := flag d F.RXL_VID_SIPEN i
  [fld d F.RXL_VID_PORT i, fld d F.RXL_VID_TAG i, fld d F.RXL_VID_VID i,
   fld d F.RXL_DIP_HI i * 256 + fld d F.RXL_DPORT_DIP_LO i, fld d F.RXL_DPORT_DPORT i, b1 f,
   if f then fld d F.RXL_SIP_HI i * 256 + fld d F.RXL_VID_SIP_LO i else 0]

/-- The other enabled streams of one direction. -/
def othersOn (d : Dev) (tx : Bool) (s : Nat) : List Nat :=
  (List.range 1024).filter fun o => o != s && flag d (fEn tx) o

/-- The first check of R318 that an enable of stream `s` fails, or 0. The receive table takes CH as the nearer limit of its
range (R320), so only a transmit CH outside it fails. -/
def enableCheck (d : Dev) (tx : Bool) (s : Nat) : Nat :=
  let first := fld d (fFirst tx) s
  let ch := chOf d tx s
  let shares (o : Nat) : Bool :=
    decide (fld d (fFirst tx) o < first + ch) && decide (first < fld d (fFirst tx) o + chOf d tx o)
  if 3 ≤ fld d (fFmt tx) s || (tx && ch ≠ fld d (fCh tx) s) then 1
  else if 8192 < first + ch then 2
  else if (othersOn d tx s).any shares then 3
  else if 9154 < payloadLen d tx s then 4
  else if !tx && loOf d s < sppAt d tx s then 5
  else if !tx && (othersOn d tx s).any fun o =>
      (legsOf d false o).any fun m => (legsOf d false s).any fun l => legKey d s l == legKey d o m then 6
  else if flag d (fLegb tx) s && legPort d tx s 1 ≠ (legPort d tx s 0 ^^^ 1) then 7
  else if !tx && mktSize < bufOf d s + ch * 1024 then 8
  else 0

/-- STRM.CFGERR records a refusal. -/
def strmErr (d : Dev) (tx : Bool) (s reason : Nat) : Dev :=
  wr d A.STRM_CFGERR (w24 (2 ^ 23 + b1 tx * 2 ^ 22 + reason * 2 ^ 16 + s))

/-- A stream's STATUS: 0 OFF, 1 RUN, 2 DRAINING, 3 RATEHOLD. -/
def strmStatus (d : Dev) (tx : Bool) (s : Nat) : Nat := fld d (fStatus tx) s

/-- The stream's rate is not in force (R316). -/
def rateHeld (d : Dev) (tx : Bool) (s : Nat) : Bool :=
  fld d (fRate tx) s != fld d F.TICK_RATE_RATE 0
    || (doubleFamily d && decide (4096 < fld d (fFirst tx) s + chOf d tx s))

/-! ## Starting and stopping (R316 to R319, R323) -/

/-- Receive stream `s`. -/
def rx (d : Dev) (s : Nat) : Rx := Tab.get {} d.rx s

/-- Receive stream `s` replaced. -/
def setRx (d : Dev) (s : Nat) (x : Rx) : Dev := { d with rx := Tab.set {} d.rx s x }

/-- Transmit stream `s`. -/
def tx (d : Dev) (s : Nat) : Tx := Tab.get {} d.tx s

/-- Transmit stream `s` replaced. -/
def setTx (d : Dev) (s : Nat) (x : Tx) : Dev := { d with tx := Tab.set {} d.tx s x }

/-- The settings of R317 as they stand. -/
def rxSettings (d : Dev) (s : Nat) (x : Rx) : Rx :=
  let h := fld d F.RXS_PT_HOLDN s
  { x with lo := loOf d s, zero := flag d F.RXS_CFG_SUBST s, holdn := if h < 1 then 1 else if 8 < h then 8 else h
           sfade := fld d F.RXS_PT_SFADE s }

/-- Stream `s` enters RUN or RATEHOLD. -/
def strmRun (d : Dev) (tx : Bool) (s : Nat) : Dev :=
  if rateHeld d tx s then post (setf d (fStatus tx) s 3) 0x56 s (b1 tx) 0 else setf d (fStatus tx) s 1

/-- Port `n` has no twin to rely on (R288). -/
def twinBroken (d : Dev) (n : Nat) : Dev := setf (updPort d n fun p => { p with health := 0 }) F.PORT_STAT_TWIN_OK n 0

/-- Stream `s` starts (R318, R322). A receive stream with no twin leg makes TWIN_OK of its port 0 (R288). -/
def strmStart (d : Dev) (tx : Bool) (s : Nat) : Dev :=
  if !flag d F.STRM_CTRL_ENABLE 0 then d
  else if tx then strmRun (setf (setTx d s { on := true }) F.TXS_SEQ_SEQ s 0) true s
  else
    let d := if flag d F.RXS_CFG_LEGB s then d else twinBroken d (legPort d false s 0)
    strmRun (setRx d s (rxSettings d s { on := true })) false s

/-- Stream `s` is OFF. -/
def strmOff (d : Dev) (tx : Bool) (s : Nat) : Dev :=
  let d := setf d (fStatus tx) s 0
  if tx then setTx d s {} else setRx d s {}

/-- The streams of one direction that are not OFF. -/
def strmOn (d : Dev) (tx : Bool) : List Nat := if tx then d.tx.map (·.1) else d.rx.map (·.1)

/-- STRM.CTRL.STATUS follows what its write asked for (R311). -/
def strmCtrlStatus (d : Dev) : Dev :=
  setf d F.STRM_CTRL_STATUS 0
    (if flag d F.STRM_CTRL_ENABLE 0 then 1 else if d.rx.isEmpty && d.tx.isEmpty then 0 else 2)

/-- Stream `s` is to run: its EN and STRM.CTRL's. -/
def strmWanted (d : Dev) (tx : Bool) (s : Nat) : Bool := flag d (fEn tx) s && flag d F.STRM_CTRL_ENABLE 0

/-- Enabled streams start anew, those that drain once they are OFF (R311). -/
def strmRestart (d : Dev) (tx : Bool) : Dev :=
  forAll ((List.range 1024).filter fun s => flag d (fEn tx) s && strmStatus d tx s ≠ 2)
    (fun d s => strmStart d tx s) d

/-- Receive stream `s` at a tick edge: settings, drain, RATEHOLD (R316, R317, R319). -/
def rxEdge (d : Dev) (s : Nat) : Dev :=
  let x := rxSettings d s (rx d s)
  let d := setRx d s x
  match strmStatus d false s with
  | 2 =>
    if 1 < x.drain then setRx d s { x with drain := x.drain - 1 }
    else
      let d := strmOff d false s
      if strmWanted d false s then strmStart d false s else d
  | st =>
    if !strmWanted d false s then
      setf (setRx d s { x with drain := if x.zero then 1 else x.holdn + x.sfade }) F.RXS_CFG_STATUS s 2
    else
      let held := rateHeld d false s
      if st = 1 && held then strmRun d false s
      else if st = 3 && !held then strmRun (setRx d s { x with place := [], flags := [] }) false s
      else d

/-- A frame of transmit stream `s` waits or is on a wire. -/
def txWaiting (d : Dev) (s : Nat) : Bool :=
  d.ports.any fun p => (p.2.txq ++ p.2.wire.toList).any fun f => f.kind = 1 && f.src = s

/-- A transmit stream that drains is OFF once its last packet is sent (R323); where it was enabled anew meanwhile, it
starts (R311, R318). -/
def txSettle (d : Dev) (s : Nat) : Dev :=
  let x := tx d s
  if strmStatus d true s = 2 && x.begun.isNone && x.full.isNone && !txWaiting d s then
    let d := strmOff d true s
    if strmWanted d true s then strmStart d true s else d
  else d

/-- Transmit stream `s` before the egress latch: it begins to drain, or starts again. -/
def txStatus (d : Dev) (s : Nat) : Dev :=
  if strmWanted d true s then txSettle d s
  else if strmStatus d true s = 3 then strmOff d true s
  else txSettle (setf d F.TXS_CFG_STATUS s 2) s

/-- Transmit stream `s` after the cue point: RATEHOLD sends nothing (R316). -/
def txHold (d : Dev) (s : Nat) : Dev :=
  let held := rateHeld d true s
  match strmStatus d true s with
  | 1 => if held then strmRun (setTx d s { tx d s with begun := none, acc := [], full := none }) true s else d
  | 3 => if held then d else strmRun d true s
  | _ => d

/-! ## Receiving (R312 to R314, R326) -/

/-- Frame `l` at port `n` is a packet of leg `i` of stream `s` (R312). -/
def legMatches (d : Dev) (n s i : Nat) (l : List Byte) : Bool :=
  match legKey d s i with
  | [port, tag, vid, dip, dport, sipen, sip] =>
    port = n && (if tag = 1 then tagged l && frameVid l = vid else !tagged l || frameVid l = 0)
      && ipDst l = dip && udpDst l = dport && (sipen = 0 || ipSrc l = sip)
  | _ => false

/-- The streams and legs a frame is a packet of, of which R318's reason 6 lets there be more than one. -/
def strmMatch (d : Dev) (n : Nat) (l : List Byte) : List (Nat × Nat) :=
  if !isUdp l then []
  else (strmOn d false).flatMap fun s => ((legsOf d false s).filter fun i => legMatches d n s i l).map fun i => (s, i)

/-- The difference of two media timestamps, signed. -/
def mcDiff (a b : BitVec 32) : Int := (a - b).toInt

/-- A fault of a leg: the port whose streams it protects is no longer healthy (R288). -/
def legFault (d : Dev) (s l : Nat) : Dev :=
  if flag d F.RXS_CFG_LEGB s then
    twinBroken d (legPort d false s l ^^^ 1)
  else d

/-- LIVE of a leg. -/
def fLive (l : Nat) : Fld := if l = 0 then F.RXS_CFG_LIVEA else F.RXS_CFG_LIVEB

/-- The sequence number of a leg's packet is noted, and what it skips is a gap (R314). -/
def legSeq (d : Dev) (s l : Nat) (seq : BitVec 16) : Dev :=
  let x := rx d s
  let last := if l = 0 then x.seqA else x.seqB
  let k := match last with | none => 1 | some p => (seq - p).toNat
  if 1 ≤ k && k ≤ 32767 then
    let d := setRx d s (if l = 0 then { x with seqA := some seq } else { x with seqB := some seq })
    if 1 < k then
      legFault (post (incBy d (if l = 0 then F.RXS_LEGA_GAP else F.RXS_LEGB_GAP) s (k - 1)) 0x50 s l (k - 1)) s l
    else d
  else d

/-- One sample time of a packet is written where its place does not hold it yet (R313). -/
def placeSample (d : Dev) (s : Nat) (t : BitVec 32) (b : List (W24 × BitVec 4)) : Dev :=
  let x := rx d s
  let p := t.toNat % 1024
  if Tab.get none x.place p = some t then d
  else
    let am := fld d F.RXS_CFG_FMT s = 2
    let fl := if am then (b.foldl (fun (f, j) e => (Tab.set 0 f (64 * p + j) e.2, j + 1)) (x.flags, 0)).1 else x.flags
    let d := setRx d s { x with place := Tab.set none x.place p (some t), flags := fl }
    (b.foldl (fun (d, j) e => (mktWrite d 25 (bufOf d s + j * 1024 + p) e.1, j + 1)) (d, 0)).1

/-- The samples of a payload, sample time by sample time. -/
def payloadSamples (fmt ch spp : Nat) (b : List Byte) : Samples :=
  (List.range spp).map fun i => (List.range ch).map fun j =>
    sampleIn fmt ((b.drop ((i * ch + j) * sampleBytes fmt)).take (sampleBytes fmt))

/-- The samples of a packet whose first has media timestamp `t0` enter the jitter buffer (R313). -/
def placePacket (d : Dev) (s l : Nat) (t0 : BitVec 32) (b : Samples) : Dev :=
  let p := d.mc - BitVec.ofNat 32 (rx d s).lo
  let first := mcDiff t0 p
  let last := mcDiff (t0 + BitVec.ofNat 32 (b.length - 1)) p
  if 1023 < last then legFault (post d 0x52 s l (w24i last).toNat) s l
  else
    let d := tallyLeg (setf d (fLive l) s 1) s (l = 1) (first - 1)
    let d := (b.foldl
      (fun (d, i) e =>
        (if first + (i : Nat) ≤ 0 then d else placeSample d s (t0 + BitVec.ofNat 32 i) e, i + 1)) (d, 0)).1
    if first ≤ 0 then
      legFault (post (inc d (if l = 0 then F.RXS_LEGA_LATE else F.RXS_LEGB_LATE) s) 0x51 s l (w24i (first - 1)).toNat) s l
    else d

/-- A packet of leg `l` of stream `s` completes (R312, R313, R326); in HUSH depths 2 and 3 none is taken (R395). -/
def rxPacket (d : Dev) (s l : Nat) (frame : List Byte) : Dev :=
  let r := udpData frame
  let b := rtpPayload r
  let fmt := fld d F.RXS_CFG_FMT s
  if strmStatus d false s ≠ 1 || d.house.gated then d
  else if !ipSumOk frame || ipFrag frame then post d 0x54 s l 1
  else if rtpVersion r ≠ 2 then post d 0x54 s l 2
  else if rtpType r ≠ fld d F.RXS_PT_PT s then post d 0x54 s l 3
  else if b.length ≠ payloadLen d false s then post d 0x53 s l b.length
  else
    let off := BitVec.ofNat 32 (fld d F.RXS_MISS_TSOFF_HI s * 2 ^ 24 + fld d F.RXS_TSOFF_TSOFF_LO s)
    placePacket (legSeq d s l (rtpSeq r)) s l (rtpTime r - off)
      (payloadSamples fmt (chOf d false s) (sppAt d false s) b)

/-- A packet of each of the streams and legs `to`. -/
def rxPackets (d : Dev) (places : List (Nat × Nat)) (l : List Byte) : Dev := places.foldl (fun d e => rxPacket d e.1 e.2 l) d

/-- An accepted frame counts in RXFRAMES and is taken by `f`; a port that is not UP in RUN receives none (R277, R307). -/
def portTakes (d : Dev) (n : Nat) (f : Dev → Dev) : Dev :=
  if portUp d n && portRuns d n then f (setf d F.PORT_RXFRAMES_COUNT n (fld d F.PORT_RXFRAMES_COUNT n + 1)) else d

/-- Frame `l` at port `n`, taken as a stream packet where it is one. -/
def strmPacket (d : Dev) (n : Nat) (l : List Byte) : Dev :=
  match strmMatch d n l with | [] => d | places => portTakes d n fun d => rxPackets d places l

/-- A leg has accepted no packet for 8 packet times (R314). -/
def liveTimeout (d : Dev) (s l : Nat) : Dev := legFault (setf d (fLive l) s 0) s l

/-! ## Publication (R311, R315) -/

/-- The ingress region's base. -/
def iframe (d : Dev) : Nat := fld d F.STRM_FRAME_HI_IFRAME 0 * 2 ^ 24 + fld d F.STRM_IFRAME_LO_LO 0
/-- The ingress flag region's base. -/
def iflag (d : Dev) : Nat := fld d F.STRM_FRAME_HI_IFLAG 0 * 2 ^ 24 + fld d F.STRM_IFLAG_LO_LO 0
/-- The egress region's base. -/
def eframe (d : Dev) : Nat := fld d F.STRM_FRAME_HI_EFRAME 0 * 2 ^ 24 + fld d F.STRM_EFRAME_LO_LO 0
/-- The egress flag region's base. -/
def eflag (d : Dev) : Nat := fld d F.STRM_FRAME_HI_EFLAG 0 * 2 ^ 24 + fld d F.STRM_EFLAG_LO_LO 0

/-- An ingress channel is published: its word, and its flag word where it has one (R311), by master `m`. -/
def ingressPut (d : Dev) (m c : Nat) (v : W24) (fl : Option (BitVec 4)) : Dev :=
  let d := { d with ingressPub := Tab.set 0 d.ingressPub c v, ingressFl := Tab.set 0 d.ingressFl c (fl.getD 0) }
  let d := mktWrite d m (iframe d + c) v
  match fl with | some f => mktWrite d m (iflag d + c) (f.zeroExtend 24) | none => d

/-- A word under the substitution fade (R315). -/
def fadeWord (x : Rx) (v : W24) : W24 :=
  if x.fade = 0 then v else w24i (scaleEven v.toInt (curtainGain x.fade x.sfade))

/-- What a stream publishes for a present sample: its channels' words as read from the jitter buffer, and its flags. -/
def presentWords (d : Dev) (s p : Nat) : List (W24 × BitVec 4) × Dev :=
  (List.range (chOf d false s)).foldl
    (fun (l, d) j =>
      let (v, _, d) := mktRead d 25 (bufOf d s + j * 1024 + p)
      (l ++ [(v, Tab.get 0 (rx d s).flags (64 * p + j))], d)) ([], d)

/-- What a stream publishes for a missing sample (R315): the record after it, and its channels' words. -/
def missingWords (x : Rx) (ch : Nat) : Rx × List W24 :=
  let x := if x.run = 0 then { x with held := x.last } else x
  let x := { x with run := x.run + 1 }
  let x := if !x.zero && x.holdn < x.run then { x with fade := satTo (if x.sfade = 0 then 1 else x.sfade) (x.fade + 1) }
    else x
  (x, (List.range ch).map fun j =>
    if x.zero then 0 else if x.run ≤ x.holdn then Tab.get 0 x.held j else fadeWord x (Tab.get 0 x.held j))

/-- The words of a stream go to its ingress channels and are kept as the last published. -/
def publishWords (d : Dev) (s : Nat) (l : List (W24 × BitVec 4)) : Dev :=
  let am := fld d F.RXS_CFG_FMT s = 2
  let first := fld d F.RXS_LO_FIRSTCH s
  let keep := (l.foldl (fun (t, j) e => (Tab.set 0 t j e.1, j + 1)) (([] : Tab W24), 0)).1
  let d := setRx d s { rx d s with last := keep }
  (l.foldl
    (fun (d, j) e =>
      (if doubleFamily d && 4096 ≤ first + j then d else ingressPut d 25 (first + j) e.1 (if am then some e.2 else none),
       j + 1)) (d, 0)).1

/-- Receive stream `s` publishes at the ingress latch (R313, R315, R316). -/
def rxPublish (d : Dev) (s : Nat) : Dev :=
  let x := rx d s
  let t := d.mc - BitVec.ofNat 32 x.lo
  let p := t.toNat % 1024
  let st := strmStatus d false s
  if st = 1 && Tab.get none x.place p = some t then
    let x := { x with run := 0, fade := x.fade - 1 }
    let (l, d) := presentWords (setRx d s x) s p
    publishWords d s (l.map fun e => (fadeWord x e.1, e.2))
  else
    let d := if st = 3 then d else inc d F.RXS_MISS_MISS s
    let d := if x.run = 0 && st ≠ 3 then
        post d 0x55 s (t.toNat % 2 ^ 24) (fld d F.RXS_CFG_LIVEA s * 2 + fld d F.RXS_CFG_LIVEB s)
      else d
    let (x, l) := missingWords x (chOf d false s)
    publishWords (setRx d s x) s (l.map fun v => (v, 4))

/-- Network channel `c` belongs to a stream that publishes. -/
def channelTaken (d : Dev) (c : Nat) : Bool :=
  !(doubleFamily d && 4096 ≤ c) &&
    d.rx.any fun e =>
      decide (fld d F.RXS_LO_FIRSTCH e.1 ≤ c) && decide (c < fld d F.RXS_LO_FIRSTCH e.1 + chOf d false e.1)

/-- The network channels at the ingress latch (R311). -/
def ingressNetwork (d : Dev) : Dev :=
  let d := forAll (strmOn d false) rxPublish d
  forAll ((List.range 8192).filter fun c => !channelTaken d c) (fun d c => ingressPut d 25 c 0 (some 0)) d

/-! ## Transmitting (R321 to R323) -/

/-- A frame is queued on the transmit side of port `n`; without a link it is discarded (R275, R300). -/
def portQueue (d : Dev) (n : Nat) (f : TxFrame) : Dev :=
  if portUp d n && portRuns d n then updPort d n fun p => { p with txq := p.txq ++ [f] } else inc d F.PORT_XDROP_COUNT n

/-- The destination address of a leg's packets (R322); where neither rule gives one it is open (notes/assumptions/2). -/
def legMac (d : Dev) (i dip : Nat) : List Byte × Dev :=
  if flag d F.TXL_PORT_UCAST i then
    (beBytes 3 (fld d F.TXL_DMAC_HI_HI i) ++ beBytes 3 (fld d F.TXL_DMAC_LO_LO i), d)
  else if dip / 2 ^ 28 = 14 then ([0x01, 0x00, 0x5E] ++ beBytes 3 (dip % 2 ^ 23), d)
  else
    let (a, d) := freshWord d
    let (b, d) := freshWord d
    (beBytes 3 a.toNat ++ beBytes 3 b.toNat, d)

/-- The RTP packet of a stream (R322). -/
def rtpBuild (d : Dev) (s : Nat) (seq : BitVec 16) (ts : BitVec 32) (b : Samples) : List Byte :=
  let fmt := fld d F.TXS_CFG_FMT s
  let ssrc := fld d F.TXS_SSRC_SSRC_HI s * 2 ^ 16 + fld d F.TXS_SSRC_LO_SSRC_LO s
  [0x80, BitVec.ofNat 8 (fld d F.TXS_PT_PT s)] ++ beBytes 2 seq.toNat ++ beBytes 4 ts.toNat ++ beBytes 4 ssrc ++
    b.flatMap fun r => (r.foldl (fun (l, j) e => (l ++ sampleOut fmt j e.1 e.2, j + 1)) (([] : List Byte), 0)).1

/-- A packet on leg `l` of stream `s` (R322), queued at its port. -/
def legSend (d : Dev) (s l : Nat) (rtp : List Byte) : Dev :=
  let i := 2 * s + l
  let n := fld d F.TXL_PORT_PORT i
  let dip := fld d F.TXL_DIP_HI i * 256 + fld d F.TXL_DPORT_DIP_LO i
  let (dst, d) := legMac d i dip
  let src := fld d F.STRM_PIP_HI_IP n * 256 + fld d F.STRM_PIP_LO_IP n
  let tci := if flag d F.TXL_PORT_TAG i then some (fld d F.TXL_VID_PCP i * 8192 + fld d F.TXL_VID_VID i) else none
  let udp := beBytes 2 (fld d F.TXL_PORT_SPORT i) ++ beBytes 2 (fld d F.TXL_DPORT_DPORT i) ++
    beBytes 2 (rtp.length + 8) ++ [0, 0] ++ rtp
  let ip := ipHeader (fld d F.TXS_PHASE_DSCP s) (udp.length + 20) (fld d F.TXS_PHASE_TTL s) src dip
  portQueue d n { bytes := etherHeader dst (portMac d n) tci 0x0800 ++ ip ++ udp, kind := 1, src := s }

/-- The packet that stream `s` completed goes to its legs' ports. -/
def txQueue (d : Dev) (s : Nat) : Dev :=
  let x := tx d s
  match x.full with
  | none => d
  | some (mc, seq, b) =>
    let off := BitVec.ofNat 32 (fld d F.TXS_SSRC_TSOFF_HI s * 2 ^ 24 + fld d F.TXS_TSOFF_TSOFF_LO s)
    let d := setTx d s { x with full := none }
    txSettle (forAll (legsOf d true s) (fun d l => legSend d s l (rtpBuild d s seq (mc + off) b)) d) s

/-- Packets that have not started by this edge are late (R321). -/
def slipPort (d : Dev) (n : Nat) : Dev :=
  let late := ((port d n).txq.filter fun f => f.kind = 1 && !f.slipped).map (·.src)
  let d := updPort d n fun p => { p with txq := p.txq.map fun f => { f with slipped := true } }
  forAll late (fun d s => inc d F.TXS_SLIP_SLIP s) d

/-- The packets due at this edge are queued, in ascending stream number (R321). -/
def txSend (d : Dev) : Dev :=
  let d := forAll (List.range 4) slipPort d
  forAll (strmOn d true) txQueue d

/-- A packet of stream `s` is in accumulation, or begins with the sample of media count `mc`. -/
def txBegins (d : Dev) (s : Nat) (mc : BitVec 32) : Bool :=
  let spp := sppAt d true s
  strmStatus d true s = 1 && (tx d s).begun.isNone
    && ((mc.toNat : Int) - (fld d F.TXS_PHASE_PHASE s % spp : Nat)) % spp = 0

/-- Transmit stream `s` takes its channels' latched sample of the tick with media count `mc`, `l` their words and flags
(R321). -/
def txLatch (d : Dev) (s : Nat) (mc : BitVec 32) (l : List (W24 × BitVec 4)) : Dev :=
  let x := tx d s
  let x := if txBegins d s mc then { x with begun := some mc, acc := [] } else x
  match x.begun with
  | none => setTx d s x
  | some k0 =>
    let acc := x.acc ++ [l]
    if sppAt d true s ≤ acc.length then
      let q := fld d F.TXS_SEQ_SEQ s
      setf (setTx d s { x with begun := none, acc := [], full := some (k0, BitVec.ofNat 16 q, acc) }) F.TXS_SEQ_SEQ s (q + 1)
    else setTx d s { x with acc := acc }

/-! ## Load (R287) -/

/-- The configured express load of port `n` in 1/96 bit/s. -/
def expressLoad (d : Dev) (n : Nat) (tx : Bool) : Nat :=
  (List.range 1024).foldl
    (fun k s =>
      if flag d (fEn tx) s then
        (legsOf d tx s).foldl
          (fun k l =>
            if legPort d tx s l = n then
              let t := if tx then flag d F.TXL_PORT_TAG (2 * s + l) else flag d F.RXL_VID_TAG (2 * s + l)
              k + (payloadLen d tx s + (if t then 82 else 78)) * 8 * (hzOf (fld d (fRate tx) s) * 96 / sppAt d tx s)
            else k) k
      else k) 0

/-! ## Registers (R311, R318) -/

/-- The bits of a table word that may change while the stream is not OFF: EN, and the fields of R317. -/
def freeBits (tx : Bool) (off : Nat) : Nat :=
  if tx then (if off = 0 then 0x800000 else 0)
  else match off with | 0 => 0x802000 | 1 => 0x3FE000 | 2 => 0x01FFFF | _ => 0

/-- The base of a stream's table. -/
def strmBase (tx : Bool) (s : Nat) : Nat := (if tx then A.TXS_CFG else A.RXS_CFG) + 8 * s

/-- A write of offset `off` of stream `s` (R318, R319, R323). -/
def writeStream (w : BitVec 6) (tx : Bool) (s off : Nat) (v : W24) (d : Dev) : Dev :=
  let a := strmBase tx s + off
  let was := flag d (fEn tx) s
  let old := rd d a
  let d := regWrite d w.toNat a v
  let new := rd d a
  let d := if strmStatus d tx s ≠ 0 && (old ^^^ new) &&& ~~~(w24 (freeBits tx off)) ≠ 0 then
      strmErr (wr d a (if off = 0 then (old &&& 0x7FFFFF) ||| (new &&& 0x800000) else old)) tx s 9
    else d
  if off = 0 && flag d (fEn tx) s && !was then
    let r := enableCheck d tx s
    if r ≠ 0 then strmErr (setf d (fEn tx) s 0) tx s r
    else if strmStatus d tx s = 0 then strmStart d tx s else d
  else d

/-- A write of a leg entry of stream `s` at address `a` (R318). -/
def writeLeg (w : BitVec 6) (tx : Bool) (s a : Nat) (v : W24) (d : Dev) : Dev :=
  let old := rd d a
  let d := regWrite d w.toNat a v
  if strmStatus d tx s ≠ 0 && rd d a ≠ old then strmErr (wr d a old) tx s 9 else d

/-- A write of STRM.CTRL (R311): streams drain from the next tick edge, or start anew. -/
def writeStrmCtrl (w : BitVec 6) (v : W24) (d : Dev) : Dev :=
  let was := flag d F.STRM_CTRL_ENABLE 0
  let d := regWrite d w.toNat A.STRM_CTRL v
  let d := if flag d F.STRM_CTRL_ENABLE 0 && !was then strmRestart (strmRestart d false) true else d
  strmCtrlStatus d

/-- A write of STRM.CLR (R311). -/
def writeStrmClr (w : BitVec 6) (v : W24) (d : Dev) : Dev :=
  let d := regWrite d w.toNat A.STRM_CLR v
  let s := F.STRM_CLR_STREAM.of v
  if F.STRM_CLR_GO.of v = 0 then d
  else if F.STRM_CLR_TX.of v = 1 then setf d F.TXS_SLIP_SLIP s 0
  else wr (wr (setf d F.RXS_MISS_MISS s 0) (F.RXS_LEGA_GAP.addr s) 0) (F.RXS_LEGB_GAP.addr s) 0

/-! ## Commands -/

/-- STREAM_PACKET (R313). -/
def execStreamPacket (n : Fin 4) (bytes : List Byte) (s : State) : Host.Outcome State Fault Refusal :=
  .next (s.act fun d => strmPacket d n.val bytes)

/-- LIVE_TIMEOUT (R314). -/
def execLiveTimeout (s : BitVec 10) (legB : Bool) (st : State) : Host.Outcome State Fault Refusal :=
  .next (st.act fun d => liveTimeout d s.toNat (b1 legB))

/-- STREAM_ENABLE (R318). -/
def execStreamEnable (w : BitVec 6) (tx : Bool) (s : BitVec 10) (v : W24) (st : State) :
    Host.Outcome State Fault Refusal :=
  .next (st.write w ((if tx then F.TXS_CFG_EN else F.RXS_CFG_EN).addr s.toNat) v (writeStream w tx s.toNat 0 v))

/-- RX_STREAM_DISABLE (R319). -/
def execRxStreamDisable (w : BitVec 6) (s : BitVec 10) (v : W24) (st : State) : Host.Outcome State Fault Refusal :=
  .next (st.write w (F.RXS_CFG_EN.addr s.toNat) v (writeStream w false s.toNat 0 v))

/-- TX_STREAM_DISABLE (R323). -/
def execTxStreamDisable (w : BitVec 6) (s : BitVec 10) (v : W24) (st : State) : Host.Outcome State Fault Refusal :=
  .next (st.write w (F.TXS_CFG_EN.addr s.toNat) v (writeStream w true s.toNat 0 v))

/-- STRM_ENABLE_WRITE (R311). -/
def execStrmEnableWrite (w : BitVec 6) (v : W24) (s : State) : Host.Outcome State Fault Refusal :=
  .next (s.write w A.STRM_CTRL v (writeStrmCtrl w v))

/-- STRM_CLR (R311). -/
def execStrmClr (w : BitVec 6) (v : W24) (s : State) : Host.Outcome State Fault Refusal :=
  .next (s.write w A.STRM_CLR v (writeStrmClr w v))

/-- MC_HI_READ (R442): any master's read latches MC_LO. -/
def execMcHiRead (w : BitVec 6) (s : State) : Host.Outcome State Fault Refusal :=
  .next (s.read w A.STRM_MC_HI fun d => { d with mcLatch := some (d.mc.truncate 24) })

end Sys2Proof.Machine
end

