-- ==== Sys2Proof/Machine/Ports.lean ====
section
/-!
DEFINITION. The ports (R273 to R286, R300 to R307): the link, what becomes of a received frame, the transmitter,
preemption, PAUSE.
-/
namespace Sys2Proof.Machine

/-- The other port of a twin pair. -/
def twin (n : Nat) : Nat := n ^^^ 1

/-! ## Received frames that come to nothing (R275, R295, R300) -/

/-- The ring a host frame is steered to. -/
def steerRing (d : Dev) (n : Nat) (l : List Byte) : Nat :=
  if etherType l = 0x88F7 || udpPort l = some 319 || udpPort l = some 320 then fld d F.PORT_STEER_PTPRING n
  else if etherType l = 0x88CC || (isIp4 l && ipProto l = 2) then fld d F.PORT_STEER_CTLRING n
  else fld d F.PORT_STEER_DEFRING n

/-- The destination address is one the port takes. -/
def addressed (d : Dev) (n : Nat) (l : List Byte) : Bool :=
  beAt l 0 1 % 2 = 1 || l.take 6 == portMac d n || flag d F.PORT_CTRL_PROMISC n

/-- The stamp of the frame of bytes `l` whose last bit came at `lp0`, or that taken at its first fragment (R330). -/
def rxStamp (d : Dev) (n lp0 : Nat) (first : Option (Nat × Nat)) (l : List Byte) : (Nat × Nat) × Dev :=
  match first with
  | some st => (st, d)
  | none => stamp d n (8 * (l.length + 4)) lp0 false

/-- A frame of bytes `l` whose descriptors go back with `status` where it was a host frame's (R295, R300). -/
def frameFails (d : Dev) (n lp0 : Nat) (first : Option (Nat × Nat)) (l : List Byte) (status : Nat) : Dev :=
  if addressed d n l && strmMatch d n l = [] && etherType l ≠ 0x8808 && etherType l ≠ 0x88B5 then
    let (st, d) := rxStamp d n lp0 first l
    rxFailed d n (steerRing d n l) l st status
  else d

/-- A frame cut short, of which `l` was received: DISCARD, once its header is there (R275, R300). -/
def frameCut (d : Dev) (n lp0 : Nat) (first : Option (Nat × Nat)) (l : List Byte) : Dev :=
  if l.length < 14 then d else frameFails d n lp0 first l 2

/-- The receiver of port `n` stops: a frame in reassembly is discarded, and what is cut short of a frame or fragment that
was arriving may still be reported (R275, R300). -/
def rxStop (d : Dev) (n : Nat) : Dev :=
  let d := match (port d n).rxOpen with
    | some o => frameCut d n 0 (some o.stamp) o.bytes
    | none => d
  updPort d n fun p => { p with rxOpen := none, rxCut := true }

/-! ## The link (R274, R275) -/

/-- A frame that left no trace on the wire: an express frame is counted in XDROP, a host frame returned with `status`
(R275, R301). -/
def frameLost (d : Dev) (n : Nat) (f : TxFrame) (status : Nat) : Dev :=
  if f.kind ≤ 1 then
    let d := inc d F.PORT_XDROP_COUNT n
    if f.kind = 1 then txSettle d f.src else d
  else txFinish d f status none

/-- The frame on the wire of port `n` is of a class that a pause holds (R285). -/
def wirePaused (d : Dev) (n : Nat) : Bool :=
  (port d n).wire.toList.any fun f => f.kind = 3 || flag d F.PORT_PAUSE_SCOPE n

/-- A pause that waited for the frame on the wire takes effect (R285). -/
def pauseDue (d : Dev) (n : Nat) : Dev :=
  if (port d n).pausePend && !wirePaused d n then
    setf (updPort d n fun p => { p with pausePend := false }) F.PORT_STAT_PAUSED n 1
  else d

/-- Everything on the transmit side of port `n` is given up. -/
def portFlush (d : Dev) (n status : Nat) : Dev :=
  let p := port d n
  let d := setPort d n { p with txq := [], wire := none, open_ := none }
  pauseDue (txServeAll ((p.wire.toList ++ p.open_.toList ++ p.txq).foldl (fun d f => frameLost d n f status) d)) n

/-- Port `n` is no twin to rely on (R288). -/
def twinFault (d : Dev) (n : Nat) : Dev := twinBroken d (twin n)

/-- A preemptable frame on the wire of port `n` ends with its link: the bits sent of it, how many being open
(notes/assumptions/2), count as preemptable (R287). -/
def wireBroken (d : Dev) (n : Nat) : Dev :=
  match (port d n).wire with
  | some f =>
    if f.kind = 3 then
      let (u, d) := freshWord d
      updPort d n fun p => { p with preTx := p.preTx + u.toNat % ((f.bytes.length - f.gone + 24) * 8 + 1) }
    else d
  | none => d

/-- The rate in force is the configured one, and no step is under way (R289). -/
def trainAtSpeed (d : Dev) (n : Nat) : Dev :=
  setf (setf d F.PORT_STAT_RATE n (fld d F.PORT_CTRL_SPEED n)) F.PORT_STAT_STEP n 0

/-- Port `n`, if it is UP, goes DOWN (R275): host frames are returned with `status`. A disable and a rate step have brought
the frame on the wire to its end (R300, R301). -/
def linkFall (d : Dev) (n cause status : Nat) : Dev :=
  if !portUp d n then d
  else
    let d := rxStop (if cause = 4 || cause = 5 then d else wireBroken d n) n
    let d := post d 0x41 n cause (fld d F.PORT_STAT_RATE n)
    let d := setf (setf (setf d F.PORT_STAT_DCAUSE n cause) F.PORT_STAT_LINK n 0) F.PORT_STAT_PSTATE n 0
    let d := portFlush (twinFault d n) n status
    if cause = 5 then d else trainAtSpeed d n

/-- Frame bytes, preamble, a CRC and gap of one fragment of a preemptable frame count as preemptable bits (R287). -/
def preSent (d : Dev) (n bytes : Nat) : Dev := updPort d n fun p => { p with preTx := p.preTx + (bytes + 24) * 8 }

/-- A preemptable frame that a disable or a rate-step switch cuts short is ended with a continuation fragment whose mCRC
is the complement of the right one (R301). How long the fragments sent of it were is open (notes/assumptions/2). -/
def cutShort (d : Dev) (n : Nat) : Dev :=
  let p := port d n
  match p.open_.toList ++ p.wire.toList.filter fun f => f.kind = 3 && fld d F.PORT_STAT_PSTATE n = 2 with
  | [] => d
  | f :: _ =>
    let (u, d) := freshWord d
    preSent (updPort d n fun p => { p with closed := some f }) n (u.toNat % (f.bytes.length + 5))

/-- The ports and clocks are stopped by HUSH depth 3 (R395). -/
def hushClocks (d : Dev) : Bool := d.house.gated && d.house.depth = 3

/-- Pn_TXDIS is asserted while STATUS is OFF, and at HUSH depth 3 (R276, R300, R395). -/
def txDis (d : Dev) (n : Nat) : Bool := fld d F.PORT_CTRL_STATUS n = 0 || hushClocks d

/-- A draining port is OFF (R300). -/
def portOff (d : Dev) (n : Nat) : Dev :=
  let d := portFlush (linkFall (cutShort d n) n 4 4) n 4
  setf (trainAtSpeed (setf d F.PORT_STAT_LINK n 0) n) F.PORT_CTRL_STATUS n 0

/-- A port falls (R275): nothing more of a drain is left to do (R300). -/
def linkDown (d : Dev) (n cause : Nat) : Dev :=
  let up := portUp d n
  let d := linkFall d n cause 2
  if up && fld d F.PORT_CTRL_STATUS n = 2 then portOff d n else d

/-- Verification begins (R280). -/
def verifyStart (d : Dev) (n : Nat) : Dev :=
  if !flag d F.PORT_PREEMPT_EN n then setf d F.PORT_STAT_PSTATE n 0
  else if flag d F.PORT_PREEMPT_VDIS n then setf d F.PORT_STAT_PSTATE n 2
  else updPort (setf d F.PORT_STAT_PSTATE n 1) n fun p => { p with verifies := 1, sendVerify := true }

/-- Link PLL `n` is locked (R353). -/
def lpLocked (d : Dev) (n : Nat) : Bool := fld d F.LP_STAT_STATE n = 2

/-- A training port comes UP, its link PLL being locked (R274, R291 step 4). -/
def linkUp (d : Dev) (n : Nat) : Dev :=
  if !portRuns d n || portUp d n || !lpLocked d (fld d F.PORT_CTRL_LPSEL n) then d
  else
    let d := setf (updPort d n fun p => { p with rxCut := false }) F.PORT_STAT_LINK n 2
    let rate := fld d F.PORT_STAT_RATE n
    let d := verifyStart (post d 0x40 n rate 0) n
    if fld d F.PORT_STAT_STEP n = 3 then
      let d := post d 0x45 n rate (port d n).stepSeq
      updPort (setf (inc d F.PORT_STEPS_COUNT n) F.PORT_STAT_STEP n 0) n fun p => { p with sinceStep := 0 }
    else d

/-- A port that is DOWN while it runs trains (R274 step 1), but in HUSH depth 3 (R395). -/
def portTrain (d : Dev) (n : Nat) : Dev :=
  if portRuns d n && !hushClocks d && fld d F.PORT_STAT_LINK n = 0 then setf d F.PORT_STAT_LINK n 1 else d

/-- Training starts at the configured rate (R274 step 1, R289); in HUSH depth 3 the port stays DOWN (R395). -/
def trainStart (d : Dev) (n : Nat) : Dev :=
  if hushClocks d then trainAtSpeed d n else setf (trainAtSpeed d n) F.PORT_STAT_LINK n 1

/-! ## PAUSE (R283, R284) -/

/-- A PAUSE frame of `q` quanta. -/
def pauseFrame (d : Dev) (n q : Nat) : Dev :=
  let paused := flag d F.PORT_STAT_PAUSED n
  if !flag d F.PORT_PAUSE_EN n || flag d F.PORT_STAT_HOLDOFF n then inc d F.PORT_PAUSE_IGN_COUNT n
  else if q = 0 then
    if paused then updPort (setf (inc d F.PORT_PAUSE_RX_COUNT n) F.PORT_STAT_PAUSED n 0) n fun p => { p with pauses := 0 }
    else inc d F.PORT_PAUSE_ZERO_COUNT n
  else
    pauseDue (updPort (inc d F.PORT_PAUSE_RX_COUNT n) n fun p =>
      { p with pauses := if paused || p.pausePend then p.pauses + 1 else 1, pausePend := !paused }) n

/-- The pause time runs out. -/
def pauseEnd (d : Dev) (n : Nat) : Dev :=
  if flag d F.PORT_STAT_PAUSED n then updPort (setf d F.PORT_STAT_PAUSED n 0) n fun p => { p with pauses := 0 } else d

/-- Continuous pause reaches the watchdog (R284). -/
def pauseStorm (d : Dev) (n : Nat) : Dev :=
  if !flag d F.PORT_STAT_PAUSED n then d
  else
    let d := post d 0x43 n (port d n).pauses (fld d F.PORT_PAUSE_SCOPE n)
    let d := setf (pauseEnd d n) F.PORT_STAT_HOLDOFF n 1
    let now := nowNs d
    let d := updPort d n fun p => { p with storms := now :: p.storms.filter fun t => now < t + 60000000000 }
    let m := fld d F.PORT_PAUSE2_STORMMAX n
    if m ≠ 0 && m ≤ (port d n).storms.length then post (setf d F.PORT_PAUSE_EN n 0) 0x44 n 0 0 else d

/-! ## Rate-step frames and LLDP (R290, R292) -/

/-- The address of rate-step frames. -/
def stepMac : List Byte := [0x01, 0x80, 0xC2, 0x00, 0x00, 0x0E]

/-- A rate-step frame of a port: type 1 REQ, 2 ACK, 3 NAK. -/
def stepFrame (d : Dev) (n type : Nat) : TxFrame :=
  let p := port d n
  let flags := fld d F.PORT_STAT_TWIN_OK n + 2 * fld d F.PORT_STEP_EN n
  let (sec, ns) := if type = 2 then (p.stepSec, p.stepNs) else (0, 0)
  let body := [1, BitVec.ofNat 8 type, BitVec.ofNat 8 (b1 p.stepUp), BitVec.ofNat 8 flags] ++ beBytes 2 p.stepSeq ++
    beBytes 6 sec ++ beBytes 4 ns ++ beBytes 8 Config.fuseSerial.toNat
  { bytes := etherHeader stepMac (portMac d n) none 0x88B5 ++ body ++ List.replicate 22 0, kind := 0 }

/-- A rate-step frame is well formed. -/
def stepOk (l : List Byte) : Bool :=
  beAt l 14 1 = 1 && decide (1 ≤ beAt l 15 1) && decide (beAt l 15 1 ≤ 3) && decide (beAt l 16 1 ≤ 1)

/-- What a step frame or TLV says of the partner. -/
def partnerSays (d : Dev) (n : Nat) (permit ok : Bool) : Dev :=
  setf (setf d F.PORT_STAT_PPERMIT n (b1 permit)) F.PORT_STAT_PTWIN_OK n (b1 ok)

/-- The TLVs of an LLDP frame: type and value. -/
def lldpTlvs : Nat → List Byte → List (Nat × List Byte)
  | 0, _ => []
  | k + 1, l =>
    if l.length < 2 then []
    else
      let h := beAt l 0 2
      let v := (l.drop 2).take (h % 512)
      if h / 512 = 0 then [] else (h / 512, v) :: lldpTlvs k (l.drop (2 + h % 512))

/-- An LLDP frame is inspected for the Ouvlor TLV (R292). -/
def lldpSee (d : Dev) (n : Nat) (l : List Byte) : Dev :=
  let t := lldpTlvs l.length (l.drop (l3 l))
  match t.find? fun e => e.1 = 127 && beAt e.2 0 3 = 0x4AD0E7 && beAt e.2 3 1 = 1 && e.2.length = 15 && beAt e.2 4 1 = 1 with
  | none => d
  | some e =>
    let ttl := match t.find? fun e => e.1 = 3 with | some x => beAt x.2 0 2 | none => 0
    let f := beAt e.2 5 1
    partnerSays (setf d F.PORT_STAT_PARTNER n (b1 (ttl != 0))) n (f % 2 = 1) (f / 2 % 2 = 1)

/-! ## Receiving (R277, R278, R282) -/

/-- A fragment error (R282). -/
def fragError (d : Dev) (n : Nat) : Dev :=
  let d := inc d F.PORT_FRAGERR_COUNT n
  let now := nowNs d
  let p := port d n
  let p := if p.fragErrs = 0 || p.fragFirst + 1000000000 < now then { p with fragErrs := 1, fragFirst := now }
    else { p with fragErrs := p.fragErrs + 1 }
  let d := setPort d n p
  let lim := fld d F.PORT_PREEMPT_ERRLIM n
  if lim ≠ 0 && lim < p.fragErrs then
    let d := updPort d n fun p => { p with fragErrs := 0 }
    let d := if flag d F.PORT_PREEMPT_EN n then
        updPort (setf d F.PORT_STAT_PSTATE n 1) n fun p => { p with verifies := 1, sendVerify := true }
      else d
    post d 0x42 n 0 2
  else d

/-- What a fragment of `b` bytes makes of the frame in reassembly (R282): how many of the listed errors it shows, the
frame's bytes where it ends one, with the stamp taken at its first fragment, and the frame in reassembly after it. `st` is
the stamp of the fragment itself. -/
def reassemble (open_ : Option RxOpen) (part : MacPart) (b : List Byte) (st : Nat × Nat) :
    Nat × Option (List Byte × Option (Nat × Nat)) × Option RxOpen :=
  match part with
  | .express => (0, some (b, none), open_)
  | .start frame crcOk more =>
    let bad := b1 open_.isSome + b1 (more && !crcOk)
    if !more then (bad, some (b, none), none)
    else if !crcOk then (bad, none, none)
    else (bad, none, some { bytes := b, frame := frame, frag := 0, stamp := st })
  | .cont frame frag crcOk more =>
    match open_ with
    | none => (1 + b1 (more && !crcOk), none, none)
    | some o =>
      let bad := b1 (frame ≠ o.frame) + b1 (frag ≠ o.frag) + b1 (more && !crcOk)
      if bad ≠ 0 then (bad, none, none)
      else if more then (0, none, some { o with bytes := o.bytes ++ b, frag := o.frag + 1 })
      else (0, some (o.bytes ++ b, some o.stamp), none)

/-- The switch time and answer to a REQ, and what ACK and NAK do, are of Sys2Proof/Machine/RateStep.lean; here the port
takes what every well-formed step frame says. -/
def stepSee (d : Dev) (n : Nat) (l : List Byte) : Dev :=
  partnerSays d n (beAt l 17 1 / 2 % 2 = 1) (beAt l 17 1 % 2 = 1)

/-- An accepted host frame, which ended at `lp0`, goes to its ring (R278 rows 5 to 7). -/
def hostFrame (d : Dev) (n lp0 : Nat) (first : Option (Nat × Nat)) (l : List Byte) : Dev :=
  let d := if etherType l = 0x88CC then lldpSee d n l else d
  let (st, d) := rxStamp d n lp0 first l
  rxHost d n (steerRing d n l) l st

/-- What R278 does with an accepted frame; `step` takes a well-formed rate-step frame. -/
def dispatch (step : Dev → Nat → List Byte → Dev) (d : Dev) (n lp0 : Nat) (first : Option (Nat × Nat)) (l : List Byte) :
    Dev :=
  if etherType l = 0x8808 then
    if beAt l (l3 l) 2 = 1 then pauseFrame d n (beAt l (l3 l + 2) 2) else inc d F.PORT_MACCTL_COUNT n
  else if etherType l = 0x88B5 && l.take 6 == stepMac then
    if stepOk l then step d n l else inc d F.PORT_MACCTL_COUNT n
  else
    match strmMatch d n l with
    | [] => hostFrame d n lp0 first l
    | places => rxPackets d places l

/-- A frame of bytes `l` has ended at port `n` (R277). A frame with a second tag, which no row of R277 counts, is
discarded without a count (notes/assumptions/51). -/
def frameEnds (step : Dev → Nat → List Byte → Dev) (d : Dev) (n lp0 : Nat) (fcsOk : Bool) (first : Option (Nat × Nat))
    (l : List Byte) : Dev :=
  let len := l.length + 4
  if !fcsOk || len < 64 || 9216 < len then
    let d := inc d F.PORT_RXBAD_COUNT n
    if !fcsOk && 64 ≤ len && len ≤ 9216 then frameFails d n lp0 first l 3 else d
  else if doubleTagged l || !addressed d n l then d
  else portTakes d n fun d => dispatch step d n lp0 first l

/-- A frame or a fragment of port `n` is cut short (R275, R300). -/
def receiveCut (d : Dev) (n : Nat) (f : RxFrame) : Dev :=
  let o := (port d n).rxOpen
  let d := if f.part = .express then d else updPort d n fun p => { p with rxOpen := none }
  match f.part, o with
  | .cont .., some o => frameCut d n f.lp0.toNat (some o.stamp) (o.bytes ++ f.bytes)
  | .cont .., none => d
  | _, _ => frameCut d n f.lp0.toNat none f.bytes

/-- A frame or a fragment ends at port `n` (R275, R277, R282, R300): one that was arriving when the receiver stopped is
still reported as cut short. -/
def frameReceive (step : Dev → Nat → List Byte → Dev) (d : Dev) (n : Nat) (f : RxFrame) : Dev :=
  if !portUp d n || !portRuns d n then
    if f.cut && (port d n).rxCut then receiveCut (updPort d n fun p => { p with rxCut := false }) n f else d
  else
    let d := if f.part = .express then d else updPort d n fun p => { p with preRx := p.preRx + (f.bytes.length + 24) * 8 }
    if f.cut then receiveCut d n f
    else
      let (st, d) := match f.part with
        | .start _ _ true => stamp d n (8 * (f.bytes.length + 4)) f.lp0.toNat false
        | _ => ((0, 0), d)
      let (bad, whole, open_) := reassemble (port d n).rxOpen f.part f.bytes st
      let d := updPort d n fun p => { p with rxOpen := open_ }
      let d := forAll (List.range bad) (fun d _ => fragError d n) d
      match whole with
      | some (l, first) => frameEnds step d n f.lp0.toNat f.fcsOk first l
      | none => d

/-! ## The transmitter (R279, R281, R285) -/

/-- Bytes put into a frame at `off`. -/
def splice (l : List Byte) (off : Nat) (b : List Byte) : List Byte := l.take off ++ b ++ l.drop (off + b.length)

/-- Where a PTP message begins in a frame (R332). -/
def ptpAt (l : List Byte) : Option Nat :=
  if etherType l = 0x88F7 then some (l3 l)
  else if udpPort l = some 319 then (udpAt l).map (· + 8)
  else none

/-- A one-step Sync is completed with its egress time (R332). -/
def oneStep (l : List Byte) (st : Nat × Nat) : List Byte :=
  match ptpAt l with
  | none => l
  | some o =>
    if beAt l o 1 % 16 ≠ 0 || beAt l (o + 6) 1 / 2 % 2 = 1 then l
    else
      let l := splice l (o + 34) (beBytes 6 st.1 ++ beBytes 4 (st.2 / 256))
      let l := splice l (o + 8) (beBytes 8 ((beAt l (o + 8) 8 + st.2 % 256 * 256) % 2 ^ 64))
      if etherType l = 0x88F7 then l else splice l (o - 2) [0, 0]

/-- A frame starts on the wire of port `n` at `lp0`: its stamp, and a one-step Sync's time (R330, R332). -/
def wireStart (d : Dev) (n lp0 : Nat) (f : TxFrame) : Dev :=
  let (f, d) :=
    if f.tsreq && f.stamp.isNone then
      let (st, d) := stamp d n 64 lp0 true
      let one := f.kind = 2 && (fld d F.TIME_CTRL_ONESTEP 0).testBit n
      ({ f with stamp := some st, bytes := if one then oneStep f.bytes st else f.bytes }, d)
    else (f, d)
  updPort d n fun p => { p with wire := some f }

/-- The frame on the wire has been sent whole. -/
def wireDone (d : Dev) (n : Nat) (f : TxFrame) : Dev :=
  let d := setf (updPort d n fun p => { p with wire := none }) F.PORT_TXFRAMES_COUNT n (fld d F.PORT_TXFRAMES_COUNT n + 1)
  let d := if f.kind = 3 then preSent d n (f.bytes.length - f.gone) else d
  if f.kind = 0 then d else if f.kind = 1 then txSettle d f.src else txFinish d f 1 f.stamp

/-- Both classes are held. -/
def pausedAll (d : Dev) (n : Nat) : Bool := flag d F.PORT_STAT_PAUSED n && flag d F.PORT_PAUSE_SCOPE n

/-- The frame at HEAD of ring `r` is one for port `n` of the asked class. -/
def ringOffers (d : Dev) (n r : Nat) (exp : Bool) : Option (List (Nat × W24 × Nat)) :=
  match (txHead d r).1 with
  | some c => if chainPort c = n && chainExp c == exp then some c else none
  | none => none

/-- An express frame waits for port `n`. -/
def expressWaits (d : Dev) (n : Nat) : Bool :=
  !pausedAll d n && (!(port d n).txq.isEmpty || [4, 5, 6, 7].any fun r => (ringOffers d n r true).isSome)

/-- The frame on the wire is preempted once `sent` bytes of its fragment are sent (R281). -/
def preemptable (d : Dev) (n : Nat) (f : TxFrame) (sent : Nat) : Bool :=
  f.kind = 3 && fld d F.PORT_STAT_PSTATE n = 2
    && decide (64 * (fld d F.PORT_PREEMPT_ADDFRAG n + 1) ≤ sent) && decide (f.gone + sent + 64 ≤ f.bytes.length + 4)
    && (expressWaits d n || flag d F.PORT_STAT_PAUSED n || (port d n).pausePend)

/-- A boundary after `sent` bytes: the fragment on the wire ends there where R281 preempts its frame, else it has run on
to the end of the frame. -/
def wireBoundary (d : Dev) (n sent : Nat) : Dev :=
  match (port d n).wire with
  | none => d
  | some f =>
    if preemptable d n f sent then
      preSent (updPort d n fun p => { p with wire := none, open_ := some { f with gone := f.gone + sent } }) n sent
    else wireDone d n f

/-- The frame at HEAD of ring `r` starts. -/
def ringStart (d : Dev) (n lp0 r : Nat) (c : List (Nat × W24 × Nat)) : Dev :=
  let (f, d) := txTake d r c
  txServe r 4096 (wireStart d n lp0 f)

/-- The first frame of class `kind` that waits in the port's queue. -/
def queueStart (d : Dev) (n lp0 kind : Nat) : Option Dev :=
  ((port d n).txq.find? fun f => f.kind = kind).map fun f =>
    wireStart (updPort d n fun p => { p with txq := p.txq.erase f }) n lp0 f

/-- The first ring of a list that offers a frame of the asked class starts it. -/
def ringsStart (d : Dev) (n lp0 : Nat) (exp : Bool) (l : List Nat) : Option Dev :=
  l.findSome? fun r => (ringOffers d n r exp).map fun c =>
    let d := ringStart d n lp0 r c
    if exp then d else updPort d n fun p => { p with rr := r - 4 }

/-- The transmitter chooses the next frame (R279). -/
def wireChoose (d : Dev) (n lp0 : Nat) : Dev :=
  if pausedAll d n then d
  else match queueStart d n lp0 0 with
  | some d => d
  | none => match queueStart d n lp0 1 with
  | some d => d
  | none => match ringsStart d n lp0 true [4, 5, 6, 7] with
  | some d => d
  | none =>
    if flag d F.PORT_STAT_PAUSED n then d
    else match (port d n).open_ with
    | some f => updPort d n fun p => { p with wire := some f, open_ := none }
    | none =>
      let r := (port d n).rr
      (ringsStart d n lp0 false ((List.range 4).map fun i => 4 + (r + 1 + i) % 4)).getD d

/-- A frame or fragment boundary at `lp0`, after `sent` bytes (R279): verify and respond mPackets have gone out. -/
def frameBoundary (d : Dev) (n sent lp0 : Nat) : Dev :=
  if !portUp d n then d
  else
    let d := wireBoundary (updPort d n fun p => { p with sendVerify := false, sendRespond := false }) n sent
    let d := pauseDue d n
    if fld d F.PORT_CTRL_STATUS n = 2 then portOff d n
    else if (port d n).wire.isSome then d
    else wireChoose d n lp0

/-- An express frame has waited XHOLD (R286): the oldest in the port's queue, or the one at the HEAD of TX ring `r`. A
discarded host frame's STATUS is open among the assigned ones (notes/assumptions/2). -/
def expressDiscard (d : Dev) (n : Nat) (r : Option Nat) : Dev :=
  match r with
  | none =>
    match (port d n).txq with
    | f :: t =>
      let d := inc (updPort d n fun p => { p with txq := t }) F.PORT_XDROP_COUNT n
      if f.kind = 1 then txSettle d f.src else d
    | [] => d
  | some r =>
    match ringOffers d n r true with
    | none => d
    | some c =>
      let (u, d) := freshWord d
      let d := txReturn (txAdvance d r c) r (c.map (·.1)) (u.toNat % 4 + 1) (chainReq c) none
      txServe r 4096 (inc d F.PORT_XDROP_COUNT n)

/-! ## Registers (R300, R302, R304, R307) -/

/-- What retrains the link. -/
def lineConfig (d : Dev) (n : Nat) : List Nat :=
  [fld d F.PORT_CTRL_SPEED n, fld d F.PORT_CTRL_FEC25 n, fld d F.PORT_CTRL_FEC10 n, fld d F.PORT_CTRL_LPSEL n]

/-- A write of PORTn.CTRL (R274, R300). -/
def writePortCtrl (w : BitVec 6) (n : Nat) (v : W24) (d : Dev) : Dev :=
  let old := lineConfig d n
  let st := fld d F.PORT_CTRL_STATUS n
  let d := regWrite d w.toNat (F.PORT_CTRL_ENABLE.addr n) v
  let d := if lineConfig d n ≠ old && st ≠ 0 then
      let d := linkDown d n 6
      if fld d F.PORT_CTRL_STATUS n = 0 then d else trainStart d n
    else d
  let st := fld d F.PORT_CTRL_STATUS n
  if flag d F.PORT_CTRL_ENABLE n then
    if st = 1 then d
    else
      let d := setf d F.PORT_CTRL_STATUS n 1
      if portUp d n then d else trainStart d n
  else if st = 0 then d
  else
    let d := if st = 1 && portUp d n then rxStop d n else d
    let d := txServeAll (setf d F.PORT_CTRL_STATUS n 2)
    match (port d n).wire with
    | some f => if f.kind = 3 && fld d F.PORT_STAT_PSTATE n = 2 then portOff d n else d
    | none => portOff d n

/-- A write of PORTn.PREEMPT (R280, R304): EN starts or ends the use of preemption. -/
def writePreempt (w : BitVec 6) (n : Nat) (v : W24) (d : Dev) : Dev :=
  let d := regWrite d w.toNat (F.PORT_PREEMPT_EN.addr n) v
  let st := fld d F.PORT_STAT_PSTATE n
  if !flag d F.PORT_PREEMPT_EN n then setf d F.PORT_STAT_PSTATE n 0
  else if portUp d n && (st = 0 || st = 3) then verifyStart d n else d

/-- A write of PORTn.CNTCLR (R307). -/
def writeCntclrPort (w : BitVec 6) (n : Nat) (v : W24) (d : Dev) : Dev :=
  let d := regWrite d w.toNat (F.PORT_CNTCLR_CLR.addr n) v
  if F.PORT_CNTCLR_CLR.of v = 1 then forAll (List.range 11) (fun d i => wr d (F.PORT_RXFRAMES_COUNT.addr n + i) 0) d else d

/-! ## Commands -/

/-- LINK_UP (R274). -/
def execLinkUp (n : Fin 4) (s : State) : Host.Outcome State Fault Refusal := .next (s.act fun d => linkUp d n.val)

/-- LINK_DOWN (R275). -/
def execLinkDown (n : Fin 4) (cause : BitVec 3) (s : State) : Host.Outcome State Fault Refusal :=
  .next (s.act fun d => linkDown d n.val cause.toNat)

/-- PORT_CONFIG_WRITE (R274). -/
def execPortConfigWrite (w : BitVec 6) (n : Fin 4) (v : W24) (s : State) : Host.Outcome State Fault Refusal :=
  .next (s.write w (F.PORT_CTRL_ENABLE.addr n) v (writePortCtrl w n.val v))

/-- PORT_ENABLE_WRITE (R300). -/
def execPortEnableWrite (w : BitVec 6) (n : Fin 4) (v : W24) (s : State) : Host.Outcome State Fault Refusal :=
  .next (s.write w (F.PORT_CTRL_ENABLE.addr n) v (writePortCtrl w n.val v))

/-- PAUSE_FRAME (R283). -/
def execPauseFrame (n : Fin 4) (q : BitVec 16) (s : State) : Host.Outcome State Fault Refusal :=
  .next (s.act fun d => portTakes d n.val fun d => pauseFrame d n.val q.toNat)

/-- PAUSE_END (R283). -/
def execPauseEnd (n : Fin 4) (s : State) : Host.Outcome State Fault Refusal := .next (s.act fun d => pauseEnd d n.val)

/-- PAUSE_STORM (R284). -/
def execPauseStorm (n : Fin 4) (s : State) : Host.Outcome State Fault Refusal :=
  .next (s.act fun d => pauseStorm d n.val)

/-- HOLDOFF_END (R284). -/
def execHoldoffEnd (n : Fin 4) (s : State) : Host.Outcome State Fault Refusal :=
  .next (s.act fun d => setf d F.PORT_STAT_HOLDOFF n.val 0)

/-- EXPRESS_DISCARD (R286). -/
def execExpressDiscard (n : Waiter) (s : State) : Host.Outcome State Fault Refusal :=
  .next (s.act fun d => expressDiscard d n.n.val (n.ring.map fun r => 4 + r.val))

/-- VERIFY_MPACKET (R280). -/
def execVerifyMpacket (n : Fin 4) (s : State) : Host.Outcome State Fault Refusal :=
  .next (s.act fun d =>
    if flag d F.PORT_PREEMPT_EN n.val then updPort d n.val fun p => { p with sendRespond := true } else d)

/-- RESPOND_MPACKET (R280). -/
def execRespondMpacket (n : Fin 4) (s : State) : Host.Outcome State Fault Refusal :=
  .next (s.act fun d =>
    if fld d F.PORT_STAT_PSTATE n.val = 1 then setf d F.PORT_STAT_PSTATE n.val 2 else d)

/-- The verify interval ends without a respond mPacket (R280). -/
def verifyTimer (d : Dev) (n : Nat) : Dev :=
  if fld d F.PORT_STAT_PSTATE n ≠ 1 then d
  else if (port d n).verifies < 3 then updPort d n fun p => { p with verifies := p.verifies + 1, sendVerify := true }
  else post (setf d F.PORT_STAT_PSTATE n 3) 0x42 n 0 1

/-- VERIFY_TIMER (R280). -/
def execVerifyTimer (n : Fin 4) (s : State) : Host.Outcome State Fault Refusal :=
  .next (s.act fun d => verifyTimer d n.val)

/-- FRAME_BOUNDARY (R279). -/
def execFrameBoundary (n : TxPoint) (s : State) : Host.Outcome State Fault Refusal :=
  .next (s.act fun d => frameBoundary d n.n.val n.sent.toNat n.lp0.toNat)

/-- PORT_CNTCLR (R307). -/
def execPortCntclr (w : BitVec 6) (n : Fin 4) (v : W24) (s : State) : Host.Outcome State Fault Refusal :=
  .next (s.write w (F.PORT_CNTCLR_CLR.addr n) v (writeCntclrPort w n.val v))

end Sys2Proof.Machine
end

