-- ==== Sys2Proof/Machine/RateStep.lean ====
section
/-!
DEFINITION. Rate stepping (R287 to R292), and with it the reception of frames. What R288 measures in seconds is counted
in TAI seconds (notes/assumptions/33).
-/
namespace Sys2Proof.Machine

/-! ## Load and conditions (R287, R288) -/

/-- A percentage of 10 Gbit/s in 1/96 bit/s. -/
def percent (p : Nat) : Nat := p * 100000000 * 96

/-- A value held between 1 and `m`. -/
def oneTo (m n : Nat) : Nat := if n < 1 then 1 else if m < n then m else n

/-- The load of port `n` in one direction, in 1/96 bit/s. -/
def portLoad (d : Dev) (n : Nat) (tx : Bool) : Nat :=
  expressLoad d n tx + (if tx then (port d n).avgTx else (port d n).avgRx) * 96

/-- Every receive stream of port `n` has a live twin leg. -/
def streamsTwinned (d : Dev) (n : Nat) : Bool :=
  (strmOn d false).all fun s =>
    (legsOf d false s).all fun l =>
      legPort d false s l ≠ n || (flag d F.RXS_CFG_LEGB s && flag d (fLive (1 - l)) s)

/-- One second more of what R288 measures at port `n`. -/
def portSecond (d : Dev) (n : Nat) : Dev :=
  let d := updPort d n fun p => { p with avgTx := p.preTx, avgRx := p.preRx, preTx := 0, preRx := 0 }
  let floor := percent (oneTo 100 (fld d F.PORT_STEP_FLOOR n))
  let low := decide (portLoad d n true < floor) && decide (portLoad d n false < floor)
  let well := portUp d (twin n) && streamsTwinned d n
  let d := updPort d n fun p =>
    { p with below := if low then satTo 511 (p.below + 1) else 0, health := if well then satTo 255 (p.health + 1) else 0
             sinceStep := satTo 255 (p.sinceStep + 1), stepWait := p.stepWait - 1 }
  setf d F.PORT_STAT_TWIN_OK n (b1 (oneTo 255 (fld d F.PORT_STEP2_HEALTH n) ≤ (port d n).health))

/-- The last three rows of R288. -/
def stepSafe (d : Dev) (n : Nat) : Bool :=
  flag d F.PORT_STAT_TWIN_OK n && streamsTwinned d n && flag d F.PORT_STAT_PTWIN_OK n
    && fld d F.PORT_STAT_STEP (twin n) = 0
    && decide (oneTo 255 (fld d F.PORT_STEP2_HEALTH n) ≤ (port d (twin n)).sinceStep)

/-- The direction port `n` would step in by its own conditions: `some true` up. -/
def stepWish (d : Dev) (n : Nat) : Option Bool :=
  if !portUp d n || fld d F.PORT_STAT_STEP n ≠ 0 || (port d n).stepWait ≠ 0 || flag d F.PORT_CTRL_SPEED n
      || !stepSafe d n then none
  else if flag d F.PORT_STAT_RATE n then
    let ceil := percent (oneTo 100 (fld d F.PORT_STEP_CEIL n))
    if !flag d F.PORT_STEP_EN n || ceil < portLoad d n true || ceil < portLoad d n false then some true else none
  else if flag d F.PORT_STEP_EN n && flag d F.PORT_STAT_PARTNER n && flag d F.PORT_STAT_PPERMIT n
      && oneTo 511 (fld d F.PORT_STEP_HOLD n) ≤ (port d n).below then some false
  else none

/-- Of twins that both qualify the lower goes first. -/
def stepTurn (d : Dev) (n : Nat) : Option Bool :=
  if n % 2 = 1 && (stepWish d (twin n)).isSome then none else stepWish d n

/-! ## The exchange (R291) -/

/-- A step frame of type `type` is queued. -/
def stepSend (d : Dev) (n type : Nat) : Dev := portQueue d n (stepFrame d n type)

/-- A port whose conditions hold sends REQ; its sequence number is open (notes/assumptions/2). -/
def stepRequest (d : Dev) (n : Nat) : Dev :=
  match stepTurn d n with
  | none => d
  | some up =>
    let (u, d) := freshWord d
    let d := updPort d n fun p =>
      { p with stepUp := up, stepSeq := u.toNat % 65536, stepMine := true, stepTries := 1 }
    stepSend (setf d F.PORT_STAT_STEP n 1) n 1

/-- STEP_FAIL: no request again for HOLD s. -/
def stepFail (d : Dev) (n why : Nat) : Dev :=
  let d := post d 0x46 n (b1 (port d n).stepUp) why
  updPort (setf d F.PORT_STAT_STEP n 0) n fun p => { p with stepWait := oneTo 511 (fld d F.PORT_STEP_HOLD n) }

/-- A REQ is answered (R291 step 2): ACK with a switch time at least 5 ms away, how much more being open
(notes/assumptions/2), or NAK. -/
def stepAnswer (d : Dev) (n : Nat) (l : List Byte) : Dev :=
  let up := beAt l 16 1 = 1
  let ok := stepSafe d n && (up || flag d F.PORT_STEP_EN n) && !flag d F.TIME_CTRL_COARSE 0
  let (u, d) := freshWord d
  let (v, d) := freshWord d
  let t := nowNs d + 5000000 + u.toNat * 2 ^ 24 + v.toNat
  if ok then
    let d := updPort d n fun p =>
      { p with stepUp := up, stepSeq := beAt l 18 2, stepMine := false
               stepSec := t / 1000000000, stepNs := t % 1000000000 }
    setf (stepSend d n 2) F.PORT_STAT_STEP n 2
  else
    let p := port d n
    let d := stepSend (setPort d n { p with stepUp := up, stepSeq := beAt l 18 2 }) n 3
    updPort d n fun q => { q with stepUp := p.stepUp, stepSeq := p.stepSeq }

/-- A REQ (R291): of two requests that crossed, the one from the lower serial number stands. -/
def stepReq (d : Dev) (n : Nat) (l : List Byte) : Dev :=
  let d := stepSee d n l
  if fld d F.PORT_STAT_STEP n = 1 then
    if Config.fuseSerial.toNat < beAt l 30 8 then d else stepAnswer (setf d F.PORT_STAT_STEP n 0) n l
  else stepAnswer d n l

/-- The frame answers the request under way. -/
def stepMatches (d : Dev) (n : Nat) (l : List Byte) : Bool :=
  fld d F.PORT_STAT_STEP n = 1 && beAt l 18 2 = (port d n).stepSeq

/-- An ACK: the switch time is set. -/
def stepAck (d : Dev) (n : Nat) (l : List Byte) : Dev :=
  let ok := stepMatches d n l
  let d := stepSee d n l
  if ok then
    setf (updPort d n fun p => { p with stepSec := beAt l 20 6, stepNs := beAt l 26 4 }) F.PORT_STAT_STEP n 2
  else d

/-- A NAK: the request fails. -/
def stepNak (d : Dev) (n : Nat) (l : List Byte) : Dev :=
  let ok := stepMatches d n l
  let d := stepSee d n l
  if ok then stepFail d n 1 else d

/-- A well-formed step frame, by its type. -/
def stepTake (d : Dev) (n : Nat) (l : List Byte) : Dev :=
  match beAt l 15 1 with | 1 => stepReq d n l | 2 => stepAck d n l | _ => stepNak d n l

/-- No answer within 2 ms. -/
def stepTimeout (d : Dev) (n : Nat) : Dev :=
  if fld d F.PORT_STAT_STEP n ≠ 1 then d
  else if (port d n).stepTries < 3 then stepSend (updPort d n fun p => { p with stepTries := p.stepTries + 1 }) n 1
  else stepFail d n 2

/-- TIME has reached the switch time. -/
def stepDue (d : Dev) (n : Nat) : Bool := decide ((port d n).stepSec * 1000000000 + (port d n).stepNs ≤ nowNs d)

/-- The switch (R291 step 3): the frame on the wire has ended, a preempted one is closed, the rate changes. -/
def stepSwitch (d : Dev) (n : Nat) : Dev :=
  if fld d F.PORT_STAT_STEP n ≠ 2 || !stepDue d n || !portUp d n then d
  else
    let d := match (port d n).wire with | some f => wireDone d n f | none => d
    let d := linkFall (cutShort d n) n 5 2
    setf (setf d F.PORT_STAT_RATE n (b1 !(port d n).stepUp)) F.PORT_STAT_STEP n 3

/-- The link is not UP 500 ms after the switch: STEP_FAIL, and training at SPEED (R289, R291). -/
def stepUpTimeout (d : Dev) (n : Nat) : Dev :=
  if fld d F.PORT_STAT_STEP n = 3 && !portUp d n then trainAtSpeed (stepFail d n 3) n else d

/-- A write of PORTn.STEP (R305): refused where FLOOR would not be less than CEIL. -/
def writePortStep (w : BitVec 6) (n : Nat) (v : W24) (d : Dev) : Dev :=
  let floor := F.PORT_STEP_FLOOR.of v
  let ceil := F.PORT_STEP_CEIL.of v
  if oneTo 100 floor < oneTo 100 ceil then regWrite d w.toNat (F.PORT_STEP_EN.addr n) v
  else
    let (f, c) := (fld d F.PORT_STEP_FLOOR n, fld d F.PORT_STEP_CEIL n)
    let d := regWrite d w.toNat (F.PORT_STEP_EN.addr n) v
    setf (setf (setf d F.PORT_STEP_FLOOR n f) F.PORT_STEP_CEIL n c) F.PORT_STEP2_CFGERR n 1

/-- A rate-step frame, taken by `f` where it is well formed, is counted in MACCTL where it is not (R290). -/
def stepFrameIn (f : Dev → Nat → List Byte → Dev) (d : Dev) (n : Nat) (l : List Byte) : Dev :=
  if stepOk l then f d n l else inc d F.PORT_MACCTL_COUNT n

/-! ## Commands -/

/-- FRAME_RECEIVE (R277). -/
def execFrameReceive (n : Fin 4) (f : RxFrame) (s : State) : Host.Outcome State Fault Refusal :=
  .next (s.act fun d => frameReceive stepTake d n.val f)

/-- STEP_REQUEST (R291). -/
def execStepRequest (n : Fin 4) (s : State) : Host.Outcome State Fault Refusal :=
  .next (s.act fun d => stepRequest d n.val)

/-- STEP_REQ_FRAME (R291). -/
def execStepReqFrame (n : Fin 4) (bytes : List Byte) (s : State) : Host.Outcome State Fault Refusal :=
  .next (s.act fun d => portTakes d n.val fun d => stepFrameIn stepReq d n.val bytes)

/-- STEP_ACK_FRAME (R291). -/
def execStepAckFrame (n : Fin 4) (bytes : List Byte) (s : State) : Host.Outcome State Fault Refusal :=
  .next (s.act fun d => portTakes d n.val fun d => stepFrameIn stepAck d n.val bytes)

/-- STEP_NAK_FRAME (R291). -/
def execStepNakFrame (n : Fin 4) (bytes : List Byte) (s : State) : Host.Outcome State Fault Refusal :=
  .next (s.act fun d => portTakes d n.val fun d => stepFrameIn stepNak d n.val bytes)

/-- STEP_REQ_TIMEOUT (R291). -/
def execStepReqTimeout (n : Fin 4) (s : State) : Host.Outcome State Fault Refusal :=
  .next (s.act fun d => stepTimeout d n.val)

/-- STEP_SWITCH (R291). -/
def execStepSwitch (n : Fin 4) (s : State) : Host.Outcome State Fault Refusal :=
  .next (s.act fun d => stepSwitch d n.val)

/-- STEP_UP_TIMEOUT (R291). -/
def execStepUpTimeout (n : Fin 4) (s : State) : Host.Outcome State Fault Refusal :=
  .next (s.act fun d => stepUpTimeout d n.val)

/-- PARTNER_EXPIRY (R292). -/
def execPartnerExpiry (n : Fin 4) (s : State) : Host.Outcome State Fault Refusal :=
  .next (s.act fun d => setf d F.PORT_STAT_PARTNER n.val 0)

/-- PORT_STEP_WRITE (R305). -/
def execPortStepWrite (w : BitVec 6) (n : Fin 4) (v : W24) (s : State) : Host.Outcome State Fault Refusal :=
  .next (s.write w (F.PORT_STEP_EN.addr n) v (writePortStep w n.val v))

end Sys2Proof.Machine
end

