-- ==== Sys2Proof/Machine/Rehearsal.lean ====
section
/-!
DEFINITION. What the stalls do beside the accesses of the other chapters: granted accesses and BAR2 (R166, R170, R174),
scrub writes (R171), sparing (R177, R178) and rehearsal (R180 to R184).
-/
namespace Sys2Proof.Machine

/-! ## Accesses -/

/-- A copy of rehearsal or of sparing runs (R177, R180). -/
def copyRuns (d : Dev) : Bool :=
  fld d F.REH_STAT_STEP 0 = 2 || fld d F.REH_STAT_STEP 0 = 6 || d.stalls.copying.isSome

/-- A stall grants one access of master `m`, which has waited `wait` (R170 to R173, R406); an engine's write is kept for
R57. A copy's read passes over a poisoned word in silence (R175). -/
def marketAccess (d : Dev) (m a : Nat) (wr : Option W24) (flips : BitVec 30) (wait : Nat) : Dev :=
  let d := tally d 7 m (satTo 0x7FFFFF wait : Nat)
  match wr with
  | some v =>
    let d := tally (mktPut d a v) 1 a (magnitude v)
    if m ≤ 16 then { d with wrote := Tab.set 99 d.wrote a (if m = 16 then suPos d else m) } else d
  | none => if m = 33 && copyRuns d && poisoned (Tab.get 0 d.ecc a) then d else (mktCheck d m a flips false).2

/-- The word `old` with the bytes that `be` enables taken from `v` (R166). -/
def mergeBytes (old : W24) (be : BitVec 4) (v : W32) : W24 :=
  w24 ((List.range 3).foldl
    (fun n i => n + bits (if be.getLsbD i then v.toNat else old.toNat) (8 * i + 7) (8 * i) * 2 ^ (8 * i)) 0)

/-- A host write to BAR2: full, or merged by a read that marks no reader, corrects, or is the first to detect, and dropped
over a poisoned word (R166, R174). `flips` are the bits that the merge's read finds flipped. -/
def bar2Write (d : Dev) (a : Nat) (be : BitVec 4) (flips : BitVec 30) (v : W32) : Dev :=
  if be.toNat % 8 = 7 then mktWrite d 32 a (v.truncate 24)
  else if be.toNat % 8 = 0 then d
  else
    let (bad, d) := mktCheck (mktWait d 32) 32 a flips true
    if bad then d
    else
      mktWrite d 32 a (mergeBytes (Tab.get 0 d.mkt a) be v)

/-- A scrub write of stall `k` (R171): the oldest word that waits at it. -/
def scrubWrite (d : Dev) (k : Nat) : Dev :=
  match d.stalls.scrubs.find? fun a => servingStall d (a % 128) = k with
  | none => d
  | some a =>
    { d with ecc := if poisoned (Tab.get 0 d.ecc a) then d.ecc else Tab.set 0 d.ecc a 0
             stalls := { d.stalls with scrubs := d.stalls.scrubs.filter (· != a) } }

/-! ## Copies and tests -/

/-- The waits of `n` accesses that rehearsal or sparing makes, where a tally unit watches them (R406). -/
def copyWaits (d : Dev) (n : Nat) : Dev :=
  if waitWatched d 33 then forAll (List.range n) (fun d _ => mktWait d 33) d else d

/-- The rows of a stall (R176). -/
abbrev stallRows : Nat := 524288

/-- Every row of stall `k` is read by rehearsal (R175, R183): single errors are corrected and counted at the stall that
serves it, uncorrectable words are poisoned under identity 33. A word that is poisoned already passes in silence in a
copy (R175); the reads of scan mode are reads as R173 has them, and post it. -/
def readStall (d : Dev) (k : Nat) (scan : Bool) : Dev :=
  let listed := (d.ecc.map (·.1)).filter fun a => a % 128 = k
  listed.foldl
    (fun d a =>
      let e := Tab.get 0 d.ecc a
      if poisoned e then (if scan then ueLog d (servingStall d k) 33 a false else d)
      else if ones e = 0 then d
      else if ones e = 1 then (correctWord d (servingStall d k) a)
      else ueLog (poisonWord d (servingStall d k) a) (servingStall d k) 33 a true) d

/-- A copy of stall `k` is complete: every row has been read and written, and what it left in its destination has valid
check bits (R175, R180). -/
def copyStall (d : Dev) (k : Nat) : Dev :=
  let d := readStall (copyWaits d (2 * stallRows)) k false
  let ecc := (d.ecc.filter fun e => e.1 % 128 = k).foldl
    (fun t e => if poisoned e.2 then t else Tab.set 0 t e.1 0) d.ecc
  { d with ecc := ecc, stalls := { d.stalls with scrubs := d.stalls.scrubs.filter fun a => a % 128 ≠ k } }

/-- The slot ends (R180 step 7, R184): the next stall, the rotation, and what waited for STU. -/
def slotEnd (d : Dev) : Dev :=
  let k := fld d F.REH_STAT_STALL 0
  let (late, d) := freshWord d
  let d := setf (setf d F.REH_STAT_STEP 0 0) F.REH_STAT_BEHIND 0 (late.toNat % 2)
  let d := { d with stalls := { d.stalls with next := (k + 1) % 129 } }
  let d := if k = 128 then setf d F.REH_STAT_ROTATIONS 0 (fld d F.REH_STAT_ROTATIONS 0 + 1) else d
  let d := if fld d F.REH_CTRL_STATUS 0 = 2 then setf d F.REH_CTRL_STATUS 0 0 else d
  spareNext d

/-- STU is no longer free for rehearsal: scan mode, while it runs (R183). -/
def scanMode (d : Dev) : Dev := if fld d F.REH_CTRL_STATUS 0 = 1 then setf d F.REH_CTRL_STATUS 0 3 else d

/-- STU stands in for stall `k` for good (R177). -/
def redirect (d : Dev) (k cause : Nat) : Dev :=
  let d := setf (setf d F.MKTS_STATE_STATE k 4) F.MKTS_STATE_PARTNER k 128
  let d := setf (setf d F.MKTS_STATE_STATE 128 6) F.MKTS_STATE_PARTNER 128 k
  let d := setf d F.MKT_SPARE_STATUS 0 2
  let d := { d with stalls := { d.stalls with standin := some k, copying := none } }
  scanMode (post d 0x22 k k cause)

/-- STU fails its own test (R178). PARTNER, which names 128 for a stall and the replaced stall for STU in STANDIN, reads 0
for STU itself in TEST and RETIRED (R181; notes/assumptions/45). -/
def stuFails (d : Dev) : Dev :=
  scanMode (spareNone (setf (setf d F.MKTS_STATE_STATE 128 4) F.MKT_SPARE_STATUS 0 3) 128 1)

/-- Sparing's copy is complete (R177). -/
def sparingRedirect (d : Dev) : Dev :=
  match d.stalls.copying with
  | some (k, c) => spareNext (redirect (copyStall d k) k c)
  | none => d

/-- A stall or STU fails the quick March test of bring-up, before any master is granted (R178, R179, R423): a stall is
retired at once, and STU stands in for the first; the rest go on with their error code alone. -/
def marchFails (d : Dev) (k : Nat) : Dev :=
  if fld d F.MKTS_STATE_STATE k = 4 then d
  else if k = 128 then stuFails d
  else if fld d F.MKT_SPARE_STATUS 0 ≥ 2 then spareNone d k 1
  else redirect d k 1

/-- A slot starts (R180, R181, R183), once the quick March test of bring-up is over. In scan mode the slot's reads are made
at once. -/
def slotStart (d : Dev) : Dev :=
  if d.house.boot = 1 || !flag d F.REH_CTRL_EN 0 || fld d F.REH_STAT_STEP 0 ≠ 0 || d.stalls.copying.isSome then d
  else
    let k := d.stalls.next
    let d := setf d F.REH_STAT_STALL 0 k
    if fld d F.MKT_SPARE_STATUS 0 ≥ 2 then slotEnd (readStall (copyWaits d stallRows) k true)
    else if k = 128 then setf (setf d F.REH_STAT_STEP 0 4) F.MKTS_STATE_STATE 128 2
    else setf (setf (setf d F.REH_STAT_STEP 0 2) F.MKTS_STATE_STATE k 1) F.MKTS_STATE_PARTNER k 128

/-- Copy-out is complete, and accesses go to STU (R180 steps 2 and 3). -/
def copyOutDone (d : Dev) : Dev :=
  let k := fld d F.REH_STAT_STALL 0
  if fld d F.REH_STAT_STEP 0 = 2 && k < 128 then
    setf (setf (copyStall d k) F.REH_STAT_STEP 0 4) F.MKTS_STATE_STATE k 2
  else d

/-- The March test ends (R180 step 5, R181). -/
def testDone (d : Dev) (failed : Bool) : Dev :=
  let k := fld d F.REH_STAT_STALL 0
  if fld d F.REH_STAT_STEP 0 ≠ 4 then d
  else if k = 128 then slotEnd (if failed then stuFails d else setf d F.MKTS_STATE_STATE 128 0)
  else if failed then slotEnd (redirect d k 1)
  else setf (setf d F.REH_STAT_STEP 0 6) F.MKTS_STATE_STATE k 3

/-- Copy-back is complete (R180 steps 6 and 7). -/
def copyBackDone (d : Dev) : Dev :=
  if fld d F.REH_STAT_STEP 0 = 6 then
    slotEnd (slotReturn (copyStall d (fld d F.REH_STAT_STALL 0)))
  else d

/-- A write of REH.CTRL (R184). -/
def writeRehCtrl (w : BitVec 6) (v : W24) (d : Dev) : Dev :=
  let d := regWrite d w.toNat A.REH_CTRL v
  if flag d F.REH_CTRL_EN 0 then
    slotStart (setf d F.REH_CTRL_STATUS 0 (if fld d F.MKT_SPARE_STATUS 0 ≥ 2 then 3 else 1))
  else
    let step := fld d F.REH_STAT_STEP 0
    if step = 0 then setf d F.REH_CTRL_STATUS 0 0
    else
      let d := setf d F.REH_CTRL_STATUS 0 2
      if step ≤ 2 then
        let last := d.stalls.next
        let d := slotEnd (slotReturn d)
        { d with stalls := { d.stalls with next := last } }
      else d

/-- A write of MKTSn.CLR (R171). -/
def writeMktsClr (w : BitVec 6) (n : Nat) (v : W24) (d : Dev) : Dev :=
  let d := regWrite d w.toNat (F.MKTS_CLR_CLR.addr n) v
  if F.MKTS_CLR_CLR.of v = 1 then setf (setf d F.MKTS_CE_COUNT n 0) F.MKTS_UE_COUNT n 0 else d

/-- A write of MKT.UE_LOG1: CLR clears both registers (R173). -/
def writeUeLog (w : BitVec 6) (v : W24) (d : Dev) : Dev :=
  let d := regWrite d w.toNat A.MKT_UE_LOG1 v
  if F.MKT_UE_LOG1_CLR.of v = 1 then wr (wr d A.MKT_UE_LOG0 0) A.MKT_UE_LOG1 0 else d

/-- A write of MKT.SPARE: GO starts sparing of STALL while STATUS is IDLE (R177). -/
def writeSpare (w : BitVec 6) (v : W24) (d : Dev) : Dev :=
  let d := regWrite d w.toNat A.MKT_SPARE v
  if F.MKT_SPARE_GO.of v = 1 && fld d F.MKT_SPARE_STATUS 0 = 0 then spareCase d (fld d F.MKT_SPARE_STALL 0) 3 else d

/-! ## Commands -/

/-- MARKET_ACCESS (R170). -/
def execMarketAccess (m : BitVec 6) (a : BitVec 26) (wr : Option W24) (flips : BitVec 30) (wait : W24) (s : State) :
    Host.Outcome State Fault Refusal :=
  .next (s.act fun d => marketAccess d m.toNat a.toNat wr flips wait.toNat)

/-- SCRUB_WRITE (R171). -/
def execScrubWrite (k : Fin 129) (s : State) : Host.Outcome State Fault Refusal :=
  .next (s.act fun d => scrubWrite d k.val)

/-- BAR2_WRITE (R166). -/
def execBar2Write (a : BitVec 26) (be : HostBytes) (v : W32) (s : State) : Host.Outcome State Fault Refusal :=
  .next (s.act fun d => if hostOpen d then bar2Write d a.toNat be.be be.flips v else d)

/-- MKTS_CLR (R171). -/
def execMktsClr (w : BitVec 6) (n : Fin 129) (v : W24) (s : State) : Host.Outcome State Fault Refusal :=
  .next (s.write w (F.MKTS_CLR_CLR.addr n) v (writeMktsClr w n.val v))

/-- UE_LOG_CLR (R173). -/
def execUeLogClr (w : BitVec 6) (v : W24) (s : State) : Host.Outcome State Fault Refusal :=
  .next (s.write w A.MKT_UE_LOG1 v (writeUeLog w v))

/-- SPARE_GO (R177). -/
def execSpareGo (w : BitVec 6) (v : W24) (s : State) : Host.Outcome State Fault Refusal :=
  .next (s.write w A.MKT_SPARE v (writeSpare w v))

/-- SPARING_REDIRECT (R177). -/
def execSparingRedirect (s : State) : Host.Outcome State Fault Refusal := .next (s.act sparingRedirect)

/-- REHEARSAL_SLOT_START (R180). -/
def execRehearsalSlotStart (s : State) : Host.Outcome State Fault Refusal := .next (s.act slotStart)

/-- REHEARSAL_COPY_OUT_DONE (R180). -/
def execRehearsalCopyOutDone (s : State) : Host.Outcome State Fault Refusal := .next (s.act copyOutDone)

/-- REHEARSAL_TEST_DONE (R180). -/
def execRehearsalTestDone (failed : Bool) (s : State) : Host.Outcome State Fault Refusal :=
  .next (s.act fun d => testDone d failed)

/-- REHEARSAL_COPY_BACK_DONE (R180). -/
def execRehearsalCopyBackDone (s : State) : Host.Outcome State Fault Refusal := .next (s.act copyBackDone)

/-- REH_ENABLE_WRITE (R184). -/
def execRehEnableWrite (w : BitVec 6) (v : W24) (s : State) : Host.Outcome State Fault Refusal :=
  .next (s.write w A.REH_CTRL v (writeRehCtrl w v))

end Sys2Proof.Machine
end

