-- ==== Sys2Proof/Machine/Mcs.lean ====
section
/-!
DEFINITION. Stage 1 of the media clock (R338 to R349): the reference, lock, coasting, returns, the loop and the slew. What
stage 1 measures is the operand of the command; what a tick edge does to it is in Sys2Proof/Machine/Stage2.lean.
-/
namespace Sys2Proof.Machine

/-- Stage-1 states (R355). -/
abbrev mcsState (d : Dev) : Nat := fld d F.MCS_STAT_STATE 0

/-- The record behind the media clock changed. -/
def updMcs (d : Dev) (f : Mcs → Mcs) : Dev := { d with mcs := f d.mcs }

/-- The state set, with source 18 where it changes (R378); LIMIT reads 1 only while the loop demands a code (R340). The
loop starts from the DAC word it finds, a slew at the reference frequency (R346). -/
def setMcsState (d : Dev) (x : Nat) : Dev :=
  let old := mcsState d
  let d := if old = x then d else raise (setf d F.MCS_STAT_STATE 0 x) 18
  let d := if x = 2 && old ≠ 2 && old ≠ 3 then updMcs d fun m => { m with base := fld d F.MCS_DAC_WORD 0, integ := 0 } else d
  let d := if x = 5 && old ≠ 5 then updMcs d fun m => { m with slew := 0 } else d
  if x = 2 || x = 3 || x = 5 then d else setf d F.MCS_STAT_LIMIT 0 0

/-- S1EN = 1. -/
abbrev s1On (d : Dev) : Bool := flag d F.MCS_CTRL_S1EN 0

/-- SNAP in ns (R355). -/
def snapNs (d : Dev) : Nat := (fld d F.MCS_RETURN_SNAP 0).max 1 * 100

/-- An integer held to a signed field of `n` bits. -/
def satSigned (n : Nat) (x : Int) : Int :=
  if x > 2 ^ (n - 1) - 1 then 2 ^ (n - 1) - 1 else if x < -(2 ^ (n - 1)) then -(2 ^ (n - 1)) else x

/-- A realignment is abandoned and the CLK cause cleared (R347). -/
def realignAbandon (d : Dev) : Dev :=
  if d.mcs.realign = 0 then d
  else
    let d := updMcs d fun m => { m with realign := 0, coastAfter := false }
    if d.mcs.change = 0 then { d with col := { d.col with clk := false } } else d

/-- The average of the last second's DAC words; the present word where there is none (R344). -/
def dacAverage (d : Dev) : Nat :=
  match d.mcs.avg with
  | [] => fld d F.MCS_DAC_WORD 0
  | l => l.foldl (· + ·) 0 / l.length

/-- Stage 1 coasts with the DAC at `dac` (R344). -/
def coastAt (d : Dev) (cause dac : Nat) : Dev :=
  if mcsState d = 4 && d.mcs.realign = 0 then updMcs d fun m => { m with cause := if cause = 4 then 4 else m.cause }
  else
    let d := setMcsState (realignAbandon d) 4
    let d := updMcs d fun m => { m with acq := 0, cause := cause, lastErr := none }
    let d := setf d F.MCS_DAC_WORD 0 dac
    post d 0x60 0 dac cause

/-- Stage 1 coasts with the average of the last second (R344). -/
def coast (d : Dev) (cause : Nat) : Dev := coastAt d cause (dacAverage d)

/-- Step 1 of an acquisition (R339). -/
def acquire (d : Dev) : Dev :=
  if s1On d && flag d F.MCS_STAT_REFVALID 0 then
    updMcs (setMcsState d 1) fun m => { m with acq := 1, noLock := !flag d F.MCS_STAT_LOCK 0, lastErr := none }
  else d

/-! ## The reference (R338, R339, R344, R348) -/

/-- The reference becomes valid. -/
def refValid (d : Dev) : Dev :=
  if flag d F.MCS_STAT_REFVALID 0 then d
  else
    let d := setf d F.MCS_STAT_REFVALID 0 1
    if d.mcs.change = 3 then d
    else if mcsState d = 0 || (mcsState d = 1 && d.mcs.acq = 0) then acquire d
    else d

/-- The reference stops being valid. -/
def refInvalid (d : Dev) : Dev :=
  if !flag d F.MCS_STAT_REFVALID 0 then d
  else
    let d := setf d F.MCS_STAT_REFVALID 0 0
    let d := updMcs d fun m => { m with qualified := false, lastErr := none, acq := 0 }
    if d.mcs.realign != 0 then updMcs d fun m => { m with coastAfter := true, afterDac := dacAverage d }
    else match mcsState d with
      | 2 | 3 => coast d 1
      | 5 => coastAt d 1 d.mcs.startDac
      | _ => d

/-- PTP is valid while PTPOK = 1 and COARSE = 0 (R338). -/
def ptpValid (d : Dev) : Bool := flag d F.MCS_REF_PTPOK 0 && !flag d F.TIME_CTRL_COARSE 0

/-- AES3 input 0 is valid while its receiver is locked and its rate belongs to the family in force (R338, R364). -/
def aes0Valid (d : Dev) : Bool :=
  flag d F.AESI_STAT_LOCK 0
    && (if d.mcs.family = 0 then [3, 5] else [2, 4]).contains (fld d F.AESI_STAT_FSIN 0)

/-- The validity of PTP and of AES3 input 0 follows registers (R338). -/
def refFollow (d : Dev) : Dev :=
  match fld d F.MCS_REF_SEL 0 with
  | 0 => if ptpValid d then refValid d else refInvalid d
  | 3 => if aes0Valid d then refValid d else refInvalid d
  | _ => d

/-- The reference has been valid for RQUAL (R339 steps 2 and 3, R344). -/
def refQualified (d : Dev) (dac : Nat) : Dev :=
  if !flag d F.MCS_STAT_REFVALID 0 then d
  else
    let d := updMcs d fun m => { m with qualified := true }
    if mcsState d = 1 && d.mcs.acq = 1 then
      updMcs (setf d F.MCS_DAC_WORD 0 dac) fun m => { m with acq := 3, refCode := dac }
    else d

/-- A write of MCS.REF (R338, R344 cause 3). -/
def writeMcsRef (w : BitVec 6) (v : W24) (d : Dev) : Dev :=
  let old := fld d F.MCS_REF_SEL 0
  let d := regWrite d w.toNat A.MCS_REF v
  if fld d F.MCS_REF_SEL 0 = old then refFollow d
  else
    let d := updMcs (setf d F.MCS_STAT_REFVALID 0 0) fun m => { m with qualified := false, acq := 0, lastErr := none }
    let st := mcsState d
    refFollow (if st = 2 || st = 3 || st = 5 || st = 6 || d.mcs.realign != 0 then coast d 3 else d)

/-! ## Returns (R345, R346) -/

/-- WIN for a tick error of `e` ns (R355). -/
def showWin (d : Dev) (e : Int) : Dev :=
  setf d F.MCS_PD_WIN_WIN 0 (b1 (e.natAbs ≤ (fld d F.MCS_LOOP_LOCKWIN 0).max 1 * 10))

/-- The tick error shown (R338, R355). -/
def showErr (d : Dev) (e : Int) : Dev := showWin (setf d F.MCS_PD_WIN_ERR 0 (satSigned 23 e % 2 ^ 23).toNat) e

/-- A tick error is measured while the reference is valid and tick edges come. -/
def measured (d : Dev) : Bool := flag d F.MCS_STAT_REFVALID 0 && d.mcs.change ≠ 3

/-- A write of MCS.LOOP: the window moves over the error that is shown (R355). -/
def writeMcsLoop (w : BitVec 6) (v : W24) (d : Dev) : Dev :=
  let d := regWrite d w.toNat A.MCS_LOOP v
  if flag d F.MCS_STAT_REFVALID 0 then showWin d (sfld d F.MCS_PD_WIN_ERR 0) else d

/-- The error changed by SNAP or more since the last measurement (R345). -/
def snapJump (d : Dev) (e : Int) : Bool :=
  match d.mcs.lastErr with
  | none => false
  | some l => snapNs d ≤ (e - l).natAbs

/-- Stage 1 returns from an error `e` (R345). -/
def startReturn (d : Dev) (e : Int) : Dev :=
  let slew := e.natAbs < snapNs d || !flag d F.MCS_RETURN_MODE 0
  let d := post d 0x61 0 (w24i (satSigned 24 e)).toNat (b1 (!slew))
  let dac := fld d F.MCS_DAC_WORD 0
  if slew then updMcs (setMcsState d 5) fun m => { m with startDac := dac, lastErr := some e }
  else updMcs d fun m => { m with startDac := dac, realign := 1, lastErr := some e }

/-- Stage 1 may leave COAST (R344). -/
def coastEnds (d : Dev) : Bool :=
  mcsState d = 4 && d.mcs.qualified && (d.mcs.cause != 4 || flag d F.MCS_STAT_S2LOCK 0)

/-- A realignment that is abandoned for want of tick edges of stage 2 leaves stage 1 in COAST, with no post and the DAC as
it stands, so that a new return follows (R345, R347; notes/assumptions/53). -/
def realignEnd (d : Dev) : Dev :=
  if d.mcs.realign = 0 then d
  else
    let d := realignAbandon d
    if s1On d then updMcs (setMcsState d 4) fun m => { m with cause := 4, lastErr := none } else d

/-- A return from the error `e` would be a realignment, and ticks have stopped or come from the fallback synthesiser, so
that it would be abandoned (R345, R347). -/
def realignVain (d : Dev) (e : Int) : Bool :=
  snapNs d ≤ e.natAbs && flag d F.MCS_RETURN_MODE 0 && (!d.ticking || flag d F.MCS_STAT_TICKSRC 0)

/-- The error is measured, and a return begins where R345 calls for one. A realignment that would be abandoned at once is
not begun from COAST, where stage 1 stays, and leads to COAST from TRACK and LOCKED (R347; notes/assumptions/53). -/
def mcsReturn (d : Dev) (e : Int) : Dev :=
  let d := if measured d then showErr d e else d
  let go (d : Dev) : Dev := if realignVain d e then realignEnd (startReturn d e) else startReturn d e
  let stay := updMcs d fun m => { m with lastErr := some e }
  if !s1On d || !measured d || d.mcs.realign != 0 then d
  else if coastEnds d then (if realignVain d e then stay else startReturn d e)
  else if (mcsState d = 2 || mcsState d = 3) && snapJump d e then go d
  else stay

/-- The DAC takes the code demanded, held at the ends of its range (R340). -/
def dacDemand (d : Dev) (dac : Int) : Dev :=
  let overs := dac < 0 || dac > 0xFFFFF
  let d := if overs && !flag d F.MCS_STAT_LIMIT 0 then post d 0x63 0 0 3 else d
  let d := setf d F.MCS_STAT_LIMIT 0 (b1 overs)
  setf d F.MCS_DAC_WORD 0 (if dac < 0 then 0 else if dac > 0xFFFFF then 0xFFFFF else dac.toNat)

/-- PULL in ppm (R355). -/
def pullPpm (d : Dev) : Nat := (fld d F.MCS_LOOP_PULL 0).max 1

/-- The natural frequency of the loop in 10^-6 rad/s for a BW code (R340, R355): that of a loop of damping 1.0 whose
bandwidth is 1 Hz, or 0.1 or 10 Hz. -/
def loopOmega (bw : Nat) : Nat :=
  let w := 1600000 + Config.loopBand.val
  match bw with | 0 => w / 10 | 1 => w | _ => 10 * w

/-- The proportional gain of a loop of damping 1.0 in 2^-32 ppm for each ns of error: twice the natural frequency. -/
def loopKp (bw : Nat) : Nat := 2 * loopOmega bw * 2 ^ 32 / 10 ^ 9

/-- Its integral gain in 2^-32 ppm for each ns in each millisecond: the square of the natural frequency. -/
def loopKi (bw : Nat) : Nat := loopOmega bw * loopOmega bw * 2 ^ 32 / 10 ^ 18

/-- The proportional-integral loop takes the error of one millisecond (R340). The DAC's 2^20 codes span PULL. -/
def loopStep (d : Dev) (e : Int) : Dev :=
  let bw := fld d F.MCS_LOOP_BW 0
  let integ := d.mcs.integ + loopKi bw * e
  let d := updMcs d fun m => { m with integ := integ }
  dacDemand d (d.mcs.base + (loopKp bw * e + integ) * 2 ^ 20 / ((pullPpm d : Int) * 2 ^ 32))

/-- The offset of a slew after one more millisecond, in 1/2000 ppm (R346): 0.5 ppm/s away from the reference frequency,
to 20 ppm, and back from where the error left is what the way back will take. -/
def slewNext (f e : Int) : Int :=
  if 0 ≤ f * e && 4000 * e.natAbs ≤ f.natAbs * f.natAbs then f - f.sign
  else
    let g := f + e.sign
    if 40000 < g then 40000 else if g < -40000 then -40000 else g

/-- One millisecond of a slew (R346); after a new jump it goes on from the present frequency (R348). -/
def slewStep (d : Dev) (e : Int) : Dev :=
  let d := updMcs d fun m => { m with slew := slewNext m.slew e }
  dacDemand d (d.mcs.refCode + d.mcs.slew * 2 ^ 20 / (2000 * (pullPpm d : Int)))

/-- One millisecond of the loop (R340, R345, R346): a measurement of the error and of the code `ref` of the reference
frequency, then a return or the DAC's new code. -/
def loopUpdate (d : Dev) (e ref : Int) : Dev :=
  let d := mcsReturn d e
  let d :=
    if !s1On d || !measured d then d
    else
      let d := updMcs d fun m => { m with refCode := ref }
      if d.mcs.realign ≠ 0 then d
      else match mcsState d with
        | 2 => let d := loopStep d e; if flag d F.MCS_STAT_LOCK 0 then setMcsState d 3 else d
        | 3 => loopStep d e
        | 5 => slewStep d e
        | _ => d
  updMcs d fun m => { m with avg := (fld d F.MCS_DAC_WORD 0 :: m.avg).take 1000 }

/-- The slew ends (R346). -/
def slewDone (d : Dev) : Dev := if mcsState d = 5 then setMcsState d 2 else d

/-! ## Lock (R342, R343) -/

/-- The comparator has stayed high for 5 ms. -/
def lockDeclared (d : Dev) : Dev :=
  let d := updMcs (setf d F.MCS_STAT_LOCK 0 1) fun m => { m with noLock := false }
  if mcsState d = 2 then setMcsState d 3 else d

/-- The comparator falls. -/
def lockLost (d : Dev) : Dev :=
  let d := setf d F.MCS_STAT_LOCK 0 0
  if d.mcs.realign = 0 && (mcsState d = 2 || mcsState d = 3) then coast d 2 else d

/-- 2 s without a lock (R343). -/
def nolockTimeout (d : Dev) (win : Bool) : Dev :=
  if d.mcs.noLock then updMcs (post d 0x63 0 0 (b1 win)) fun m => { m with noLock := false } else d

/-! ## Commands -/

/-- REF_SEL_WRITE (R344). -/
def execRefSelWrite (w : BitVec 6) (v : W24) (s : State) : Host.Outcome State Fault Refusal :=
  .next (s.write w A.MCS_REF v (writeMcsRef w v))

/-- REF_VALID (R338, R339): for PTP and AES0 registers decide. -/
def execRefValid (s : State) : Host.Outcome State Fault Refusal :=
  .next (s.act fun d => if [0, 3].contains (fld d F.MCS_REF_SEL 0) then refFollow d else refValid d)

/-- REF_QUALIFIED (R339). -/
def execRefQualified (dac : BitVec 20) (s : State) : Host.Outcome State Fault Refusal :=
  .next (s.act fun d => refQualified d dac.toNat)

/-- REF_INVALID (R344): for PTP and AES0 registers decide. -/
def execRefInvalid (s : State) : Host.Outcome State Fault Refusal :=
  .next (s.act fun d => if [0, 3].contains (fld d F.MCS_REF_SEL 0) then refFollow d else refInvalid d)

/-- LOOP_UPDATE (R340, R345): the tick error, and the code at which the VCXO runs at the reference frequency. -/
def execLoopUpdate (err : BitVec 32) (dac : BitVec 24) (s : State) : Host.Outcome State Fault Refusal :=
  .next (s.act fun d => loopUpdate d err.toInt dac.toInt)

/-- LOCK_DECLARED (R342). -/
def execLockDeclared (s : State) : Host.Outcome State Fault Refusal := .next (s.act lockDeclared)

/-- LOCK_LOST (R342, R344). -/
def execLockLost (s : State) : Host.Outcome State Fault Refusal := .next (s.act lockLost)

/-- NOLOCK_TIMEOUT (R343). -/
def execNolockTimeout (win : Bool) (s : State) : Host.Outcome State Fault Refusal :=
  .next (s.act fun d => nolockTimeout d win)

/-- RETURN (R345). -/
def execMcsReturn (err : BitVec 32) (s : State) : Host.Outcome State Fault Refusal :=
  .next (s.act fun d => mcsReturn d err.toInt)

/-- SLEW_DONE (R346). -/
def execSlewDone (s : State) : Host.Outcome State Fault Refusal := .next (s.act slewDone)

end Sys2Proof.Machine
end

