-- ==== Sys2Proof/Machine/Local.lean ====
section
/-!
DEFINITION. The local audio ports (R356 to R368): TDM, AES3 and MADI. Ports are numbered as `Loc` says; the ledger's
numbers of R358 are those but for the AES3 outputs.
-/
namespace Sys2Proof.Machine

/-- Local port `p`. -/
def loc (d : Dev) (p : Nat) : Loc := Tab.get {} d.locs p

/-- Local port `p` changed. -/
def updLoc (d : Dev) (p : Nat) (f : Loc → Loc) : Dev := { d with locs := Tab.upd {} d.locs p f }

/-- The CTRL register's address. -/
def locCtrl (p : Nat) : Nat :=
  if p < 16 then F.TDM_CTRL_ENABLE.addr p
  else if p < 24 then F.AESI_CTRL_ENABLE.addr (p - 16)
  else if p < 26 then F.MADI_CTRL_ENABLE.addr (p - 24)
  else if p < 34 then F.AESO_CTRL_ENABLE.addr (p - 26)
  else F.TB_CTRL_ENABLE.addr (p - 34)

/-- ENABLE, which lies at the same place of every CTRL register. -/
def locEnabled (d : Dev) (p : Nat) : Bool := (rd d (locCtrl p)).getLsbD 23

/-- STATUS, which lies at the same place of every CTRL register (R359). -/
def locStatus (d : Dev) (p : Nat) : Nat := bits (rd d (locCtrl p)).toNat 22 21

/-- STATUS set. -/
def setLocStatus (d : Dev) (p x : Nat) : Dev :=
  let a := locCtrl p
  wr d a (Fld.put ⟨a, 0, 22, 21⟩ (rd d a) x)

/-- The ledger's number of a port (R358). -/
def locSource (p : Nat) : Nat := if p < 26 then p else p + 6

/-- The ingress channels of a port: the first and how many (R311). -/
def locIn (p : Nat) : Nat × Nat :=
  if p < 16 then (8192 + 32 * p, 32)
  else if p < 24 then (8704 + 2 * (p - 16), 2)
  else if p < 26 then (8720 + 64 * (p - 24), 64)
  else if p < 34 then (0, 0)
  else (8848 + (p - 34), 1)

/-- The egress channels of a port: the first and how many (R257). -/
def locEgress (p : Nat) : Nat × Nat :=
  if p < 16 then (8192 + 32 * p, 32)
  else if p < 24 then (0, 0)
  else if p < 26 then (8720 + 64 * (p - 24), 64)
  else if p < 34 then (8704 + 2 * (p - 26), 2)
  else (8848 + 2 * (p - 34), 2)

/-- The port of an egress channel, if a local one (R257). -/
def locOfEgress (c : Nat) : Option Nat :=
  if c < 8192 then none
  else if c < 8704 then some ((c - 8192) / 32)
  else if c < 8720 then some (26 + (c - 8704) / 2)
  else if c < 8848 then some (24 + (c - 8720) / 64)
  else if c < 8852 then some (34 + (c - 8848) / 2)
  else none

/-- The numbers from `a`, `n` of them. -/
def span (r : Nat × Nat) : List Nat := (List.range r.2).map (r.1 + ·)

/-- The port takes its frame timing from outside (R357). -/
def locSlave (d : Dev) (p : Nat) : Bool :=
  if p < 16 then !flag d F.TDM_CTRL_MASTER p
  else if p < 24 then flag d F.AESI_CTRL_MODE (p - 16)
  else p < 26

/-- FSIN's code for the rate in force (R364, R366). -/
def rateFsin (d : Dev) : Nat :=
  match fld d F.TICK_RATE_RATE 0 with
  | 0 => 2
  | 1 => 3
  | 2 => 4
  | _ => 5

/-- The input is locked: a TDM port always, an AES3 input in SYNC mode only at the rate in force (R358, R364). -/
def locLocked (d : Dev) (p : Nat) : Bool :=
  if p < 16 then true
  else if p < 24 then
    flag d F.AESI_STAT_LOCK (p - 16)
      && (!flag d F.AESI_CTRL_MODE (p - 16) || fld d F.AESI_STAT_FSIN (p - 16) = rateFsin d)
  else p < 26 && flag d F.MADI_STAT_LOCK (p - 24)

/-- FSIN's code for a measured frame rate (R364): the nearest of the seven, within 0.5 %. -/
def fsinOf (hz : Nat) : Nat :=
  match ([(1, 32000), (2, 44100), (3, 48000), (4, 88200), (5, 96000), (6, 176400), (7, 192000)] : List (Nat × Nat)).find?
    fun e => decide ((hz - e.2 + (e.2 - hz)) * 200 ≤ e.2) with
  | some e => e.1
  | none => 15

/-- How many channels the frame of an input carries (R361, R367): in the double family no MADI frame carries more than
32. -/
def locCarried (d : Dev) (p : Nat) : Nat :=
  if p < 16 then
    if fld d F.TDM_CTRL_FMT p = 2 then
      let n := 2 ^ (fld d F.TDM_CTRL_SLOTS p + 1)
      if doubleFamily d then satTo 16 n else satTo 32 n
    else 2
  else if p < 24 then 2
  else satTo (if doubleFamily d then 32 else 64) (fld d F.MADI_STAT_RXCH (p - 24))

/-- SLIPS raised by 1 (R357). -/
def locSlip (d : Dev) (p row : Nat) : Dev :=
  let d := if p < 16 then inc d F.TDM_STAT_SLIPS p
    else if p < 24 then inc d F.AESI_STAT_SLIPS (p - 16)
    else inc d F.MADI_STAT_SLIPS (p - 24)
  post d 0x71 (locSource p) row 0

/-! ## Frames (R356, R357) -/

/-- How many channels the frame of an output carries (R361, R367). -/
def locSent (d : Dev) (p : Nat) : Nat :=
  if p < 16 then locCarried d p
  else if 24 ≤ p && p < 26 then (if doubleFamily d then 32 else if flag d F.MADI_CTRL_TXCH56 (p - 24) then 56 else 64)
  else (locEgress p).2

/-- The headphone amplifier of talkback port `t` is on: not under SHORT, nor after it was switched off in current limit,
both of which FAULT shows (R370). -/
def hpAmp (d : Dev) (t : Nat) : Bool := !flag d F.TB_STAT_FAULT t

/-- The samples of the frame of an output: those latched at the edge before (R356, R357); channels the frame does not carry,
and headphones without their amplifier, have none. -/
def locCarry (d : Dev) (p : Nat) : Dev :=
  let n := if 34 ≤ p && !hpAmp d (p - 34) then 0 else locSent d p
  let put (t : Tab W24) (i : Nat) : Tab W24 :=
    let c := (locEgress p).1 + i
    Tab.set 0 t c (if i < n then Tab.get 0 d.latched c else 0)
  { d with locOut := forAll (List.range (locEgress p).2) put d.locOut }

/-- The outputs of a stopped port are low (R359). -/
def locLow (d : Dev) (p : Nat) : Dev :=
  { d with locOut := forAll (span (locEgress p)) (fun t c => Tab.set 0 t c 0) d.locOut }

/-! ## The wires of a TDM port (R361) -/

/-- The bit clocks of a frame. -/
def tdmClocks (d : Dev) (p : Nat) : Nat := 32 * locCarried d p

/-- TDMp_FS in bit clock `i` of a frame of a port that runs. -/
def tdmFs (d : Dev) (p i : Nat) : Bool :=
  let level := match fld d F.TDM_CTRL_FMT p with
    | 0 => decide (32 ≤ i)
    | 1 => decide (i < 32)
    | _ => if flag d F.TDM_CTRL_FSW p then decide (2 * i < tdmClocks d p) else i = 0
  level != flag d F.TDM_CTRL_FSPOL p

/-- How many bit clocks after the FS edge the data starts. -/
def tdmDelay (d : Dev) (p : Nat) : Nat :=
  match fld d F.TDM_CTRL_FMT p with | 0 => 1 | 1 => 0 | _ => fld d F.TDM_CTRL_DELAY p

/-- TDMp_SDO in bit clock `i` of a frame: each slot's 24 bits, most significant first, and 8 bits of 0. -/
def tdmSdo (d : Dev) (p i : Nat) : Bool :=
  let j := (i + tdmClocks d p - tdmDelay d p) % tdmClocks d p
  decide (j % 32 < 24) && (Tab.get 0 d.locOut (8192 + 32 * p + j / 32)).getLsbD (23 - j % 32)

/-- The word that slot `s` of a received frame carries, `sdi` being TDMp_SDI in each bit clock. -/
def tdmWord (d : Dev) (p s : Nat) (sdi : Nat → Bool) : W24 :=
  w24 ((List.range 24).foldl (fun n k => 2 * n + b1 (sdi ((32 * s + k + tdmDelay d p) % tdmClocks d p))) 0)

/-- Data is driven on the rising edge of the bit clock, and sampled on the falling one. -/
def tdmRising (d : Dev) (p : Nat) : Bool := flag d F.TDM_CTRL_BCLKPOL p

/-! ## Slave frames and windows (R357) -/

/-- A frame that an ASRC input received (R364): its V, U and C are held, and a block start waits for a house sample. -/
def asrcFrame (d : Dev) (p : Nat) (samples : List LocSample) : Dev :=
  if locStatus d p = 0 || p < 16 || 24 ≤ p || locSlave d p then d
  else updLoc d p fun x => { x with cur := samples, blockStart := x.blockStart || samples.any fun s => s.fl.getLsbD 3 }

/-- A slave frame (R357): one of the wrong length is no frame; one that starts in the guard is discarded and its output
repeats. -/
def slaveFrame (d : Dev) (p : Nat) (inGuard badLen : Bool) (phase : Nat) (samples : List LocSample) : Dev :=
  if locStatus d p = 0 || !locSlave d p then asrcFrame d p samples
  else
    let d := if p < 16 then setf d F.TDM_STAT_PHASE p phase else d
    if badLen then d
    else if inGuard then updLoc d p fun x => { x with inGuard := true }
    else updLoc (if p < 16 then locCarry d p else d) p fun x => { x with frames := x.frames + 1, cur := samples }

/-- The window that ends at an edge is decided (R357). -/
def windowDecide (d : Dev) (p : Nat) : Dev :=
  let x := loc d p
  let row := if x.inGuard then 1 else if x.frames = 0 then 2 else if x.frames = 1 then 0 else 3
  let take := row = 0 || row = 3
  let d := updLoc d p fun x =>
    { x with pub := x.decided, decided := if take then x.cur else x.decided, inGuard := false, frames := 0 }
  let d := if p < 16 then setf d F.TDM_STAT_FRAMED p (b1 (row = 0)) else d
  if row = 0 then d else locSlip d p row

/-! ## Channel status (R365, R368) -/

/-- The CRC of AES3 over bytes, least significant bit first (notes/assumptions/41). -/
def aesCrc (bs : List Byte) : Byte :=
  bs.foldl
    (fun (c : Byte) b => (List.range 8).foldl (fun (c : Byte) _ => if c.getLsbD 0 then (c >>> 1) ^^^ 0xB8 else c >>> 1) (c ^^^ b))
    0xFF

/-- The block with byte 23 replaced by the CRC over bytes 0 to 22. -/
def withCrc (ws : List W24) : List W24 :=
  let bs : List Byte := ws.flatMap fun (w : W24) =>
    [BitVec.ofNat 8 w.toNat, BitVec.ofNat 8 (w.toNat / 256), BitVec.ofNat 8 (w.toNat / 65536)]
  let crc := aesCrc (bs.take 23)
  match ws.drop 7 with
  | w :: _ => ws.take 7 ++ [w24 (w.toNat % 65536 + crc.toNat * 65536)]
  | [] => ws

/-- The block registers of a MADI port or AES3 output. -/
def csRegs (d : Dev) (p : Nat) : List W24 := (List.range 8).map fun i => rd d (locCtrl p + (if p < 26 then 2 else 1) + i)

/-- HOLD and CRCC of a MADI port or AES3 output. -/
def csHold (d : Dev) (p : Nat) : Bool × Bool :=
  if p < 26 then (flag d F.MADI_CTRL_HOLD (p - 24), flag d F.MADI_CTRL_CRCC (p - 24))
  else (flag d F.AESO_CTRL_HOLD (p - 26), flag d F.AESO_CTRL_CRCC (p - 26))

/-- A frame of a channel-status block: the first of 192 takes the block. Under HOLD before any block was read, its words
are open (notes/assumptions/2). -/
def csFrame (d : Dev) (p : Nat) : Dev :=
  let x := loc d p
  if x.block = 0 then
    let (hold, crcc) := csHold d p
    let (ws, d) :=
      if !hold then (csRegs d p, d)
      else if x.cs.isEmpty then
        forAll (List.range 8) (fun (l, d) _ => let (u, d) := freshWord d; (l ++ [u], d)) (([] : List W24), d)
      else (x.cs, d)
    updLoc d p fun x => { x with cs := ws, csOut := if crcc then withCrc ws else ws, block := 191 }
  else updLoc d p fun x => { x with block := x.block - 1 }

/-- The flags that an AES3 or MADI output sends beside each sample of the frame (R360, R365, R367): V and U are 0, C is the
block's bit, B its first frame. -/
def sentFlags (d : Dev) (p : Nat) : BitVec 4 :=
  let i := 191 - (loc d p).block
  BitVec.ofNat 4 (8 * b1 (i = 0) + b1 (((loc d p).csOut.getD (i / 24) 0).getLsbD (i % 24)))

/-! ## The tick edge (R356, R357, R359) -/

/-- Every curtain of the port's egress channels is CLOSED. -/
def locClosed (d : Dev) (p : Nat) : Bool := (span (locEgress p)).all fun c => (Tab.get {} d.egress c).state = 2

/-- A running port at an edge: a slave's window is decided; a port that times its own frames sends one. -/
def locRunEdge (d : Dev) (p : Nat) : Dev :=
  let d := if locSlave d p then windowDecide d p else d
  let d := if !(locSlave d p) || (24 ≤ p && p < 26) then locCarry d p else d
  if 24 ≤ p && p < 34 then csFrame d p else d

/-- No slave frames arrive under row 0 at a port that stops or starts (R363). -/
def unframed (d : Dev) (p : Nat) : Dev := if p < 16 then setf d F.TDM_STAT_FRAMED p 0 else d

/-- Port `p` at a tick edge. -/
def locEdge (d : Dev) (p : Nat) : Dev :=
  let x := loc d p
  if x.starting then
    let d := updLoc (unframed (setLocStatus d p 1) p) p fun x =>
      { x with starting := false, drain := 0, inGuard := false, frames := 0, decided := [], pub := [], block := 0
               blockStart := false }
    let d := if !(locSlave d p) || (24 ≤ p && p < 26) then locCarry d p else d
    if 24 ≤ p && p < 34 then csFrame d p else d
  else match locStatus d p, x.drain with
    | 0, _ => d
    | _, 0 => locRunEdge d p
    | _, 1 =>
      let closed := locClosed d p
      let d := locRunEdge d p
      if closed then updLoc d p fun x => { x with drain := 2 } else d
    | _, _ => locLow (updLoc (unframed (setLocStatus d p 0) p) p fun x => { x with drain := 0 }) p

/-- Every local port at a tick edge. -/
def locEdges (d : Dev) : Dev := forAll (List.range 36) locEdge d

/-! ## The ingress latch (R356 to R361, R364, R367, R369) -/

/-- The sample of ingress channel `c` in a list; a channel that is not listed carries 0. -/
def sampleOf (l : List LocSample) (c : Nat) : W24 × BitVec 4 :=
  match l.find? (fun s => s.ch.toNat = c - 8192) with
  | some s => (s.v, s.fl)
  | none => (0, 0)

/-- The microphone channel publishes its sample (R369). -/
def micLive (d : Dev) (t : Nat) : Bool :=
  let ty := fld d F.TB_STAT_TYPE t
  let x := Tab.get {} d.tbs t
  (ty = 2 || ty = 3) && !x.biasMute && !(x.btnMute && flag d F.TB_CTRL_MUTEBTN t)

/-- The flag word of channel `c` of an ASRC input: V, U and C of the last received frame, B after a block start (R364). -/
def asrcFlags (d : Dev) (p c : Nat) : BitVec 4 :=
  let x := loc d p
  BitVec.ofNat 4 (8 * b1 x.blockStart + (sampleOf x.cur c).2.toNat % 8)

/-- What channel number `i` of an input publishes, `l` being what the outside hands over (R357 to R361, R364, R367). -/
def locPublish (d : Dev) (p i : Nat) (l : List LocSample) : W24 × BitVec 4 :=
  let c := (locIn p).1 + i
  let s := sampleOf (if p < 34 && locSlave d p then (loc d p).pub else l) c
  if locStatus d p = 0 then (0, 0)
  else if p < 16 then (if i < locCarried d p then s.1 else 0, 0)
  else if p < 24 then
    if !locLocked d p then (0, 4)
    else if locSlave d p then s
    else (if (loc d p).settled then s.1 else 0, asrcFlags d p c)
  else if p < 26 then (if locLocked d p && i < locCarried d p then s else (0, 4))
  else (if micLive d (p - 34) then s.1 else 0, 0)

/-- The local ports write their ingress channels as Market master 26 (R311, R360). -/
def ingressLocal (d : Dev) (l : List LocSample) : Dev :=
  forAll ((List.range 26) ++ [34, 35])
    (fun d p =>
      let d := forAll (List.range (locIn p).2)
        (fun d i => let s := locPublish d p i l; ingressPut d 26 ((locIn p).1 + i) s.1 (some s.2)) d
      if (loc d p).blockStart then updLoc d p fun x => { x with blockStart := false } else d) d

/-! ## Lock, settling and registers -/

/-- An AES3 input or MADI port gains or loses lock (R358, R364, R366, R368): `code` is the measured frame rate in Hz of an
AES3 input, the channels of a MADI frame. AES3 input 0 may be the media clock's reference (R338). -/
def inputLockChange (d : Dev) (p : Nat) (locked : Bool) (code : Nat) : Dev :=
  if p < 16 || 26 ≤ p then d
  else
    let lockF := if p < 24 then F.AESI_STAT_LOCK else F.MADI_STAT_LOCK
    let codeF := if p < 24 then F.AESI_STAT_FSIN else F.MADI_STAT_RXCH
    let i := if p < 24 then p - 16 else p - 24
    let was := flag d lockF i
    let code := if !locked then 0 else if p < 24 then fsinOf code else code
    let d := setf (setf d lockF i (b1 locked)) codeF i code
    let d := if p = 16 then refFollow d else d
    if was = locked then d
    else post (updLoc d p fun x => { x with settled := false }) 0x72 (locSource p) (b1 locked) (fld d codeF i)

/-- The ratio of an ASRC settles (R364). -/
def asrcSettled (d : Dev) (a : Nat) : Dev :=
  if flag d F.AESI_STAT_LOCK a && !flag d F.AESI_CTRL_MODE a then updLoc d (16 + a) fun x => { x with settled := true } else d

/-- What a change of ENABLE starts (R359). -/
def locEnableChange (d : Dev) (p : Nat) (was : Bool) : Dev :=
  let now := locEnabled d p
  if was && !now then
    let d := updLoc d p fun x => { x with starting := false }
    if locStatus d p = 1 then updLoc (setLocStatus d p 2) p fun x => { x with drain := 1 } else d
  else if !was && now then updLoc d p fun x => { x with starting := true }
  else d

/-- A write of a local port's CTRL (R359, R363): the configuration of a TDM port is dropped while it is not OFF. -/
def writeLocCtrl (w : BitVec 6) (p : Nat) (v : W24) (d : Dev) : Dev :=
  let was := locEnabled d p
  let old := rd d (locCtrl p)
  let v := if p < 16 && locStatus d p != 0 then (v &&& 0xE007FF) ||| (old &&& 0x1FF800) else v
  locEnableChange (regWrite d w.toNat (locCtrl p) v) p was

/-- A write of TDMp.STAT (R363). -/
def writeTdmStat (w : BitVec 6) (p : Nat) (v : W24) (d : Dev) : Dev :=
  let d := regWrite d w.toNat (F.TDM_STAT_CLR.addr p) v
  if F.TDM_STAT_CLR.of v = 1 then setf d F.TDM_STAT_SLIPS p 0 else d

/-- A write of AESIa.STAT (R366). -/
def writeAesiStat (w : BitVec 6) (a : Nat) (v : W24) (d : Dev) : Dev :=
  let d := regWrite d w.toNat (F.AESI_STAT_CLR.addr a) v
  if F.AESI_STAT_CLR.of v = 1 then setf d F.AESI_STAT_SLIPS a 0 else d

/-- A write of MADIm.STAT (R368). -/
def writeMadiStat (w : BitVec 6) (m : Nat) (v : W24) (d : Dev) : Dev :=
  let d := regWrite d w.toNat (F.MADI_STAT_CLR.addr m) v
  if F.MADI_STAT_CLR.of v = 1 then setf d F.MADI_STAT_SLIPS m 0 else d

/-! ## Commands -/

/-- SLAVE_FRAME (R357). -/
def execSlaveFrame (p : Fin 26) (inGuard badLen : Bool) (phase : BitVec 11) (samples : List LocSample) (s : State) :
    Host.Outcome State Fault Refusal :=
  .next (s.act fun d => slaveFrame d p.val inGuard badLen phase.toNat samples)

/-- INPUT_LOCK_CHANGE (R358). -/
def execInputLockChange (p : Fin 26) (locked : Bool) (code : BitVec 18) (s : State) : Host.Outcome State Fault Refusal :=
  .next (s.act fun d => inputLockChange d p.val locked code.toNat)

/-- ASRC_SETTLED (R364). -/
def execAsrcSettled (a : Fin 8) (s : State) : Host.Outcome State Fault Refusal := .next (s.act fun d => asrcSettled d a.val)

/-- LOC_PORT_ENABLE_WRITE (R359). -/
def execLocPortEnableWrite (w : BitVec 6) (p : Fin 34) (v : W24) (s : State) : Host.Outcome State Fault Refusal :=
  .next (s.write w (locCtrl p) v (writeLocCtrl w p.val v))

/-- TDM_STAT_CLR (R363). -/
def execTdmStatClr (w : BitVec 6) (p : Fin 16) (v : W24) (s : State) : Host.Outcome State Fault Refusal :=
  .next (s.write w (F.TDM_STAT_CLR.addr p) v (writeTdmStat w p.val v))

/-- AESI_STAT_CLR (R366). -/
def execAesiStatClr (w : BitVec 6) (a : Fin 8) (v : W24) (s : State) : Host.Outcome State Fault Refusal :=
  .next (s.write w (F.AESI_STAT_CLR.addr a) v (writeAesiStat w a.val v))

/-- MADI_STAT_CLR (R368). -/
def execMadiStatClr (w : BitVec 6) (m : Fin 2) (v : W24) (s : State) : Host.Outcome State Fault Refusal :=
  .next (s.write w (F.MADI_STAT_CLR.addr m) v (writeMadiStat w m.val v))

end Sys2Proof.Machine
end

