-- ==== Sys2Proof/Machine/Talkback.lean ====
section
/-!
DEFINITION. The talkback ports (R369 to R375): detection, buttons, the event queue and the Board bits of each event.
-/
namespace Sys2Proof.Machine

/-- Talkback port `t` changed. -/
def updTb (d : Dev) (t : Nat) (f : Tb → Tb) : Dev := { d with tbs := Tab.upd {} d.tbs t f }

/-- The detection state as Board bits 0 to 14 (R372). -/
def tbBits (d : Dev) (t : Nat) : BitVec 32 :=
  let ty := fld d F.TB_STAT_TYPE t
  BitVec.ofNat 32 (fld d F.TB_STAT_PLUG t + 2 * ty + 16 * b1 (ty != 0 && ty != 6) + 32 * fld d F.TB_STAT_BTN t
    + 512 * fld d F.TB_STAT_LONG t + 8192 * fld d F.TB_STAT_BIAS t + 16384 * fld d F.TB_STAT_FAULT t)

/-- A group of Board bits is queued: `mask` of the bits from BASE (R372). -/
def tbBoard (d : Dev) (t : Nat) (mask val : BitVec 32) : Dev :=
  boardIssue d (18 + t) { op := 4, base := fld d F.TB_BOARD_BASE t * 32, mask := mask, val := val }

/-- EVT shows the oldest event, and the source follows the queue (R373, R375). -/
def tbShow (d : Dev) (t : Nat) : Dev :=
  match (Tab.get {} d.tbs t).events with
  | [] => lower (wr d (F.TB_EVT_VALID.addr t) 0) (14 + t)
  | e :: _ => raise (wr d (F.TB_EVT_VALID.addr t) e) (14 + t)

/-- An event is queued, and posted where R373 says so. -/
def tbEvent (d : Dev) (t code arg ms : Nat) : Dev :=
  let x := Tab.get {} d.tbs t
  let e := w24 (2 ^ 23 + code * 2 ^ 19 + arg % 8 * 2 ^ 16 + ms)
  let d := if x.events.length ≥ 16 then setf d F.TB_STAT_OVF t 1
    else updTb d t fun x => { x with events := x.events ++ [e] }
  let d := tbShow d t
  if code ≤ 3 || 7 ≤ code then post d 0x70 t code (fld d F.TB_STAT_TYPE t) else d

/-- A change `f` of the detection state: the Board bits it changes form one group (R372). -/
def tbChange (d : Dev) (t : Nat) (f : Dev → Dev) : Dev :=
  let old := tbBits d t
  let d := f d
  let new := tbBits d t
  if old = new then d else tbBoard d t (old ^^^ new) new

/-- The port takes part in detection: it is enabled, and bring-up has come to step 7 (R370, R422). -/
def tbOn (d : Dev) (t : Nat) : Bool := flag d F.TB_CTRL_ENABLE t && d.house.boot = 3

/-- The bias as TYPE and BIASEN ask; a bias that turns on mutes the microphone for 20 ms, and one that turns off ends
the buttons (R369 to R371, R374). -/
def tbBias (d : Dev) (t : Nat) : Dev :=
  let ty := fld d F.TB_STAT_TYPE t
  let on := tbOn d t && flag d F.TB_CTRL_BIASEN t && (ty = 2 || ty = 3)
  let was := flag d F.TB_STAT_BIAS t
  let d := setf d F.TB_STAT_BIAS t (b1 on)
  if on && !was then updTb d t fun x => { x with biasMute := true, btnMute := false }
  else if was && !on then setf (setf d F.TB_STAT_BTN t 0) F.TB_STAT_LONG t 0
  else d

/-- The tip switch changes, debounced (R370, R374). -/
def tipSwitch (d : Dev) (t : Nat) (ins : Bool) (ms : Nat) : Dev :=
  if !tbOn d t || flag d F.TB_STAT_PLUG t = ins then d
  else
    let fault := flag d F.TB_STAT_FAULT t
    tbChange d t fun d =>
      let d := setf (setf d F.TB_STAT_PLUG t (b1 ins)) F.TB_STAT_TYPE t (if ins then 6 else 0)
      let d := tbBias (setf d F.TB_STAT_FAULT t 0) t
      let d := tbEvent d t (if ins then 1 else 2) 0 ms
      if fault then tbEvent d t 8 (fld d F.TB_STAT_TYPE t) ms else d

/-- A contact is a microphone (R370): 400 Ω to 5 kΩ, and a forward current at least twice the reverse one. -/
def isMic (m : Nat × Nat × Nat) : Bool :=
  decide (400000 ≤ m.1) && decide (m.1 ≤ 5000000) && decide (2 * m.2.2 ≤ m.2.1)

/-- The accessory's TYPE, the first row that fits (R370). -/
def classify (z : Accessory) : Nat :=
  if z.zt < 4000 then 5
  else if 1000000 ≤ z.zt then 4
  else if z.zrs < 20000 then 1
  else if isMic z.ring2 then 3
  else if isMic z.sleeve then 2
  else 1

/-- A measurement ends (R370). -/
def typeMeasured (d : Dev) (t : Nat) (z : Accessory) (ms : Nat) : Dev :=
  if !tbOn d t || !flag d F.TB_STAT_PLUG t || fld d F.TB_STAT_TYPE t != 6 then d
  else
    let ty := classify z
    let was := flag d F.TB_STAT_FAULT t
    tbChange d t fun d =>
      let d := setf (setf d F.TB_STAT_TYPE t ty) F.TB_STAT_FAULT t (b1 (ty = 5))
      let d := tbEvent (tbBias d t) t 3 ty ms
      let d := if ty = 5 then locLow d (34 + t) else d
      if ty = 5 && !was then tbEvent d t 7 ty ms
      else if was && ty != 5 then tbEvent d t 8 ty ms
      else d

/-- 20 ms have passed since the bias came on, or since a button's debounced release (R369). -/
def micUnmute (d : Dev) (t : Nat) (button : Bool) : Dev :=
  updTb d t fun x =>
    if button then { x with btnMute := x.btnMute && (!x.released || fld d F.TB_STAT_BTN t ≠ 0) } else { x with biasMute := false }

/-- The button of a resistance in ohms (R371). -/
def buttonOf (ohm : Nat) : Option Nat :=
  if ohm ≤ 70 then some 0
  else if 110 ≤ ohm && ohm ≤ 180 then some 1
  else if 210 ≤ ohm && ohm ≤ 290 then some 2
  else if 360 ≤ ohm && ohm ≤ 680 then some 3
  else none

/-- The number of the button held. -/
def heldButton (d : Dev) (t : Nat) : Option Nat := (List.range 4).find? fun i => (fld d F.TB_STAT_BTN t).testBit i

/-- A debounced release (R369, R371); of a raw sign that became no press only the mute is left to end. -/
def buttonRelease (d : Dev) (t ms : Nat) : Dev :=
  let d := updTb d t fun x => { x with released := true }
  match heldButton d t with
  | none => d
  | some i => tbChange d t fun d => tbEvent (setf (setf d F.TB_STAT_BTN t 0) F.TB_STAT_LONG t 0) t 6 i ms

/-- A press of button `i`. -/
def buttonDown (d : Dev) (t i ms : Nat) : Dev :=
  let d := updTb d t fun x => { x with btnMute := true, released := false }
  tbChange d t fun d => tbEvent (setf d F.TB_STAT_BTN t (2 ^ i)) t 4 i ms

/-- A Board write of port `t` is held: the port waits with it, and its later work waits behind (R22). -/
def tbHeld (d : Dev) (t : Nat) : Bool := !(Tab.get [] d.bheld (18 + t)).isEmpty

/-- What happens at the port waits. -/
def tbWait (d : Dev) (t : Nat) (w : TbWork) : Dev := updTb d t fun x => { x with later := x.later ++ [w] }

/-- A debounced press (R371): a change of band is the release of the one and the press of the other, which waits where the
release's Board write is held (R22). -/
def buttonPress (d : Dev) (t ohm ms : Nat) : Dev :=
  match buttonOf ohm with
  | none => d
  | some i =>
    if !flag d F.TB_STAT_BIAS t || heldButton d t = some i then d
    else
      let d := buttonRelease d t ms
      if tbHeld d t then tbWait d t (.press ohm ms) else buttonDown d t i ms

/-- A button has been held for 1 s (R371). -/
def buttonLong (d : Dev) (t ms : Nat) : Dev :=
  match heldButton d t with
  | none => d
  | some i =>
    if flag d F.TB_STAT_LONG t then d
    else tbChange d t fun d => tbEvent (setf d F.TB_STAT_LONG t (2 ^ i)) t 5 i ms

/-- The first raw sign of a button (R369). -/
def rawSign (d : Dev) (t : Nat) : Dev :=
  if flag d F.TB_STAT_BIAS t then updTb d t fun x => { x with btnMute := true, released := false } else d

/-- The headphone amplifier has stayed in current limit for 10 ms, and is switched off (R370). -/
def hpLimit (d : Dev) (t ms : Nat) : Dev :=
  let ty := fld d F.TB_STAT_TYPE t
  if !tbOn d t || ty = 0 || ty = 6 || flag d F.TB_STAT_FAULT t then d
  else tbChange d t fun d => tbEvent (locLow (setf d F.TB_STAT_FAULT t 1) (34 + t)) t 7 ty ms

/-- The port measures again 1 s after a current limit, with the bias off (R370). -/
def remeasure (d : Dev) (t : Nat) : Dev :=
  if !tbOn d t || !flag d F.TB_STAT_PLUG t || !flag d F.TB_STAT_FAULT t || fld d F.TB_STAT_TYPE t = 5 then d
  else tbChange d t fun d => tbBias (setf d F.TB_STAT_TYPE t 6) t

/-- What happens at port `t`. -/
def tbWork (d : Dev) (t : Nat) : TbWork → Dev
  | .tip ins ms => tipSwitch d t ins ms
  | .measured z ms => typeMeasured d t z ms
  | .press ohm ms => buttonPress d t ohm ms
  | .release ms => buttonRelease d t ms
  | .long ms => buttonLong d t ms
  | .raw => rawSign d t
  | .unmute button => micUnmute d t button
  | .limit ms => hpLimit d t ms
  | .remeasure => remeasure d t

/-- It happens, or waits behind the port's held Board write (R22). -/
def tbDo (d : Dev) (t : Nat) (w : TbWork) : Dev := if tbHeld d t then tbWait d t w else tbWork d t w

/-- The held Board write of port `t` has entered its queue: what waited behind it goes on in its order (R22). -/
def tbResume (d : Dev) (t : Nat) : Dev :=
  let l := (Tab.get {} d.tbs t).later
  if l.isEmpty || tbHeld d t then d
  else l.foldl (fun d w => tbDo d t w) (updTb d t fun x => { x with later := [] })

/-- The headphone channels hold the DIS cause (R369, R370). -/
def hpDis (d : Dev) (t : Nat) : Bool :=
  let ty := fld d F.TB_STAT_TYPE t
  ty = 0 || ty = 5 || ty = 6 || flag d F.TB_STAT_FAULT t

/-- A write of TBt.CTRL (R359, R370, R374). -/
def writeTbCtrl (w : BitVec 6) (t : Nat) (v : W24) (d : Dev) : Dev :=
  let was := tbOn d t
  let d := locEnableChange (regWrite d w.toNat (F.TB_CTRL_ENABLE.addr t) v) (34 + t) (flag d F.TB_CTRL_ENABLE t)
  if was && !tbOn d t then
    let d := wr d (F.TB_STAT_PLUG.addr t) (rd d (F.TB_STAT_PLUG.addr t) &&& 0x000200)
    tbBoard d t 0x7FFF 0
  else tbChange d t fun d => tbBias d t

/-- A write of TBt.BOARD (R372). -/
def writeTbBoard (w : BitVec 6) (t : Nat) (v : W24) (d : Dev) : Dev :=
  let d := regWrite d w.toNat (F.TB_BOARD_BASE.addr t) v
  tbBoard d t 0x7FFF (tbBits d t)

/-- A read of TBt.EVT removes the oldest event (R373). -/
def readTbEvt (d : Dev) (t : Nat) : W24 × Dev :=
  (rd d (F.TB_EVT_VALID.addr t), tbShow (updTb d t fun x => { x with events := x.events.drop 1 }) t)

/-! ## Commands -/

/-- TIP_SWITCH_CHANGE (R370). -/
def execTipSwitchChange (t : Fin 2) (ins : Bool) (ms : BitVec 16) (s : State) : Host.Outcome State Fault Refusal :=
  .next (s.act fun d => tbDo d t.val (.tip ins ms.toNat))

/-- TYPE_MEASURED (R370). -/
def execTypeMeasured (t : Fin 2) (z : Accessory) (ms : BitVec 16) (s : State) : Host.Outcome State Fault Refusal :=
  .next (s.act fun d => tbDo d t.val (.measured z ms.toNat))

/-- MIC_UNMUTE (R369). -/
def execMicUnmute (t : MuteEnd) (s : State) : Host.Outcome State Fault Refusal :=
  .next (s.act fun d => tbDo d t.t.val (.unmute t.button))

/-- BUTTON_PRESS (R371). -/
def execButtonPress (t : Fin 2) (ohm : BitVec 10) (ms : BitVec 16) (s : State) : Host.Outcome State Fault Refusal :=
  .next (s.act fun d => tbDo d t.val (.press ohm.toNat ms.toNat))

/-- BUTTON_RELEASE (R371). -/
def execButtonRelease (t : Fin 2) (ms : BitVec 16) (s : State) : Host.Outcome State Fault Refusal :=
  .next (s.act fun d => tbDo d t.val (.release ms.toNat))

/-- BUTTON_LONG (R371). -/
def execButtonLong (t : Fin 2) (ms : BitVec 16) (s : State) : Host.Outcome State Fault Refusal :=
  .next (s.act fun d => tbDo d t.val (.long ms.toNat))

/-- HP_CURRENT_LIMIT (R370). -/
def execHpCurrentLimit (t : Fin 2) (ms : BitVec 16) (s : State) : Host.Outcome State Fault Refusal :=
  .next (s.act fun d => tbDo d t.val (.limit ms.toNat))

/-- REMEASURE (R370). The measurement's start is no event of R373, so its time is not used. -/
def execRemeasure (t : Fin 2) (_ms : BitVec 16) (s : State) : Host.Outcome State Fault Refusal :=
  .next (s.act fun d => tbDo d t.val .remeasure)

/-- RAW_BUTTON_SIGN (R369). -/
def execRawButtonSign (t : Fin 2) (s : State) : Host.Outcome State Fault Refusal := .next (s.act fun d => tbDo d t.val .raw)

/-- TB_ENABLE_WRITE (R359, R374). -/
def execTbEnableWrite (w : BitVec 6) (t : Fin 2) (v : W24) (s : State) : Host.Outcome State Fault Refusal :=
  .next (s.write w (F.TB_CTRL_ENABLE.addr t) v (writeTbCtrl w t.val v))

/-- BIASEN_WRITE (R370, R374). -/
def execBiasenWrite (w : BitVec 6) (t : Fin 2) (v : W24) (s : State) : Host.Outcome State Fault Refusal :=
  .next (s.write w (F.TB_CTRL_ENABLE.addr t) v (writeTbCtrl w t.val v))

/-- TB_BOARD_BASE_WRITE (R372). -/
def execTbBoardBaseWrite (w : BitVec 6) (t : Fin 2) (v : W24) (s : State) : Host.Outcome State Fault Refusal :=
  .next (s.write w (F.TB_BOARD_BASE.addr t) v (writeTbBoard w t.val v))

/-- TB_EVT_READ (R373): what the read takes away. -/
def execTbEvtRead (w : BitVec 6) (t : Fin 2) (s : State) : Host.Outcome State Fault Refusal :=
  .next (s.read w (F.TB_EVT_VALID.addr t) fun d => (readTbEvt d t.val).2)

end Sys2Proof.Machine
end

