-- ==== Sys2Proof/Machine/TallyUnits.lean ====
section
/-!
DEFINITION. The windows, snapshots and registers of the tally units (R407, R408, R410).
-/
namespace Sys2Proof.Machine

/-- Unit `n`. -/
def tallyUnit (d : Dev) (n : Nat) : Tally := Tab.get {} d.tallies n

/-- Unit `n` replaced. -/
def setTally (d : Dev) (n : Nat) (u : Tally) : Dev := { d with tallies := Tab.set {} d.tallies n u }

/-- The settings as the registers of unit `n` stand. TGT_HI counts for MKTPEAK alone, whose target is a Market
address. -/
def tallyCfg (d : Dev) (n : Nat) : TallyCfg :=
  let w := fld d F.TL_WIN_WIN n
  let probe := fld d F.TL_CTRL_PROBE n
  { probe := probe, target := (if probe = 1 then fld d F.TL_TGT_HI_TGT n * 2 ^ 24 else 0) + fld d F.TL_TGT_LO_TGT n
    leg := flag d F.TL_TGT_HI_LEG n, log := flag d F.TL_CTRL_LOG n, lo := sfld d F.TL_LO_LO n
    shift := fld d F.TL_SHIFT_SHIFT n, win := if w = 0 then 16777216 else w }

/-- The completed window of unit `n` goes to the front (R408): the snapshot's words, then SEQ, DONE and source 21. -/
def tallyExchange (d : Dev) (n : Nat) : Dev :=
  let u := tallyUnit d n
  match u.done with
  | none => d
  | some (b, ticks) =>
    let d := setTally d n { u with done := none }
    let d := setf (setf (setf d F.TL_TICKS_TICKS n ticks) F.TL_NSAMP_NSAMP n b.nsamp) F.TL_UNDER_UNDER n b.under
    let d := setf (wr (wr d (F.TL_MIN_MIN.addr n) (w24i b.mn)) (F.TL_MAX_MAX.addr n) (w24i b.mx)) F.TL_OVER_OVER n b.overs
    let d := forAll (List.range 64) (fun d i => setf d F.TLBIN_BIN (64 * n + i) (Tab.get 0 b.bins i)) d
    let d := setf (setf d F.TL_SEQ_SEQ n (fld d F.TL_SEQ_SEQ n + 1)) F.TL_SEQ_VALID n 1
    if flag d F.TL_CTRL_IRQ n then
      let a := A.TALLY_DONE + n / 24
      raise (wr d a (rd d a ||| (1#24 <<< (n % 24)))) 21
    else d

/-- The window of unit `n` ends after `ticks` ticks: under HOLD it is lost (R408). -/
def tallyEnd (d : Dev) (n ticks : Nat) : Dev :=
  let d := tallyExchange d n
  let u := tallyUnit d n
  let d := setf d F.TL_CUR_CUR n 0
  if flag d F.TL_CTRL_HOLD n then inc (setTally d n { u with back := {} }) F.TL_LOST_LOST n
  else setTally d n { u with back := {}, done := some (u.back, satTo 0xFFFFFF ticks) }

/-- Unit `n` stops. -/
def tallyOff (d : Dev) (n : Nat) : Dev :=
  setf (setTally d n { tallyUnit d n with live := false, dirty := false }) F.TL_CTRL_STATUS n 0

/-- A new window of unit `n` starts (R407). -/
def tallyStart (d : Dev) (n : Nat) : Dev :=
  setf (setTally d n { tallyUnit d n with live := true, back := {}, dirty := false, cfg := tallyCfg d n }) F.TL_CTRL_STATUS n 1

/-- Unit `n` at a tick edge. -/
def tallyTick (d : Dev) (n : Nat) : Dev :=
  let u := tallyUnit d n
  let en := flag d F.TL_CTRL_EN n
  if u.live then
    let cur := fld d F.TL_CUR_CUR n + 1
    if fld d F.TL_CTRL_STATUS n = 2 then
      let d := tallyEnd d n cur
      if en then tallyStart d n else tallyOff d n
    else if u.cfg.win ≤ cur then
      let d := tallyEnd d n cur
      let u := tallyUnit d n
      if u.dirty then setTally d n { u with dirty := false, cfg := tallyCfg d n } else d
    else setf d F.TL_CUR_CUR n cur
  else if en then tallyStart d n
  else d

/-- Unit `n` ends its window at once and stops: no edges arrive (R408). -/
def tallyFinish (d : Dev) (n : Nat) : Dev := tallyOff (tallyExchange (tallyEnd d n (fld d F.TL_CUR_CUR n)) n) n

/-- The tick edges cease: a unit that drains ends (R408). -/
def tallyStop (d : Dev) : Dev :=
  forAll (List.range 64) (fun d n => if fld d F.TL_CTRL_STATUS n = 2 then tallyFinish d n else d) d

/-- Every unit at a tick edge (R407). -/
def tallyEdge (d : Dev) : Dev := forAll (List.range 64) tallyTick d

/-- Settings of unit `n` were written: that clears the back buffer, and a new window starts at the next edge; in the
window's last tick, a drain's among them, it takes effect after that window's snapshot (R408). A write of a register of
settings alone does so whatever it writes; one of the CTRL register, which EN and HOLD share with PROBE and LOG, where it
changes one of those (notes/assumptions/24). -/
def tallyChanged (d : Dev) (n : Nat) (old : TallyCfg) (alone : Bool) : Dev :=
  let u := tallyUnit d n
  if !u.live || (!alone && tallyCfg d n = old) then d
  else if u.cfg.win ≤ fld d F.TL_CUR_CUR n + 1 || fld d F.TL_CTRL_STATUS n = 2 || !flag d F.TL_CTRL_EN n then
    setTally d n { u with dirty := true }
  else setf (setTally d n { u with live := false, back := {} }) F.TL_CUR_CUR n 0

/-- A write of offset `off` of unit `n`, 0 to 5 (R407, R408). -/
def writeTally (w : BitVec 6) (n off : Nat) (v : W24) (d : Dev) : Dev :=
  let old := tallyCfg d n
  let d := tallyChanged (regWrite d w.toNat (F.TL_CTRL_EN.addr n + off) v) n old (off ≠ 0)
  let st := fld d F.TL_CTRL_STATUS n
  if flag d F.TL_CTRL_EN n then (if st = 2 then d else setf d F.TL_CTRL_STATUS n 1)
  else if st = 1 then
    if !(tallyUnit d n).live then tallyOff d n
    else if d.ticking then setf d F.TL_CTRL_STATUS n 2
    else tallyFinish d n
  else d

/-- A write of FEED (R406): dropped unless PROBE is SOFT. -/
def writeFeed (w : BitVec 6) (n : Nat) (v : W24) (d : Dev) : Dev :=
  let d := regWrite d w.toNat (F.TL_FEED_FEED.addr n) v
  let u := tallyUnit d n
  if u.live && u.cfg.probe = 9 then setTally d n (u.value v.toInt) else d

/-- A write of the LOST register. -/
def writeTallyLost (w : BitVec 6) (n : Nat) (v : W24) (d : Dev) : Dev :=
  let d := regWrite d w.toNat (F.TL_LOST_CLR.addr n) v
  if F.TL_LOST_CLR.of v = 1 then setf d F.TL_LOST_LOST n 0 else d

/-! ## Commands -/

/-- TALLY_WINDOW_END (R408). -/
def execTallyWindowEnd (n : Fin 64) (s : State) : Host.Outcome State Fault Refusal :=
  .next (s.act fun d => tallyExchange d n.val)

/-- TALLY_ENABLE_WRITE (R407). -/
def execTallyEnableWrite (w : BitVec 6) (n : Fin 64) (v : W24) (s : State) : Host.Outcome State Fault Refusal :=
  .next (s.write w (F.TL_CTRL_EN.addr n) v (writeTally w n.val 0 v))

/-- TALLY_CONFIG_WRITE (R408). -/
def execTallyConfigWrite (w : BitVec 6) (n : Fin 64) (off : Fin 6) (v : W24) (s : State) :
    Host.Outcome State Fault Refusal :=
  .next (s.write w (F.TL_CTRL_EN.addr n + off.val) v (writeTally w n.val off.val v))

/-- FEED (R406). -/
def execFeed (w : BitVec 6) (n : Fin 64) (v : W24) (s : State) : Host.Outcome State Fault Refusal :=
  .next (s.write w (F.TL_FEED_FEED.addr n) v (writeFeed w n.val v))

/-- TALLY_CLR (R410). -/
def execTallyClr (w : BitVec 6) (n : Fin 64) (v : W24) (s : State) : Host.Outcome State Fault Refusal :=
  .next (s.write w (F.TL_LOST_CLR.addr n) v (writeTallyLost w n.val v))

end Sys2Proof.Machine
end

