-- ==== Sys2Proof/Machine/Stage2.lean ====
section
/-!
DEFINITION. Stage 2 and where tick edges come from (R24, R335 to R337, R347 to R354): what the end of the edges does, the
band table, the fallback synthesiser, the change of the rate family, the link PLLs, and the media clock at an edge
(`mcsEdge`).
-/
namespace Sys2Proof.Machine

/-! ## Stage 2, the tick and the family (R335 to R337, R350 to R352) -/

/-- Board writes were applied, and the work that waited behind a held one goes on (R22). -/
def boardFreed (d : Dev) : Dev := forAll [0, 1] tbResume (forAll [0, 1] tuResume d)

/-- No tick edges come any more (R24, R37, R259, R347, R408). -/
def ticksStop (d : Dev) : Dev :=
  let d := setf (tallyStop (suStop (boardFlush (realignEnd d)))) F.TICK_CUTOFF_EFF_EFF 0 0
  boardFreed { d with ticking := false }

/-- The MCLK outputs stop where nothing drives them any more (R354, R451). -/
def mclkStop (d : Dev) : Dev := updMcs d fun m => { m with mclkOn := 0 }

/-- The fallback synthesiser has neither LP0 nor REF156 to run from, and stage 2 is not locked (R350). -/
def sourceless (d : Dev) : Bool := !flag d F.MCS_STAT_S2LOCK 0 && !lpLocked d 0 && d.mcs.refAbsent

/-- Nothing makes tick edges: stage 2 is not locked, and the fallback synthesiser does not run or has no source (R335,
R350, R419); a family change waits for its new lock (R352); or HUSH holds them at depth 3. -/
def noEdges (d : Dev) : Bool :=
  (!flag d F.MCS_STAT_S2LOCK 0 && !flag d F.MCS_STAT_TICKSRC 0) || sourceless d
    || d.mcs.change = 3 || hushClocks d

/-- Tick edges end where nothing makes them any more (R37, R350). -/
def edgesCheck (d : Dev) : Dev := if d.ticking && noEdges d then ticksStop (mclkStop d) else d

/-- The rate in force becomes the member of the family in force in the same base or double position (R39, R352). -/
def rateOfFamily (d : Dev) : Dev :=
  setf d F.TICK_RATE_RATE 0 (fld d F.TICK_RATE_RATE 0 / 2 * 2 + (1 - d.mcs.family))

/-- Tick edges stop for a family change, and stage 2 is to lock for the new family (R352 step 2). -/
def familyStop (d : Dev) : Dev :=
  let d := setf (setf d F.MCS_STAT_S2LOCK 0 0) F.MCS_STAT_TICKSRC 0 0
  refFollow (updMcs d fun m =>
    { m with change := 3, family := m.target, s2Locking := false, s2None := false, acq := 0, realign := 0
             coastAfter := false, lastErr := none, back := false, mclkOn := 0 })

/-- A family change begins where FAMILY differs from the family in force and none runs (R352). -/
def familyStart (d : Dev) : Dev :=
  let want := fld d F.MCS_CTRL_FAMILY 0
  if d.mcs.change != 0 || want = d.mcs.family then d
  else if d.ticking then updMcs d fun m => { m with change := 1, target := want }
  else
    let d := familyStop (updMcs d fun m => { m with target := want })
    if flag d F.CUE_STAGE_LOADED 0 then d else rateOfFamily d

/-- A write of MCS.CTRL (R335, R341, R352). -/
def writeMcsCtrl (w : BitVec 6) (v : W24) (d : Dev) : Dev :=
  let s1 := s1On d
  let s2 := flag d F.MCS_CTRL_S2EN 0
  let d := regWrite d w.toNat A.MCS_CTRL v
  let d :=
    if s2 && !flag d F.MCS_CTRL_S2EN 0 then
      let d := setf (setf (ticksStop (mclkStop d)) F.MCS_STAT_S2LOCK 0 0) F.MCS_STAT_TICKSRC 0 0
      updMcs d fun m => { m with s2Locking := false, s2None := false, back := false }
    else d
  let d :=
    if s1 && !s1On d then
      updMcs (setMcsState (realignAbandon d) 0) fun m => { m with acq := 0, noLock := false, lastErr := none }
    else if !s1 && s1On d && d.mcs.change != 3 then acquire d
    else d
  familyStart d

/-- The first entry of the band table that fits (R335). -/
def bandFor (d : Dev) (tj : Int) : Option Nat :=
  (List.range 16).find? fun i =>
    flag d F.MCS_BAND_VALID i && fld d F.MCS_BAND_FAM i = d.mcs.family
      && sfld d F.MCS_BAND_TLO i ≤ tj && tj ≤ sfld d F.MCS_BAND_THI i

/-- A stage-2 lock attempt at the temperature `tj` (R335). -/
def s2Attempt (d : Dev) (tj : Int) : Dev :=
  if !flag d F.MCS_CTRL_S2EN 0 || flag d F.MCS_STAT_S2LOCK 0 || hushClocks d then d
  else
    match bandFor d tj with
    | some i =>
      updMcs (setf d F.MCS_STAT_BAND 0 (fld d F.MCS_BAND_BAND i)) fun m => { m with s2Locking := true, s2None := false }
    | none =>
      let d := if d.mcs.s2None then d else post d 0x63 0 0 2
      updMcs d fun m => { m with s2None := true, s2Locking := false }

/-- Stage 2 locks (R335, R351, R352 steps 3 and 4). -/
def s2Locked (d : Dev) : Dev :=
  if !d.mcs.s2Locking then d
  else
    let d := updMcs (setf d F.MCS_STAT_S2LOCK 0 1) fun m =>
      { m with s2Locking := false, back := flag d F.MCS_STAT_TICKSRC 0 }
    if d.mcs.change = 3 then
      let d := updMcs (rateOfFamily d) fun m => { m with change := 4 }
      if s1On d then acquire (setMcsState d (if flag d F.MCS_STAT_REFVALID 0 then 1 else 0)) else d
    else d

/-- Stage 2 is declared unlocked (R336, R350). -/
def s2Unlock (d : Dev) (tj : Int) : Dev :=
  if !flag d F.MCS_STAT_S2LOCK 0 then d
  else
    let d := setf (setf d F.MCS_STAT_S2LOCK 0 0) F.MCS_STAT_TICKSRC 0 1
    let d := updMcs (post d 0x62 0 (fld d F.MCS_STAT_BAND 0) (w24i tj).toNat) fun m => { m with back := false }
    edgesCheck (if s1On d then coast d 4 else realignAbandon d)

/-- A write of MCS.S2CAL (R337). -/
def writeS2cal (w : BitVec 6) (v : W24) (d : Dev) : Dev :=
  if F.MCS_S2CAL_GO.of v = 1 then
    if flag d F.MCS_CTRL_S2EN 0 then setf d F.MCS_S2CAL_VTUNE 0 0
    else setf (regWrite d w.toNat A.MCS_S2CAL v) F.MCS_S2CAL_BUSY 0 1
  else regWrite d w.toNat A.MCS_S2CAL v

/-- A band measurement reports (R337). -/
def s2calDone (d : Dev) (vtune : Nat) : Dev :=
  if flag d F.MCS_S2CAL_BUSY 0 then setf (setf d F.MCS_S2CAL_BUSY 0 0) F.MCS_S2CAL_VTUNE 0 vtune else d

/-! ## The tick edge -/

/-- Egress channel `c` is in use at the rate in force (R257, R325). -/
def egressUsed (d : Dev) (c : Nat) : Bool := !(doubleFamily d && 4096 ≤ c && c < 8192)

/-- Every bus with live EN = 1 and every egress channel is CLOSED (R347 step 2), of those in use at the rate in force. -/
def curtainsClosed (d : Dev) : Bool :=
  ((List.range (if doubleFamily d then 256 else 512)).all fun b =>
      !flag d F.COLLN_CFG_EN b || (bus d b).curtain.state = 2)
    && (d.egress.all fun e => !egressUsed d e.1 || e.2.state = 2)

/-- A code of the DAC held to its range. -/
def dacCode (x : Int) : Nat := if x < 0 then 0 else satTo 0xFFFFF x.toNat

/-- What the edge does to a realignment (R347, R348): whether it is the edge of an alignment step. -/
def realignEdge (d : Dev) : Bool × Dev :=
  match d.mcs.realign with
  | 0 => (false, d)
  | 1 => (false, updMcs (setMcsState { d with col := { d.col with clk := true } } 6) fun m => { m with realign := 2 })
  | 2 => (false, if curtainsClosed d then updMcs d fun m => { m with realign := 3 } else d)
  | 3 =>
    (true, updMcs (setf d F.MCS_DAC_WORD 0 (dacCode d.mcs.refCode)) fun m => { m with realign := 4, lastErr := none })
  | _ =>
    let after := d.mcs.coastAfter
    let d := updMcs { d with col := { d.col with clk := d.mcs.change ≠ 0 } } fun m =>
      { m with realign := 0, coastAfter := false }
    let d := setMcsState d 2
    (false, if after then coastAt d 1 d.mcs.afterDac else d)

/-- What the edge does to a family change (R352). -/
def familyEdge (d : Dev) : Dev :=
  match d.mcs.change with
  | 1 => updMcs { d with col := { d.col with clk := true } } fun m => { m with change := 2 }
  | 2 => if curtainsClosed d then familyStop d else d
  | 4 =>
    if mcsState d = 2 || mcsState d = 3 then
      familyStart (updMcs { d with col := { d.col with clk := false } } fun m => { m with change := 0 })
    else d
  | _ => d

/-- The media clock at a tick edge: whether MC is set from TAI at it (R310), and the machine. -/
def mcsEdge (d : Dev) : Bool × Dev :=
  let d := if d.mcs.back then updMcs (setf d F.MCS_STAT_TICKSRC 0 0) fun m => { m with back := false } else d
  let d := familyEdge d
  let (stepped, d) := realignEdge d
  let acquired := d.mcs.acq = 3
  let d :=
    if acquired then
      updMcs (setMcsState (setf d F.MCS_DAC_WORD 0 (dacCode d.mcs.refCode)) 2) fun m =>
        { m with acq := 0, lastErr := none }
    else d
  let on := (List.range 4).foldl (fun n i => n + b1 (flag d F.MCS_MCLK_EN i) * 2 ^ i) 0
  let d := updMcs d fun m => { m with mclkOn := BitVec.ofNat 4 on }
  ((stepped || acquired) && fld d F.MCS_REF_SEL 0 = 0, d)

/-! ## Link PLLs (R353) -/

/-- The ports a link PLL clocks. -/
def lpPorts (d : Dev) (n : Nat) : List Nat := (List.range 4).filter fun p => fld d F.PORT_CTRL_LPSEL p = n

/-- Link PLL `n` is no longer locked: its ports fall, and LP0 counts TIME coarsely (R275, R328). -/
def lpDown (d : Dev) (n : Nat) : Dev :=
  let d := forAll (lpPorts d n) (fun d p => linkDown d p 3) d
  if n = 0 then refFollow (setf d F.TIME_CTRL_COARSE 0 1) else d

/-- A lock attempt (R353). -/
def lpAttempt (d : Dev) (n band : Nat) (locks : Bool) : Dev :=
  if !flag d F.LP_CTRL_ENABLE n || hushClocks d || lpLocked d n then d
  else if locks then
    let d := updMcs (setf (setf d F.LP_STAT_STATE n 2) F.LP_STAT_BAND n band) fun m => { m with refAbsent := false }
    let d := forAll (lpPorts d n) portTrain d
    if n = 0 then refFollow (setf d F.TIME_CTRL_COARSE 0 0) else d
  else updMcs (setf d F.LP_STAT_STATE n 1) fun m => { m with refAbsent := false }

/-- A loss (R353). The row says whether REF156 is absent, of a link PLL that is not locked too; with it absent and LP0 not
locked the fallback synthesiser has nothing left to run from (R350; notes/assumptions/29). -/
def lpLoss (d : Dev) (n : Nat) (absent : Bool) : Dev :=
  let d := updMcs d fun m => { m with refAbsent := absent }
  let d :=
    if !lpLocked d n then d
    else
      let d := inc (setf d F.LP_STAT_STATE n 1) F.LP_STAT_LOSSES n
      lpDown (post d 0x64 n (fld d F.LP_STAT_BAND n) (if absent then 2 else 1)) n
  edgesCheck d

/-- A write of LPn.CTRL (R353). -/
def writeLpCtrl (w : BitVec 6) (n : Nat) (v : W24) (d : Dev) : Dev :=
  let was := flag d F.LP_CTRL_ENABLE n
  let locked := lpLocked d n
  let d := regWrite d w.toNat (F.LP_CTRL_ENABLE.addr n) v
  let now := flag d F.LP_CTRL_ENABLE n
  if was && !now then
    let d := setf d F.LP_STAT_STATE n 0
    edgesCheck (if locked then lpDown (inc d F.LP_STAT_LOSSES n) n else d)
  else if !was && now && !hushClocks d then setf d F.LP_STAT_STATE n 1
  else d

/-! ## Commands -/

/-- S2CAL_GO (R337). -/
def execS2calGo (w : BitVec 6) (v : W24) (s : State) : Host.Outcome State Fault Refusal :=
  .next (s.write w A.MCS_S2CAL v (writeS2cal w v))

/-- S2CAL_DONE (R337). -/
def execS2calDone (vtune : BitVec 8) (s : State) : Host.Outcome State Fault Refusal :=
  .next (s.act fun d => s2calDone d vtune.toNat)

/-- S2_LOCK_ATTEMPT (R335). -/
def execS2LockAttempt (tj : BitVec 8) (s : State) : Host.Outcome State Fault Refusal :=
  .next (s.act fun d => s2Attempt d tj.toInt)

/-- S2_LOCKED (R335, R351). -/
def execS2Locked (s : State) : Host.Outcome State Fault Refusal := .next (s.act s2Locked)

/-- LP_LOCK_ATTEMPT (R353). -/
def execLpLockAttempt (n : Fin 2) (band : BitVec 5) (locks : Bool) (s : State) : Host.Outcome State Fault Refusal :=
  .next (s.act fun d => lpAttempt d n.val band.toNat locks)

end Sys2Proof.Machine
end

