-- ==== Sys2Proof/Machine/House.lean ====
section
/-!
DEFINITION. HOUSE (R27, R386 to R402, R418 to R424): reset and bring-up, the memory tests, the boot image, the power
states, the life cycle and tamper.
-/
namespace Sys2Proof.Machine

/-! ## Device reset and bring-up (R418, R419, R444) -/

/-- The tamper registers, which the VBAT domain keeps (R444). -/
def vbatRegs (d : Dev) : Tab W24 :=
  [A.HOUSE_TAMPER, A.HOUSE_TAMPER_T].foldl (fun t a => Tab.set 0 t a (rd d a)) []

/-- The VBAT seconds counter: loaded from TIME while HOUSE is up (R401). -/
def vbatNow (s : State) : Nat := if s.dev.house.up then s.dev.house.vbat else s.sec.vbat

/-- What the VBAT domain holds of HOUSE: CORE_EN, and a wake asked for (R396). -/
def vbatHouse (h : House) : House := { coreEn := h.coreEn, wakeAsked := h.wakeAsked }

/-- The device reset of R444: every register to its Reset column, what the VBAT domain holds, the prompt book and the vault
kept. -/
def deviceReset (s : State) : State :=
  let sec := { s.sec with vbat := vbatNow s, sealing := none, crypto := none, pbHeld := [] }
  let d : Dev := { ctl := vbatRegs s.dev, fresh := s.dev.fresh, house := vbatHouse s.dev.house }
  setKey { s with dev := d, sec := sec } s.sec.key

/-- CRC-8 of R392. -/
def crc8 (l : List Byte) : Byte :=
  l.foldl (fun (c : Byte) b => (List.range 8).foldl (fun (c : Byte) _ => if c.msb then (c <<< 1) ^^^ 0x07 else c <<< 1) (c ^^^ b)) 0

/-- The fuses are loaded (R176, R392, R398, R419 step 3). -/
def loadFuses (s : State) : State :=
  let n := Config.fuseSerial.toNat
  let d := s.dev
  let d := wr d A.HOUSE_SERIAL (w24 (n / 2 ^ 40))
  let d := wr d (A.HOUSE_SERIAL + 1) (w24 (n / 2 ^ 16))
  let d := wr d (A.HOUSE_SERIAL + 2) (w24 (n % 2 ^ 16 * 256 + (crc8 (beBytes 8 n)).toNat))
  let d := setf d F.HOUSE_LC_STATE 0 s.sec.lc.toNat
  let d := setf d F.CUE_CTRL_SIGREQ 0 (b1 (s.sec.lc = 3 || s.sec.lc = 4))
  let d := forAll [0, 1]
    (fun d i => setf (setf d F.MCS_BAND_VALID i (b1 (Config.fuseBandValid i))) F.MCS_BAND_BAND i (Config.fuseBand i).toNat) d
  let d := forAll (List.range 129)
    (fun d k => setf (setf d F.MKTS_REPAIR0_ONE k (Config.fuseRepair k 0).toNat) F.MKTS_REPAIR1_TWO k
      (Config.fuseRepair k 1).toNat) d
  { s with dev := d }

/-- Steps 1 to 3 of bring-up (R419), HOUSE answering at `addr`: the boot is counted, the fuses loaded, TIME takes the
VBAT seconds, and a tamper event met in DARK is posted (R401, R415, R422). -/
def bringUp (s : State) (addr : BitVec 3) : State :=
  let s := loadFuses (countBoot s)
  let v := s.sec.vbat
  let d := { s.dev with house := { s.dev.house with up := true, boot := 1, addr := addr, vbat := v }
                        time := { s.dev.time with sec := v } }
  let d := if s.sec.tamperPend = 0 then d
    else post d 0x83 0 s.sec.tamperPend.toNat (fld d F.HOUSE_TAMPER_COUNT 0)
  { s with dev := d, sec := { s.sec with tamperPend := 0 } }

/-- Power good (R418). Without VCORE the VBAT seconds counter went on by an open number (R401; notes/assumptions/2). -/
def powerGood (s : State) (addr : BitVec 3) : State :=
  let (u, d) := freshWord s.dev
  let off := if s.dev.house.up then 0 else u.toNat
  let s := deviceReset { s with dev := d }
  bringUp { s with sec := { s.sec with vbat := (s.sec.vbat + off) % 2 ^ 48 } } addr

/-- Power good is lost (R418): the device resets, and nothing but the VBAT domain and the prompt book is kept. -/
def powerLoss (s : State) : State :=
  deviceReset { s with sec := { s.sec with vault := [], vecc := [], vbat := vbatNow s } }

/-- A device reset while power stays good (R390, R399): bring-up starts again, and samples the address straps, at which the
command that resets says nothing (R418, R452; notes/assumptions/2). -/
def resetAgain (s : State) : State :=
  let (u, d) := freshWord s.dev
  bringUp (deviceReset { s with dev := d }) (u.truncate 3)

/-! ## Memory tests (R192, R397, R423) -/

/-- What the destructive tests of bring-up leave (R167, R192, R201, R397, R419 step 4): every Market word zero with valid
check bits, and no word of the other memories as it was. -/
def memClear (d : Dev) : Dev :=
  { d with mkt := [], ecc := [], pkt := [], pecc := [], pscrub := [], stage := [], wings := [], prog := [], gecc := []
           stalls := { d.stalls with scrubs := [] } }

/-- One word that fails: memories 0 to 16 the program stores of the engine positions, 17 and 18 the prompters', 32 to 48
the pockets; 63 a stall or STU, which is retired (R179). -/
def memFails (d : Dev) (e : Nat × Nat) : Dev :=
  let (m, w) := e
  if m < 16 then
    let d := setf d F.HOUSE_MEMFAIL_POS 0 (fld d F.HOUSE_MEMFAIL_POS 0 ||| 2 ^ m)
    post (setf d F.SE_ENG_CTRL_ENABLE m 0) 0x82 0 m w
  else if m = 16 then
    let d := setf d F.HOUSE_MEMFAIL_POS 0 (fld d F.HOUSE_MEMFAIL_POS 0 ||| 2 ^ 16)
    post (setf { d with su := { d.su with memFault := true } } F.SU_STAT_MODE 0 5) 0x82 0 16 w
  else if m ≤ 18 then
    let n := m - 17
    let d := setf d (if n = 0 then F.HOUSE_MEMFAIL_PC0 else F.HOUSE_MEMFAIL_PC1) 0 1
    let d := setf (pcHalt (setf d F.PC_CTRL_RUN n 0) n) F.PC_CTRL_MEMFAIL n 1
    post d 0x82 0 m w
  else if 32 ≤ m && m ≤ 48 then
    pktPoisoned { d with pecc := Tab.set 0 d.pecc (pktKey (m - 32) (w % 16384)) poisonMark } (m - 32)
  else if m = 63 then (if d.house.boot = 1 && w < 129 then marchFails d w else d)
  else d

/-! ## The boot image (R386 to R388, R398) -/

/-- The flags of a boot image. -/
def bootFlag (b : List Byte) (i : Nat) : Bool := (leAt b 6 2).testBit i

/-- Order 2 of R387: magic, version, header CRC, L and the bounds of the sections. -/
def bootHeaderOk (b : List Byte) : Bool :=
  let n := leAt b 8 4
  let fits (off len : Nat) : Bool := off + len ≤ n
  b.take 4 == [0x4F, 0x42, 0x54, 0x31] && leAt b 4 2 == 1 && crc32 (b.take 60) == leAt b 60 4
    && 64 ≤ n && n ≤ 16777216 && n ≤ b.length
    && leAt b 16 4 ≤ 65536 && fits (leAt b 12 4) (4 * leAt b 16 4)
    && leAt b 24 4 ≤ 65536 && fits (leAt b 20 4) (4 * leAt b 24 4)
    && fits (leAt b 28 4) (leAt b 32 4) && leAt b 36 4 + (leAt b 32 4 + 2) / 3 ≤ mktSize
    && (!bootFlag b 0 || 192 ≤ n)

/-- Order 3 of R387. -/
def bootSigOk (lc : BitVec 3) (b : List Byte) : Bool :=
  if bootFlag b 0 then
    let n := leAt b 8 4
    let key := (b.drop (n - 192)).take 96
    sha384 key == Config.fuseKeyHash
      && ecdsaVerify key (sha384 (b.take (n - 96))) ((b.drop (n - 96)).take 96)
  else !(lc = 3 || lc = 4)

/-- The result of one copy: 0 OK, 1 NOFLASH, 2 BADHDR, 3 BADSIG. -/
def bootCheck (lc : BitVec 3) : Option (List Byte) → Nat
  | none => 1
  | some b => if !bootHeaderOk b then 2 else if !bootSigOk lc b then 3 else 0

/-- A prompter's program is written from word 0. -/
def bootProgram (d : Dev) (n : Nat) (b : List Byte) : Dev :=
  let off := leAt b (12 + 8 * n) 4
  forAll (List.range (leAt b (16 + 8 * n) 4))
    (fun d i => progPut d (progKey n i) (BitVec.ofNat 32 (leAt b (off + 4 * i) 4))) d

/-- The Sprinan image goes to the Market, and SLOT0 names it. -/
def bootSprinan (d : Dev) (b : List Byte) : Dev :=
  let off := leAt b 28 4
  let len := leAt b 32 4
  let a := leAt b 36 4
  if len = 0 then d
  else
    let body := (b.drop off).take len
    let d := (List.range ((len + 2) / 3)).foldl (fun d i => mktPut d (a + i) (w24 (leAt body (3 * i) 3))) d
    setf (setf d F.CUE_SLOT_HI_BASE 0 (a / 2 ^ 24)) F.CUE_SLOT_LO_BASE 0 a

/-- The prompter starts, secure where its flag, the signature and the life cycle allow (R377, R388, R398). -/
def bootPrompter (lc : BitVec 3) (b : List Byte) (d : Dev) (n : Nat) : Dev :=
  let sec := bootFlag b 0 && bootFlag b (1 + n) && (lc = 1 || lc = 2 || lc = 3)
  let d := if sec then setf d F.PC_CTRL_SEC n 1 else d
  let d := if flag d F.PC_CTRL_MEMFAIL n then d else setf d F.PC_CTRL_RUN n 1
  pcReset d n

/-- Copy `copy`, which passed, is booted (R388). -/
def bootFrom (lc : BitVec 3) (d : Dev) (copy : Nat) (b : List Byte) : Dev :=
  let d := bootSprinan (bootProgram (bootProgram d 0 b) 1 b) b
  let d := forAll [0, 1] (bootPrompter lc b) d
  setf (setf (setf d F.HOUSE_BOOT_COPY 0 copy) F.HOUSE_BOOT_RESULT 0 0) F.HOUSE_BOOT_SIGNED 0 (b1 (bootFlag b 0))

/-- No copy boots (R387). -/
def bootFails (d : Dev) (a b : Nat) : Dev := post (setf d F.HOUSE_BOOT_RESULT 0 b) 0x81 0 a b

/-- The flash has been read and checked (R387). -/
def bootChecked (s : State) (a b : Option (List Byte)) : State :=
  let lc := s.sec.lc
  if s.dev.house.boot ≠ 2 then s
  else
    let d := s.dev
    let d := if lc = 0 then bootFails d 4 4
      else match a, b with
        | some x, y =>
          if bootCheck lc (some x) = 0 then bootFrom lc d 0 x
          else match y with
            | some z => if bootCheck lc (some z) = 0 then bootFrom lc d 1 z else bootFails d (bootCheck lc a) (bootCheck lc y)
            | none => bootFails d (bootCheck lc a) 1
        | none, some z => if bootCheck lc (some z) = 0 then bootFrom lc d 1 z else bootFails d 1 (bootCheck lc b)
        | none, none => bootFails d 1 1
    { s with dev := { d with house := { d.house with boot := 3 } } }

/-! ## Power states (R27, R393 to R396) -/

/-- The record behind HOUSE changed. -/
def updHouse (d : Dev) (f : House → House) : Dev := { d with house := f d.house }

/-- STATE as HOUSE.STATE shows it. -/
abbrev houseState (d : Dev) : Nat := fld d F.HOUSE_STATE_STATE 0

/-- A transition ends in `state` at `depth` (R394). -/
def houseDone (d : Dev) (state depth : Nat) : Dev :=
  let d := setf (setf (setf d F.HOUSE_STATE_STATE 0 state) F.HOUSE_STATE_DEPTH 0 depth) F.HOUSE_STATE_LASTRES 0 1
  let d := updHouse d fun h => { h with trans := 0, depth := depth }
  alert (raise (post d 0x80 0 state depth) 24) 2

/-- The due times, in ns, that a wake must be in time for (R393). -/
def eventTimes (d : Dev) : List Nat :=
  let ne := fld d F.HOUSE_NE_SEC_HI_SEC 0 * 2 ^ 24 + fld d F.HOUSE_NE_SEC_LO_SEC 0
  let ns := fld d F.HOUSE_NE_NS_HI_NS 0 * 2 ^ 24 + fld d F.HOUSE_NE_NS_LO_NS 0
  let next := if flag d F.HOUSE_NE_NS_HI_VALID 0 then [ne * 1000000000 + ns] else []
  let cue (n : Nat) : List Nat :=
    let e := cueEntry d n
    let st := cueState d n
    if entryNow e then (if st = 1 then [nowNs d] else [])
    else if st = 1 || st = 2 then [e.sec * 1000000000 + e.ns] else []
  next ++ cueNumbers.flatMap cue

/-- tev of R393. -/
def eventDue (d : Dev) : Option Nat :=
  match eventTimes d with
  | [] => none
  | t :: l => some (l.foldl Nat.min t)

/-- wake(d) + margin, in ns times the sample rate (R393). -/
def wakeTime (d : Dev) (depth : Nat) : Nat :=
  let wake := match depth with | 1 => 1000000000 | 2 => 2000000 * rateHz d | _ => 60000000 * rateHz d
  wake + fld d F.HOUSE_GRANT_MARGIN 0 * 1000000 * rateHz d

/-- tev - now, in ns times the sample rate. -/
def timeLeft (d : Dev) (tev : Nat) : Int := ((tev : Int) - nowNs d) * rateHz d

/-- Depth `depth` leaves time for the wake (R393). -/
def depthFits (d : Dev) (depth : Nat) : Bool :=
  match eventDue d with
  | none => true
  | some t => wakeTime d depth ≤ timeLeft d t

/-- Depth `depth` is granted. -/
def depthGranted (d : Dev) (depth : Nat) : Bool :=
  flag d (match depth with | 1 => F.HOUSE_GRANT_D1 | 2 => F.HOUSE_GRANT_D2 | _ => F.HOUSE_GRANT_D3) 0

/-- Both transform units hold no descriptor. -/
def tusIdle (d : Dev) : Bool := tuLen d 0 = 0 && tuLen d 1 = 0

/-- The ports at entry to depth 3: DOWN with DCAUSE 4, those in training too (R395). -/
def portsDown (d : Dev) : Dev :=
  forAll (List.range 4)
    (fun d p =>
      let d := linkDown d p 4
      if fld d F.PORT_STAT_LINK p = 1 then setf (setf d F.PORT_STAT_LINK p 0) F.PORT_STAT_DCAUSE p 4 else d) d

/-- The clocks of depth 3 stop: link PLLs off as by ENABLE = 0 (R353), stage 2 off, the DAC held with no post, PTP not valid
while TIME counts coarsely (R338, R395). -/
def clocksOff (d : Dev) : Dev :=
  let d := forAll [0, 1]
    (fun d n => let d := if lpLocked d n then inc d F.LP_STAT_LOSSES n else d; setf d F.LP_STAT_STATE n 0) d
  let d := setf (setf (setf d F.TIME_CTRL_COARSE 0 1) F.MCS_STAT_S2LOCK 0 0) F.MCS_STAT_TICKSRC 0 0
  let d := updMcs (mclkStop d) fun m => { m with s2Locking := false, cause := 4, lastErr := none, back := false }
  let d := if 2 ≤ mcsState d then setMcsState d 4 else d
  refFollow d

/-- The prompters are held while the tests run, and released (R397). -/
def pcTest (d : Dev) (hold : Bool) : Dev :=
  forAll [17, 18]
    (fun d c => updCore d c fun k =>
      if hold then { k with hold := .test } else if k.hold = .test then { k with hold := .free } else k) d

/-- Steps 3 and 4 of R395, once the transform units are drained. -/
def hushDeep (d : Dev) : Dev :=
  let depth := d.house.depth
  let d := updHouse (ticksStop d) fun h => { h with gated := true, stopAt := nowUnits d }
  if depth = 2 then
    let d := forAll (List.range 4)
      (fun d p => if flag d F.PORT_CTRL_LPI p && flag d F.PORT_STAT_PARTNER p then updPort d p fun x => { x with lpi := true }
        else stepRequest d p) d
    houseDone d 1 2
  else pcTest (updHouse (clocksOff (portsDown d)) fun h => { h with trans := 3 }) true

/-- Step 2 of R395: the engines stop, and deeper the transform units drain. -/
def hushStop (d : Dev) : Dev :=
  let depth := d.house.depth
  let d := updHouse d fun h => { h with engStop := true }
  if depth = 1 then houseDone d 1 1
  else
    let d := forAll [0, 1] (fun d u => if fld d F.TU_CTRL_STATUS u = 1 then tuSettle (setf d F.TU_CTRL_STATUS u 2) u else d) d
    if tusIdle d then hushDeep d else updHouse d fun h => { h with trans := 2 }

/-- A transform unit has ended a descriptor while HUSH waits for both (R395). -/
def hushTus (d : Dev) : Dev := if d.house.trans = 2 && tusIdle d then hushDeep d else d

/-- The flush before DARK starts (R396). -/
def darkFlush (d : Dev) : Dev := flushStart (updHouse d fun h => { h with trans := 6 })

/-- The engines and the prompters stop, and the device is HALTED (R402). -/
def haltNow (d : Dev) : Dev :=
  let d := updMcs (mclkStop (ticksStop d)) fun m => { m with back := false }
  let d := updHouse (setf d F.HOUSE_STATE_STATE 0 4) fun h => { h with engStop := true, trans := 0 }
  let d := forAll (List.range 17) (fun d c => updCore d c fun k => { k with run := .off }) d
  forAll [0, 1] (fun d n => pcHalt (setf d F.PC_CTRL_RUN n 0) n) d

/-- The curtains of an entry to HUSH or DARK are CLOSED (R395, R396). -/
def houseClosed (d : Dev) : Dev :=
  if !curtainsClosed d then d
  else match d.house.trans with
    | 1 => hushStop d
    | 5 => darkFlush (updHouse d fun h => { h with engStop := true })
    | 8 => haltNow d
    | _ => d

/-- Every source takes DIS (R395, R396); where no tick edges come, curtains that are CLOSED let the entry go on at
once. -/
def houseEnter (d : Dev) (trans depth : Nat) : Dev :=
  let d := setf d F.HOUSE_STATE_STATE 0 2
  let d := updHouse { d with col := { d.col with disAll := true } } fun h => { h with trans := trans, depth := depth }
  if d.ticking then d else houseClosed d

/-- The wake starts (R394, R395). -/
def wakeStart (d : Dev) : Dev :=
  if houseState d ≠ 1 || d.house.trans ≠ 0 then d
  else
    let depth := d.house.depth
    let d := updHouse (setf d F.HOUSE_STATE_STATE 0 3) fun h => { h with trans := 4, gated := false }
    let d := if depth = 1 then d
      else forAll [0, 1] (fun d u => if flag d F.TU_CTRL_ENABLE u then setf d F.TU_CTRL_STATUS u 1 else d) d
    let d := forAll (List.range 4) (fun d p => if (port d p).lpi then updPort d p fun x => { x with lpi := false } else d) d
    if depth = 3 then
      forAll [0, 1] (fun d n => if flag d F.LP_CTRL_ENABLE n then setf d F.LP_STAT_STATE n 1 else d) d
    else d

/-- In HUSH, what HOUSE wakes for: the wake time that no longer fits, or a grant withdrawn (R394). -/
def hushCheck (d : Dev) : Dev :=
  if houseState d = 1 && !(depthFits d d.house.depth && depthGranted d d.house.depth) then wakeStart d else d

/-- The wake at tev less the wake time and the margin (R394). -/
def hushWake (d : Dev) : Dev :=
  match eventDue d with
  | some t => if houseState d = 1 && timeLeft d t ≤ wakeTime d d.house.depth then wakeStart d else d
  | none => d

/-- LASTRES alone. -/
def lastRes (d : Dev) (r : Nat) : Dev := setf d F.HOUSE_STATE_LASTRES 0 r

/-- A HUSH command in RUN: the depth by R393. -/
def hushChoose (d : Dev) : Dev :=
  if !(depthGranted d 1 || depthGranted d 2 || depthGranted d 3) then lastRes d 4
  else match [3, 2, 1].find? fun k => depthGranted d k && depthFits d k with
    | some k => houseEnter d 1 k
    | none => lastRes d 3

/-- A state command, 1 RUN, 2 HUSH, 3 DARK (R27, R394, R396). -/
def stateCmd (d : Dev) (cmd : Nat) : Dev :=
  if houseState d = 4 then d
  else if houseState d = 2 || houseState d = 3 || d.house.trans ≠ 0 then lastRes d 2
  else match cmd with
    | 1 => if houseState d = 1 then wakeStart d else lastRes d 1
    | 2 => if houseState d = 1 then lastRes d 1 else hushChoose d
    | 3 => if houseState d = 1 then darkFlush (setf d F.HOUSE_STATE_STATE 0 2) else houseEnter d 5 0
    | _ => d

/-- A write of HOUSE.STATE_CMD: an unassigned CMD is no command. -/
def writeStateCmd (w : BitVec 6) (v : W24) (d : Dev) : Dev :=
  let d := regWrite d w.toNat A.HOUSE_STATE_CMD v
  let c := F.HOUSE_STATE_CMD_CMD.of v
  if 1 ≤ c && c ≤ 3 then stateCmd d c else d

/-- HOUSE at a tick edge that is not gated: entries go on, and a wake ends with the engines (R395). The DIS cause clears
at the first edge at which the engines run. -/
def houseEdge (d : Dev) : Dev :=
  match d.house.trans with
  | 1 | 5 | 8 => houseClosed d
  | 4 =>
    let d := updHouse { d with col := { d.col with disAll := false } } fun h => { h with engStop := false }
    houseDone d 0 0
  | _ => d

/-- A flush completes; on the way to DARK, CORE_EN falls (R396, R415). -/
def flushCompletes (s : State) : State :=
  if s.dev.house.trans = 6 && flag s.dev F.LEDG_PCTRL_BUSY 0 then
    (flushDone (ledgerDrain s)).onDev fun d => updHouse d fun h => { h with trans := 7, coreEn := false }
  else flushDone s

/-! ## SMBus integrity (R389) -/

/-- HOUSE takes a transaction: 0 no PEC byte, 1 a right one, 2 a wrong one. -/
def smbTakes (d : Dev) (pec : BitVec 2) : Bool :=
  d.house.up && (pec = 1 || (pec = 0 && !flag d F.HOUSE_POLICY_PECREQ 0))

/-- A command of HOUSE whose writer is SMBus (63), or a master of control space that makes the accesses `l`. -/
def State.command (w : BitVec 6) (pec : BitVec 2) (l : List (Nat × Option W24)) (f : State → State) (s : State) : State :=
  if w.toNat = 63 then (if smbTakes s.dev pec then f s else s) else s.access w l f

/-! ## Grants and events (R393, R394) -/

/-- A write of HOUSE.GRANT: SMBus reaches bits [23:8] (R390). -/
def writeGrant (w : BitVec 6) (v : W24) (d : Dev) : Dev :=
  let v := if w.toNat = 63 then (v &&& 0xFFFF00) ||| (rd d A.HOUSE_GRANT &&& 0xFF) else v
  hushCheck (regWrite d w.toNat A.HOUSE_GRANT v)

/-- NEXT_EVENT written whole: over SMBus all zeros clear VALID (R390). -/
def writeNextEvent (w : BitVec 6) (sec ns : Nat) (valid : Bool) (d : Dev) : Dev :=
  let valid := if w.toNat = 63 then !(sec = 0 && ns = 0) else valid
  let d := setf (setf d F.HOUSE_NE_SEC_HI_SEC 0 (sec / 2 ^ 24)) F.HOUSE_NE_SEC_LO_SEC 0 sec
  let d := setf (setf d F.HOUSE_NE_NS_HI_NS 0 (ns / 2 ^ 24)) F.HOUSE_NE_NS_LO_NS 0 ns
  hushCheck (setf d F.HOUSE_NE_NS_HI_VALID 0 (b1 valid))

/-- The four register writes that NEXT_EVENT is to a master of control space, VALID's the last. -/
def nextEventWords (sec ns : Nat) (valid : Bool) : List (Nat × Option W24) :=
  [(A.HOUSE_NE_SEC_HI, some (w24 (sec / 2 ^ 24))), (A.HOUSE_NE_SEC_LO, some (w24 sec)), (A.HOUSE_NE_NS_LO, some (w24 ns)),
    (A.HOUSE_NE_NS_HI, some (w24 (b1 valid * 2 ^ 23 + ns / 2 ^ 24)))]

/-! ## Life cycle (R398, R399) -/

/-- The transitions of R398: 0 BLANK, 1 TEST, 2 DEVELOP, 3 DEPLOYED, 4 RETURNED. -/
def lcPermits (a b : Nat) : Bool :=
  (a = 0 && b = 1) || (a = 1 && (b = 2 || b = 3)) || (a = 2 && (b = 3 || b = 4)) || (a = 3 && b = 4)

/-- A request of a transition to `target` (R399); `v` is the word a refusal posts. -/
def lcRequest (s : State) (w target confirm : Nat) (v : W24) : State :=
  let old := s.sec.lc.toNat
  if !(lcPermits old target && confirm = 0x4C43) then s.onDev fun d => post d 0x01 w A.HOUSE_LC v.toNat
  else
    let s := zeroKey (wipe s)
    let s := { s with sec := { s.sec with lc := BitVec.ofNat 3 target } }
    let s := flushNow (ledgerDrain ((ledgerDrain s).onDev fun d => post d 0x84 0 target old))
    resetAgain s

/-- A write of HOUSE.LC. -/
def writeLc (w : BitVec 6) (v : W24) (s : State) : State :=
  lcRequest s w.toNat (F.HOUSE_LC_TARGET.of v) (F.HOUSE_LC_CONFIRM.of v) v

/-! ## Tamper (R400 to R402) -/

/-- The causes that are watched: the loops only where enabled (R400). -/
def watched (d : Dev) (causes : BitVec 4) : BitVec 4 :=
  let loops := b1 (flag d F.HOUSE_TAMPER_EN0 0) + 2 * b1 (flag d F.HOUSE_TAMPER_EN1 0)
  causes &&& BitVec.ofNat 4 (12 + loops)

/-- TAMPHALT (R402): every curtain closes; once they are CLOSED the engines and the prompters stop. -/
def tampHalt (d : Dev) : Dev :=
  let d := updHouse { d with col := { d.col with disAll := true } } fun h => { h with trans := 8 }
  if d.ticking then d else haltNow d

/-- A tamper event (R401). Without VCORE the counter at the event is open (notes/assumptions/2). -/
def tamper (s : State) (causes : BitVec 4) : State :=
  let c := watched s.dev causes
  if c = 0 then s
  else
    let s := zeroKey s
    let (u, d) := freshWord s.dev
    let t := if d.house.up then w24 d.house.vbat else u
    let d := setf d F.HOUSE_TAMPER_CAUSE 0 (fld d F.HOUSE_TAMPER_CAUSE 0 ||| c.toNat)
    let d := wr (inc d F.HOUSE_TAMPER_COUNT 0) A.HOUSE_TAMPER_T t
    if !d.house.up then { s with dev := d, sec := { s.sec with tamperPend := s.sec.tamperPend ||| c } }
    else
      let s := wipe { s with dev := d }
      s.onDev fun d =>
        let d := flushStart (post d 0x83 0 c.toNat (fld d F.HOUSE_TAMPER_COUNT 0))
        if flag d F.HOUSE_POLICY_TAMPHALT 0 then tampHalt d else d

/-- A write of HOUSE.TAMPER: COUNT is cleared when CAUSE is cleared to 0. -/
def writeTamper (w : BitVec 6) (v : W24) (d : Dev) : Dev :=
  let was := fld d F.HOUSE_TAMPER_CAUSE 0
  let d := regWrite d w.toNat A.HOUSE_TAMPER v
  if was ≠ 0 && fld d F.HOUSE_TAMPER_CAUSE 0 = 0 then setf d F.HOUSE_TAMPER_COUNT 0 0 else d

/-! ## Commands -/

/-- POWER_GOOD (R418, R419). -/
def execPowerGood (addr : BitVec 3) (s : State) : Host.Outcome State Fault Refusal := .next (powerGood s addr)

/-- POWER_LOSS (R418). -/
def execPowerLoss (s : State) : Host.Outcome State Fault Refusal := .next (powerLoss s)

/-- MEM_TEST_DONE (R397): at bring-up the boot image follows, in HUSH depth 3 the entry ends. STU's own failure is met
before those of the stalls, which it can then not stand in for (R178). -/
def execMemTestDone (fails : List (BitVec 6 × BitVec 17)) (s : State) : Host.Outcome State Fault Refusal :=
  .next (s.onDev fun d =>
    if d.house.boot = 1 || d.house.trans = 3 then
      let l := fails.map fun e => (e.1.toNat, e.2.toNat)
      let stu := l.filter (· = (63, 128))
      let d := (stu ++ l.filter (· ≠ (63, 128))).foldl memFails (if d.house.boot = 1 then memClear d else d)
      if d.house.boot = 1 then updHouse d fun h => { h with boot := 2 } else houseDone (pcTest d false) 1 3
    else d)

/-- BOOT_IMAGE_CHECKED (R387, R388). -/
def execBootImageChecked (a b : Option (List Byte)) (s : State) : Host.Outcome State Fault Refusal :=
  .next (bootChecked s a b)

/-- RUN_CMD (R394). -/
def execRunCmd (w : BitVec 6) (pec : BitVec 2) (s : State) : Host.Outcome State Fault Refusal :=
  .next (s.command w pec [(A.HOUSE_STATE_CMD, some 0x200000)] (State.onDev fun d => stateCmd d 1))

/-- HUSH_CMD (R393). -/
def execHushCmd (w : BitVec 6) (pec : BitVec 2) (s : State) : Host.Outcome State Fault Refusal :=
  .next (s.command w pec [(A.HOUSE_STATE_CMD, some 0x400000)] (State.onDev fun d => stateCmd d 2))

/-- DARK_CMD (R396). -/
def execDarkCmd (w : BitVec 6) (pec : BitVec 2) (s : State) : Host.Outcome State Fault Refusal :=
  .next (s.command w pec [(A.HOUSE_STATE_CMD, some 0x600000)] (State.onDev fun d => stateCmd d 3))

/-- HUSH_WAKE (R394). -/
def execHushWake (s : State) : Host.Outcome State Fault Refusal := .next (s.onDev hushWake)

/-- WAKE_N (R396): a request of at least 1 ms, kept. -/
def execWakeN (s : State) : Host.Outcome State Fault Refusal :=
  .next (s.onDev fun d => if d.house.coreEn then d else updHouse d fun h => { h with wakeAsked := true })

/-- CORE_EN_RISE (R396). -/
def execCoreEnRise (s : State) : Host.Outcome State Fault Refusal :=
  .next (s.onDev fun d =>
    if !d.house.coreEn && d.house.wakeAsked then
      updHouse d fun h => { h with trans := if h.trans = 7 then 0 else h.trans, coreEn := true, wakeAsked := false }
    else d)

/-- GRANT (R394). -/
def execGrant (w : BitVec 6) (pec : BitVec 2) (v : W24) (s : State) : Host.Outcome State Fault Refusal :=
  .next (s.command w pec [(A.HOUSE_GRANT, some v)] (State.onDev (writeGrant w v)))

/-- NEXT_EVENT (R394). -/
def execNextEvent (w : BitVec 6) (pec : BitVec 2) (sec : BitVec 48) (ns : BitVec 30) (valid : Bool) (s : State) :
    Host.Outcome State Fault Refusal :=
  .next (s.command w pec (nextEventWords sec.toNat ns.toNat valid)
    (State.onDev (writeNextEvent w sec.toNat ns.toNat valid)))

/-- LC_ADVANCE (R399). -/
def execLcAdvance (w : BitVec 6) (pec : BitVec 2) (target : BitVec 3) (confirm : BitVec 16) (s : State) :
    Host.Outcome State Fault Refusal :=
  let v := w24 (target.toNat * 2 ^ 18 + confirm.toNat)
  .next (s.command w pec [(A.HOUSE_LC, some v)] fun s => lcRequest s w.toNat target.toNat confirm.toNat v)

/-- TAMPER_EVENT (R401, R402). -/
def execTamperEvent (causes : BitVec 4) (s : State) : Host.Outcome State Fault Refusal := .next (tamper s causes)

/-- TJ_ABOVE_105 (R391). -/
def execTjAbove105 (s : State) : Host.Outcome State Fault Refusal := .next (s.onDev fun d => alert d 7)

/-- FLUSH_DONE (R415). -/
def execFlushDone (s : State) : Host.Outcome State Fault Refusal := .next (flushCompletes s)

/-- A write of CUEn.CTL: the moment of a NOW submission decides its order (R216). In HUSH an entry whose wake time no longer
fits starts the wake (R394). -/
def cueSubmit (w : BitVec 6) (n : Nat) (v : W24) (d : Dev) : Dev :=
  let now := F.CUEN_CTL_VALID.of v = 1 && F.CUEN_CTL_NOW.of v = 1
  hushCheck (writeCueCtl w n v (if now then timeWithin d else d))

/-- CUE_SUBMIT (R215). -/
def execCueSubmit (w : BitVec 6) (n : Fin 64) (v : W24) (s : State) : Host.Outcome State Fault Refusal :=
  .next (s.write w (F.CUEN_CTL_VALID.addr n) v (cueSubmit w n.val v))

/-- CUE_ENTRY_CANCEL (R215, R226). -/
def execCueEntryCancel (w : BitVec 6) (n : Fin 64) (v : W24) (s : State) : Host.Outcome State Fault Refusal :=
  .next (s.write w (F.CUEN_CTL_VALID.addr n) v (cueSubmit w n.val v))

end Sys2Proof.Machine
end

