-- ==== Sys2Proof/Machine/Control.lean ====
section
/-!
DEFINITION. Control space by address (R434 to R447): what a write and a read of any register do, the prompters' STC,
every core's LDC, and REGISTER_WRITE.
-/
namespace Sys2Proof.Machine

/-! ## Writes by address -/

/-- The instance of an address in a block of stride `stride` from `base`. -/
def instOf (a base stride : Nat) : Nat := (a - base) / stride

/-- The offset of an address in its instance. -/
def offOf (a base stride : Nat) : Nat := (a - base) % stride

/-- HOUSE and the prompt book's STAT (00_0400h to 00_0FFFh). -/
def writeHouseReg (w : BitVec 6) (a : Nat) (v : W24) (d : Dev) : Dev :=
  if a = A.HOUSE_STATE_CMD then writeStateCmd w v d
  else if a = A.HOUSE_GRANT then writeGrant w v d
  else if A.HOUSE_NE_SEC_HI ≤ a && a ≤ A.HOUSE_NE_NS_LO then hushCheck (regWrite d w.toNat a v)
  else if a = A.HOUSE_TAMPER then writeTamper w v d
  else if a = A.HOUSE_PCWD || a = A.HOUSE_PCWD + 1 then writePcwd w (a - A.HOUSE_PCWD) v d
  else regWrite d w.toNat a v

/-- The ledger (00_1000h to 00_1FFFh). -/
def writeLedgReg (w : BitVec 6) (a : Nat) (v : W24) (d : Dev) : Dev :=
  if a = A.LEDG_CTRL then writeLedgCtrl w v d
  else if a = A.LEDG_TAIL then writeLedgTail w v d
  else if a = A.LEDG_CNTCLR then writeCntclr w v d
  else if a = A.LEDG_PCTRL then writePctrl w v d
  else if a = A.LEDG_SWPOST0 then writeSwpost w v d
  else regWrite d w.toNat a v

/-- The tally units (00_2000h to 00_3FFFh). -/
def writeTallyReg (w : BitVec 6) (a : Nat) (v : W24) (d : Dev) : Dev :=
  if a < 0x2800 then
    let n := instOf a 0x2000 0x20
    let o := offOf a 0x2000 0x20
    if o < 6 then writeTally w n o v d
    else if o = 6 then writeFeed w n v d
    else if o = 15 then writeTallyLost w n v d
    else regWrite d w.toNat a v
  else regWrite d w.toNat a v

/-- The clocks and TIME (00_4000h to 00_5FFFh). -/
def writeClockReg (w : BitVec 6) (a : Nat) (v : W24) (d : Dev) : Dev :=
  if a = A.MCS_CTRL then writeMcsCtrl w v d
  else if a = A.MCS_REF then writeMcsRef w v d
  else if a = A.MCS_LOOP then writeMcsLoop w v d
  else if a = A.MCS_S2CAL then writeS2cal w v d
  else if a = A.LP_CTRL then writeLpCtrl w 0 v d
  else if a = A.LP_CTRL + 8 then writeLpCtrl w 1 v d
  else if a = A.TIME_CTRL then writeTimeCtrl w v d
  else if a = A.TIME_RATE then writeTimeRate w v d
  else regWrite d w.toNat a v

/-- The ports and the host frame rings (00_8000h to 00_FFFFh). -/
def writePortReg (w : BitVec 6) (a : Nat) (v : W24) (d : Dev) : Dev :=
  if a < 0xC000 then
    let n := instOf a 0x8000 0x1000
    let o := offOf a 0x8000 0x1000
    if o = 0 then writePortCtrl w n v d
    else if o = 2 then writePreempt w n v d
    else if o = 5 then writePortStep w n v d
    else if o = 0x1F then writeCntclrPort w n v d
    else regWrite d w.toNat a v
  else if a < 0xC040 then
    let r := instOf a 0xC000 8
    let o := offOf a 0xC000 8
    if o = 1 then writeRingCfg w r v d
    else if o = 2 then writeRingTail w r v d
    else if o = 4 then writeRingDisc w r v d
    else regWrite d w.toNat a v
  else regWrite d w.toNat a v

/-- Streams, legs and direct routes (01_0000h to 01_FFFFh). -/
def writeStrmReg (w : BitVec 6) (a : Nat) (v : W24) (d : Dev) : Dev :=
  if a = A.STRM_CTRL then writeStrmCtrl w v d
  else if a = A.STRM_CLR then writeStrmClr w v d
  else if a < 0x14000 then regWrite d w.toNat a v
  else if a < 0x16000 then writeStream w false (instOf a 0x14000 8) (offOf a 0x14000 8) v d
  else if a < 0x18000 then writeStream w true (instOf a 0x16000 8) (offOf a 0x16000 8) v d
  else if a < 0x1A000 then regWrite d w.toNat a v
  else if a < 0x1C000 then writeLeg w false (instOf a 0x1A000 8) a v d
  else writeLeg w true (instOf a 0x1C000 16) a v d

/-- The engines and the understudy (02_0000h to 02_7FFFh). -/
def writeEngineReg (w : BitVec 6) (a : Nat) (v : W24) (d : Dev) : Dev :=
  if a < 0x24000 then
    let n := instOf a 0x20000 0x400
    let o := offOf a 0x20000 0x400
    if o = 0 then writeEngCtrl w n v d
    else if o = 0x11 then writeOvrStat w n v d
    else if o = 0x13 then writeUndPc w n v d
    else if o = 0x14 then writeClash w n v d
    else if o = 0x15 then writeSticky w n v d
    else if o = 0x18 then writePktEcc w n v d
    else regWrite d w.toNat a v
  else if a = A.SU_CTRL then writeSuCtrl w v d
  else if a = A.SU_CMD then writeSuCmd w v d
  else if a = A.SU_MMLOG then writeMmlog w v d
  else if a = A.SU_PKT_ECC then writePktEcc w 16 v d
  else regWrite d w.toNat a v

/-- The cue unit (02_8000h to 02_8FFFh). A CUEn.CTL write can end an event wait of HUSH (R396). -/
def writeCueReg (w : BitVec 6) (a : Nat) (v : W24) (d : Dev) : Dev :=
  if a = A.CUE_CTRL then writeCueCtrl w v d
  else if a = A.CUE_LOAD then writeCueLoad w v d
  else if 0x28010 ≤ a && a < 0x28030 then writeCueSlot w (instOf a 0x28010 2) (offOf a 0x28010 2 = 1) v d
  else if 0x28100 ≤ a && a < 0x28300 && offOf a 0x28100 8 = 0 then cueSubmit w (instOf a 0x28100 8) v d
  else regWrite d w.toNat a v

/-- The Collector, curtains, ramps, dynamics and transform units (02_9000h to 03_FFFFh). -/
def writeSignalReg (w : BitVec 6) (a : Nat) (v : W24) (d : Dev) : Dev :=
  if a = A.COLL_CURT_CMD then writeCurtCmd w v d
  else if a = A.COLL_CTRL then writeCollCtrl w v d
  else if a = A.COLL_STAT then writeCollStat w v d
  else if a = A.RAMP_CTRL then writeRampCtrl w v d
  else if a = A.RAMP_STAT then writeRampStat w v d
  else if 0x2C000 ≤ a && a < 0x2C040 then
    let n := instOf a 0x2C000 16
    let o := offOf a 0x2C000 16
    if o = 0 then writeDuCtrl w n v d else if o = 1 then writeDuStat w n v d else regWrite d w.toNat a v
  else if 0x2E000 ≤ a && a < 0x2E080 then
    let u := instOf a 0x2E000 64
    let o := offOf a 0x2E000 64
    if o = 0 then writeTuCtrl w u v d
    else if o = 1 then writeTuQpush w u v d
    else if o = 3 then writeTuCnt w u v d
    else regWrite d w.toNat a v
  else if 0x30000 ≤ a && a < 0x34000 && a % 4 = 3 then writeRampGo w (instOf a 0x30000 4) v d
  else regWrite d w.toNat a v

/-- The Market controller, the Board views and the window table (04_0000h to 04_7FFFh). -/
def writeMktReg (w : BitVec 6) (a : Nat) (v : W24) (d : Dev) : Dev :=
  if a = A.MKT_UE_LOG1 then writeUeLog w v d
  else if a = A.MKT_SPARE then writeSpare w v d
  else if isWlive a then writeWlive w a v d
  else if a = A.MKT_WCLAMP then writeWclamp w v d
  else if a = A.REH_CTRL then writeRehCtrl w v d
  else if 0x41000 ≤ a && a < 0x41408 && a % 8 = 5 then writeMktsClr w (instOf a 0x41000 8) v d
  else if 0x42000 ≤ a && a < 0x43000 then writeBoardView 2 w (a - 0x42000) v d
  else if 0x43000 ≤ a && a < 0x44000 then writeBoardView 1 w (a - 0x43000) v d
  else if 0x44000 ≤ a && a < 0x48000 && a % 4 = 3 then writeHead (instOf a 0x44000 4) v d
  else regWrite d w.toNat a v

/-- Local audio and talkback (05_0000h to 05_FFFFh). -/
def writeLocalReg (w : BitVec 6) (a : Nat) (v : W24) (d : Dev) : Dev :=
  if a < 0x50100 then
    let p := instOf a 0x50000 16
    if a % 16 = 0 then writeLocCtrl w p v d else if a % 16 = 1 then writeTdmStat w p v d else regWrite d w.toNat a v
  else if a < 0x50180 then
    let p := instOf a 0x50100 16
    if a % 16 = 0 then writeLocCtrl w (16 + p) v d
    else if a % 16 = 1 then writeAesiStat w p v d
    else regWrite d w.toNat a v
  else if 0x50200 ≤ a && a < 0x50280 && a % 16 = 0 then writeLocCtrl w (26 + instOf a 0x50200 16) v d
  else if 0x50300 ≤ a && a < 0x50320 then
    let p := instOf a 0x50300 16
    if a % 16 = 0 then writeLocCtrl w (24 + p) v d
    else if a % 16 = 1 then writeMadiStat w p v d
    else regWrite d w.toNat a v
  else if 0x58000 ≤ a && a < 0x58080 then
    let t := instOf a 0x58000 64
    if a % 64 = 0 then writeTbCtrl w t v d else if a % 64 = 3 then writeTbBoard w t v d else regWrite d w.toNat a v
  else regWrite d w.toNat a v

/-- Prompters, the interrupt controller, the host and porters, and the governor (06_0000h to 07_FFFFh). -/
def writePcReg (w : BitVec 6) (a : Nat) (v : W24) (d : Dev) : Dev :=
  if a < 0x60200 then
    let n := instOf a 0x60000 0x100
    let o := offOf a 0x60000 0x100
    if o = 0 then writePcCtrl w n v d else if o = 0x11 then writeClash w (16 + n) v d else regWrite d w.toNat a v
  else if a < 0x60240 then writeIntc w (a - 0x60200) v d
  else if a = A.TWI_CTRL then writeTwiCtrl w v d
  else if a = A.HOST_STAT then writeHostStat w v d
  else if 0x68100 ≤ a && a < 0x68140 then
    let n := instOf a 0x68100 16
    let o := offOf a 0x68100 16
    if o = 1 then writePtCfg w n v d else if o = 4 then writePtFails w n v d else regWrite d w.toNat a v
  else if a = A.PWR_GOV_LIMITS then writeGovLimits w v d
  else if 0x70000 ≤ a then writeGov w a v d
  else regWrite d w.toNat a v

/-- A write of any register but those of the prompt book, the vault and HOUSE.LC. -/
def writeDev (w : BitVec 6) (a : Nat) (v : W24) (d : Dev) : Dev :=
  if a < 0x400 then regWrite d w.toNat a v
  else if a < 0x1000 then writeHouseReg w a v d
  else if a < 0x2000 then writeLedgReg w a v d
  else if a < 0x4000 then writeTallyReg w a v d
  else if a < 0x6000 then writeClockReg w a v d
  else if a < 0x8000 then regWrite d w.toNat a v
  else if a < 0x10000 then writePortReg w a v d
  else if a < 0x20000 then writeStrmReg w a v d
  else if a < 0x28000 then writeEngineReg w a v d
  else if a < 0x29000 then writeCueReg w a v d
  else if a < 0x40000 then writeSignalReg w a v d
  else if a < 0x48000 then writeMktReg w a v d
  else if a < 0x50000 then regWrite d w.toNat a v
  else if a < 0x60000 then writeLocalReg w a v d
  else if a < 0x80000 then writePcReg w a v d
  else post d 0x02 w.toNat a v.toNat

/-- PB.ADDR, PB.DATA and PB.DATA3, which BUSY holds (R404). -/
def isPb (a : Nat) : Bool := A.PB_ADDR ≤ a && a ≤ A.PB_DATA3

/-- A write by master `w` to the control-space address `a`, no earlier access of `w` being held. -/
def writeAt (w : BitVec 6) (a : Nat) (v : W24) (s : State) : State :=
  if RegMap.lookup a = none then s.onDev fun d => post d 0x02 w.toNat a v.toNat
  else if isPb a then (pbTry s w.toNat a (some v)).2
  else if a = A.HOUSE_LC then writeLc w v s
  else if a = A.VAULT_DATA then (vaultData s w.toNat (some v) 0).2
  else if a = A.VAULT_CMD then writeVaultCmd w.toNat v s
  else if a = A.VAULT_CCMD then writeCcmd w.toNat v s
  else if guarded a then writeGuarded w.toNat a v s
  else s.onDev (writeDev w a v)

/-- A write of any control-space address (R9, R10, R436 to R441). -/
def writeAny (w : BitVec 6) (a : Nat) (v : W24) (s : State) : State :=
  if inOrder s w.toNat then writeAt w a v s else holdBehind s w.toNat [(a, some v)]

/-! ## Reads by address -/

/-- A register word as its fields' types show it: RWC fields show the next copy (R10, R11). -/
def rdView (d : Dev) (a : Nat) : W24 :=
  match RegMap.lookup a with
  | none => 0
  | some r =>
    if r.rwc then
      w24 (r.fields.foldl
        (fun n f => n + bits (if f.ty == .rwc then nrd d a else rd d a).toNat f.hi f.lo * 2 ^ f.lo) 0)
    else rd d a

/-- FEAT15 as master `w` reads it (R62, R63): zero unless a core reads. -/
def feat15 (w : Nat) : W24 :=
  if w ≤ 16 then w24 (0xA00000 + w) else if w ≤ 18 then w24 (0xC00000 + w) else 0

/-- CUE.PATH_VAL (R233). A stream counts as configured where its EN is 1 (DEDUCED, notes/assumptions/59). -/
def pathVal (d : Dev) : W24 :=
  match d.cue.stage.paths.find? fun p => p.num = fld d F.CUE_PATH_SEL_PATH 0 with
  | none => 0
  | some p =>
    let rxOn := p.rx < 1024 && flag d F.RXS_CFG_EN p.rx
    let txOn := p.tx < 1024 && flag d F.TXS_CFG_EN p.tx
    let total := p.lat + (if rxOn then loOf d p.rx else 0) + (if txOn then sppAt d true p.tx + 1 else 0)
    let valid := (1024 ≤ p.rx || rxOn) && (1024 ≤ p.tx || txOn)
    w24 (b1 valid * 2 ^ 23 + 2 ^ 22 + satTo 0x3FFFFF total)

/-- COLL.CURT_STAT: the curtain of the egress channel that CURT_SEL names. -/
def curtStat (d : Dev) : W24 :=
  let c : Curtain := Tab.get {} d.egress (fld d F.COLL_CURT_SEL_CH 0)
  w24 (c.state % 4 * 2 ^ 22 + c.causes % 16 * 2 ^ 18 + c.pos % 65536)

/-- PORTn.STAT: what the pins Pn_TXFLT, Pn_MODABS and Pn_LOS show is open at each read, but that while the port is UP
neither of the last two is high, which would take the link down (R274 to R276, R303; notes/assumptions/44). -/
def portStat (d : Dev) (a : Nat) : W24 × Dev :=
  let (u, d) := freshWord d
  let v := rd d a
  let down := F.PORT_STAT_LINK.of v ≠ 2
  let v := F.PORT_STAT_TXFLT.put v (b1 (u.getLsbD 0))
  (F.PORT_STAT_LOS.put (F.PORT_STAT_MODABS.put v (b1 (down && u.getLsbD 1))) (b1 (down && u.getLsbD 2)), d)

/-- A read by master `w` of a register outside the prompt book and the guarded ones: its value, and the device after
the effect a read has (R442). -/
def readDev (w a : Nat) (d : Dev) : W24 × Dev :=
  if a = A.FEAT15 then (feat15 w, d)
  else if a = A.LEDG_ENTRY then let d := latchEntry d; (rd d a, d)
  else if a = A.STRM_MC_HI then
    ((d.mc >>> 24).truncate 24, { d with mcLatch := some (d.mc.truncate 24) })
  else if a = A.STRM_MC_LO then
    match d.mcLatch with
    | some v => (v, { d with mcLatch := none })
    | none => (d.mc.truncate 24, d)
  else if a = A.CUE_PATH_VAL then (pathVal d, d)
  else if a = A.COLL_CURT_STAT then (curtStat d, d)
  else if 0x42000 ≤ a && a < 0x43000 then (boardWord d (a - 0x42000), d)
  else if 0x43000 ≤ a && a < 0x44000 then (boardWord d (a - 0x43000), d)
  else if a = A.TB_EVT then readTbEvt d 0
  else if a = A.TB_EVT + 64 then readTbEvt d 1
  else if a = A.PC_CTRL then (F.PC_CTRL_STATUS.put (rd d a) (pcStatus d 0), d)
  else if a = A.PC_CTRL + 0x100 then (F.PC_CTRL_STATUS.put (rd d a) (pcStatus d 1), d)
  else if 0x60200 ≤ a && a < 0x60240 then (readIntc d (a - 0x60200), d)
  else if [0, 1, 2, 3].any fun n => a = F.PORT_STAT_TXFLT.addr n then portStat d a
  else (rdView d a, d)

/-- A read by master `w` of any control-space address; the caller has waited for BUSY. -/
def readAny (w a : Nat) (s : State) : W24 × State :=
  if isPb a then pbReg s w a none
  else if guarded a then readGuarded w a s
  else let (v, d) := readDev w a s.dev; (v, { s with dev := d })

/-! ## Accesses that were held -/

/-- Accesses that were held proceed, each in its turn: one that meets BUSY again, or stands behind such a one of its master,
is held again (R189, R404, R437). What such a read returns reaches no one here. -/
def reissue (s : State) (l : List (Nat × Nat × Option W24)) : State :=
  l.foldl
    (fun s (w, a, wr) => match wr with
      | some v => writeAny (BitVec.ofNat 6 w) a v s
      | none =>
        if !inOrder s w then holdBehind s w [(a, none)]
        else if isPb a then (pbTry s w a none).2
        else (readAny w a s).2) s

/-- An MRAM write completes (R404). -/
def pbWriteDone (s : State) : State :=
  let held := s.sec.pbHeld
  let s := { (s.onDev fun d => setf d F.PB_STAT_BUSY 0 0) with sec := { s.sec with pbHeld := [] } }
  (reissue s held).onDev (forAll (List.range 19) freeBusy)

/-- A LOAD or APPLY completes (R189). -/
def wliveDone (s : State) : State :=
  if wliveBusy s.dev then
    let held := s.dev.wliveHeld
    (reissue (s.onDev fun d => { wliveEffect d with wliveHeld := [] }) held).onDev (forAll (List.range 19) freeBusy)
  else s

/-- After a posting, or where tick edges have ceased: what waited behind a held Board write of its master proceeds (R22).
One of these may make the ticks cease, and then more of them proceed. -/
def boardGo (s : State) : State :=
  if halted s.dev then s
  else s.dev.boardHeld.foldl (fun s _ => reissue (s.onDev fun d => { d with boardHeld := [] }) s.dev.boardHeld) s

/-! ## LDC and STC (R82) -/

/-- An access of a core that BUSY holds: the prompt book (R404), and writes to the live port (R189). -/
def busyAt (d : Dev) (a : Nat) (write : Bool) : Bool :=
  (isPb a && flag d F.PB_STAT_BUSY 0) || (write && isWlive a && wliveBusy d)

/-- What holds an access of core `c` to the register at `a`: BUSY, or an access of the same master that is held (R437). -/
def ctlHold (s : State) (c a : Nat) (write : Bool) : Option Hold :=
  if busyAt s.dev a write || heldByPb s c || heldByWlive s c then some .busy
  else if heldByBoard s c then some .board
  else none

/-- The identity core `c`'s control accesses carry (R436): SU under takeover acts for the engine it replaces. -/
def ctlMaster (d : Dev) (c : Nat) : Nat := if c = 16 then posOf d 16 else c

/-- The word at core `h.core` would execute now, case and condition allowing, with no late data. -/
def issues (d : Dev) (h : Hdr) (w : Word) : Bool :=
  let k0 := core d h.core.val
  let k := k0.begin
  decide (k0.run = .on) && decide (k0.hold = .free) && !badFetch d h && staticCase d h w = 0
    && condHolds h.cond.toNat k.st k.preds
    && (if inKat d h.core.val then (k.loads.find? fun l => l.due ≤ k.words && !l.arrived) = none
      else k.lateFor (w.reads k) = none)

/-- The core is held, its word not executed (R22, R189, R404). -/
def holdCore (d : Dev) (c : Nat) (x : Hold) : Dev := updCore d c fun k => { k.begin with hold := x }

/-- LDC whose register read as `v` (R82, R89). -/
def wordLdc (rd xa : BitVec 5) (v : W24) : Word :=
  { regs := [xa], body := fun _ k => { effs := [.load (k.phys rd) 3 (.value v)] } }

/-- LDC: the register is read as the word executes, and its value is visible from word i + 3. -/
def runLdc (h : Hdr) (rd xa : BitVec 5) (dd : BitVec 10) (s : State) : State :=
  let w := wordLdc rd xa 0
  let c := h.core.val
  if issues s.dev h w then
    let a := (core s.dev c).begin.ea xa dd
    match ctlHold s c a false with
    | some x => s.onDev fun d => holdCore d c x
    | none =>
      let (v, s) := readAny (ctlMaster s.dev c) a s
      s.onDev (runWord (wordLdc rd xa v) h)
  else s.onDev (runWord w h)

/-- STC: the signal profile lacks it (R82, case 3 of R130). -/
def wordStc (pc : Bool) (rs xa : BitVec 5) : Word := { lacks := !pc, regs := [rs, xa], body := fun _ _ => {} }

/-- STC: the register is written as the word executes. -/
def runStc (h : Hdr) (rs xa : BitVec 5) (dd : BitVec 10) (s : State) : State :=
  let c := h.core.val
  let w := wordStc (isPc c) rs xa
  if issues s.dev h w then
    let k := (core s.dev c).begin
    let a := k.ea xa dd
    match ctlHold s c a true with
    | some x => s.onDev fun d => holdCore d c x
    | none =>
      let v := k.x rs
      if 0x42000 ≤ a && a < 0x44000 && v.toNat % 65536 ≠ 0 && !boardRoom s.dev (boardSource c) then
        s.onDev fun d => holdCore d c .board
      else boardGo (writeAny (BitVec.ofNat 6 c) a v (s.onDev (runWord w h)))
  else s.onDev (runWord w h)

/-! ## Commands -/

/-- LDC. -/
def execLdc (h : Hdr) (rd xa : BitVec 5) (d : BitVec 10) (s : State) : Host.Outcome State Fault Refusal :=
  .next (runLdc h rd xa d s)

/-- STC. -/
def execStc (h : Hdr) (rs xa : BitVec 5) (d : BitVec 10) (s : State) : Host.Outcome State Fault Refusal :=
  .next (runStc h rs xa d s)

/-- A write that reaches control space: one of the host's that leaves out a byte is dropped and counted (R382), and none
comes before its link is enabled (R443). -/
def busWrite (w : BitVec 6) (a : Nat) (v : BusWord) (s : State) : State :=
  if w = 32 && !hostOpen s.dev then s
  else if w = 32 && !v.whole then s.onDev fun d => inc d F.HOST_STAT_PARTIAL 0
  else writeAny w a v.word s

/-- REGISTER_WRITE (R436 to R441). -/
def execRegisterWrite (w : BitVec 6) (a : W24) (v : BusWord) (s : State) : Host.Outcome State Fault Refusal :=
  .next (boardGo (s.whileUp (busWrite w a.toNat v)))

/-- WLIVE_LOAD (R189). -/
def execWliveLoad (w : BitVec 6) (v : W24) (s : State) : Host.Outcome State Fault Refusal :=
  .next (s.write w A.MKT_WLIVE_CMD v (writeWlive w A.MKT_WLIVE_CMD v))

/-- WLIVE_APPLY (R189). -/
def execWliveApply (w : BitVec 6) (v : W24) (s : State) : Host.Outcome State Fault Refusal :=
  .next (s.write w A.MKT_WLIVE_CMD v (writeWlive w A.MKT_WLIVE_CMD v))

/-- WLIVE_DONE (R189). -/
def execWliveDone (s : State) : Host.Outcome State Fault Refusal := .next (boardGo (s.whileUp wliveDone))

/-- PB_DATA_ACCESS (R404). -/
def execPbDataAccess (w : BitVec 6) (wr : Option W24) (s : State) : Host.Outcome State Fault Refusal :=
  .next (s.access w [(A.PB_DATA, wr)] fun s => (pbTry s w.toNat A.PB_DATA wr).2)

/-- PB_DATA3_ACCESS (R404). -/
def execPbData3Access (w : BitVec 6) (wr : Option W24) (s : State) : Host.Outcome State Fault Refusal :=
  .next (s.access w [(A.PB_DATA3, wr)] fun s => (pbTry s w.toNat A.PB_DATA3 wr).2)

/-- PB_WRITE_DONE (R404). -/
def execPbWriteDone (s : State) : Host.Outcome State Fault Refusal := .next (boardGo (pbWriteDone s))

end Sys2Proof.Machine
end

