-- ==== Sys2Proof/Machine/Mac.lean ====
section
/-!
DEFINITION. The multiply-accumulate instructions (R114 to R117, R138 to R146).
-/
namespace Sys2Proof.Machine

/-- ST.ACCMODE is WRAP. -/
def Core.wrap (k : Core) : Bool := k.st.getLsbD 9

/-- A sum written into an accumulator (R140, R141). -/
def accEffs (i : Nat) (x : W56 × Bool) : List Eff := [.acc i x.1, .sums (guardUsed x.1) x.2]

/-- MPY: the product (R114, R138). -/
def wordMpy (ad : BitVec 2) (xs xt : BitVec 5) (f : Bool) : Word :=
  { mask := 0x7F, regs := [xs, xt]
    body := fun _ k => { effs := accEffs ad.toNat (BitVec.ofInt 56 (product (k.x xs) (k.x xt) f), false) } }

/-- MPY: the product. -/
def execMpy (h : Hdr) (ad : BitVec 2) (xs xt : BitVec 5) (f : Bool) (s : State) : Host.Outcome State Fault Refusal :=
  execWord (wordMpy ad xs xt f) h s

/-- MAC: the sum under ACCMODE (R114, R140). -/
def wordMac (ad : BitVec 2) (xs xt : BitVec 5) (f : Bool) : Word :=
  { mask := 0x7F, regs := [xs, xt]
    body := fun _ k =>
      { effs := accEffs ad.toNat (accFit k.wrap ((k.a ad).toInt + product (k.x xs) (k.x xt) f)) } }

/-- MAC: the sum under ACCMODE. -/
def execMac (h : Hdr) (ad : BitVec 2) (xs xt : BitVec 5) (f : Bool) (s : State) : Host.Outcome State Fault Refusal :=
  execWord (wordMac ad xs xt f) h s

/-- MSU: the sum under ACCMODE (R114, R140). -/
def wordMsu (ad : BitVec 2) (xs xt : BitVec 5) (f : Bool) : Word :=
  { mask := 0x7F, regs := [xs, xt]
    body := fun _ k =>
      { effs := accEffs ad.toNat (accFit k.wrap ((k.a ad).toInt - product (k.x xs) (k.x xt) f)) } }

/-- MSU: the sum under ACCMODE. -/
def execMsu (h : Hdr) (ad : BitVec 2) (xs xt : BitVec 5) (f : Bool) (s : State) : Host.Outcome State Fault Refusal :=
  execWord (wordMsu ad xs xt f) h s

/-- MACR: the sum, rounded at bit 24 (R114, R142). -/
def wordMacr (ad : BitVec 2) (xs xt : BitVec 5) (f : Bool) : Word :=
  { mask := 0x7F, regs := [xs, xt]
    body := fun _ k =>
      let x := accFit k.wrap ((k.a ad).toInt + product (k.x xs) (k.x xt) f)
      let y := accRound k.wrap x.1
      { effs := accEffs ad.toNat (y.1, x.2 || y.2) } }

/-- MACR: the sum, rounded at bit 24. -/
def execMacr (h : Hdr) (ad : BitVec 2) (xs xt : BitVec 5) (f : Bool) (s : State) : Host.Outcome State Fault Refusal :=
  execWord (wordMacr ad xs xt f) h s

/-- One half of MAC2: it subtracts with `m`. -/
def mac2Half (k : Core) (a : BitVec 2) (s t : BitVec 3) (m f : Bool) : W56 × Bool :=
  let p := product (k.x (short s)) (k.x (short t)) f
  accFit k.wrap (if m then (k.a a).toInt - p else (k.a a).toInt + p)

/-- MAC2: both halves from what stood before; the second stands where they meet (R114, R115). -/
def wordMac2 (a1 : BitVec 2) (s1 t1 : BitVec 3) (a2 : BitVec 2) (s2 t2 : BitVec 3) (m1 m2 f : Bool) : Word :=
  { mask := 1, regs := [short s1, short t1, short s2, short t2]
    body := fun _ k =>
      { effs := accEffs a1.toNat (mac2Half k a1 s1 t1 m1 f) ++ accEffs a2.toNat (mac2Half k a2 s2 t2 m2 f)
        clash := a1 = a2 } }

/-- MAC2: both halves from what stood before; the second stands where they meet. -/
def execMac2 (h : Hdr) (a1 : BitVec 2) (s1 t1 : BitVec 3) (a2 : BitVec 2) (s2 t2 : BitVec 3) (m1 m2 f : Bool) (s : State) : Host.Outcome State Fault Refusal :=
  execWord (wordMac2 a1 s1 t1 a2 s2 t2 m1 m2 f) h s

/-- CLRA: the accumulators of the mask (R114). -/
def wordClra (mask : BitVec 4) : Word :=
  { mask := 0xFFFF
    body := fun _ _ => { effs := ((List.range 4).filter fun i => mask.getLsbD i).map fun i => .acc i 0 } }

/-- CLRA: the accumulators of the mask. -/
def execClra (h : Hdr) (mask : BitVec 4) (s : State) : Host.Outcome State Fault Refusal :=
  execWord (wordClra mask) h s

/-- The rounding a RND field names (R116). -/
def rndOf (v : BitVec 2) : Rnd := if v = 0 then .conv else if v = 1 then .trunc else .halfup

/-- MOVA (R116, R145). -/
def wordMova (rd : BitVec 5) (as_ rnd : BitVec 2) (ns : Bool) : Word :=
  { bad := rnd = 3, mask := 0x3FF
    body := fun _ k => let r := accStore (rndOf rnd) ns (k.a as_); writes k rd r.1 { zn r.1 with v := some r.2 } }

/-- MOVA. -/
def execMova (h : Hdr) (rd : BitVec 5) (as_ rnd : BitVec 2) (ns : Bool) (s : State) : Host.Outcome State Fault Refusal :=
  execWord (wordMova rd as_ rnd ns) h s

/-- EXP (R117). -/
def wordExp (rd : BitVec 5) (as_ : BitVec 2) : Word :=
  { mask := 0x1FFF, body := fun _ k => writes k rd (w24 (signRun (k.a as_))) {} }

/-- EXP. -/
def execExp (h : Hdr) (rd : BitVec 5) (as_ : BitVec 2) (s : State) : Host.Outcome State Fault Refusal :=
  execWord (wordExp rd as_) h s

/-- NORM (R117). -/
def wordNorm (ad : BitVec 2) (rd : BitVec 5) : Word :=
  { mask := 0x1FFF
    body := fun _ k =>
      let r := normalise (k.a ad)
      { effs := [.acc ad.toNat r.1, .reg (k.phys rd) (w24i r.2)] } }

/-- NORM. -/
def execNorm (h : Hdr) (ad : BitVec 2) (rd : BitVec 5) (s : State) : Host.Outcome State Fault Refusal :=
  execWord (wordNorm ad rd) h s

/-- SCLA (R117, R146). -/
def wordScla (ad : BitVec 2) (right : Bool) : Word :=
  { mask := 0x1FFFF
    body := fun _ k =>
      let r := scale k.wrap right (k.a ad) k.be.toNat
      { effs := [.acc ad.toNat r.1, .sums false r.2] } }

/-- SCLA. -/
def execScla (h : Hdr) (ad : BitVec 2) (right : Bool) (s : State) : Host.Outcome State Fault Refusal :=
  execWord (wordScla ad right) h s

/-- BXD: the least exponent so far, or the first (R117). -/
def wordBxd (as_ : BitVec 2) (start : Bool) : Word :=
  { mask := 0x1FFFF
    body := fun _ k =>
      let e := signRun (k.a as_)
      { effs := [.be (if start then e else satTo k.be.toNat e)] } }

/-- BXD: the least exponent so far, or the first. -/
def execBxd (h : Hdr) (as_ : BitVec 2) (start : Bool) (s : State) : Host.Outcome State Fault Refusal :=
  execWord (wordBxd as_ start) h s

end Sys2Proof.Machine
end

