-- ==== Sys2Proof/Machine/Memory.lean ====
section
/-!
DEFINITION. Loads and stores (R78 to R85, R118, R119), but for the control space.
-/
namespace Sys2Proof.Machine

/-- LD from the Market or the program store (R79, R80); with the program space code the bk field is reserved (R118). -/
def wordLd (sp : BitVec 2) (rd xa : BitVec 5) (bk : BitVec 2) (disp : BitVec 8) : Word :=
  { bad := 2 ≤ sp.toNat, rsv := sp = 1 && bk ≠ 0, regs := [xa]
    body := fun _ k =>
      { effs := [.load (k.phys rd) 3
          (if sp = 0 then .mkt (k.mktAddr bk xa disp) else .prog (k.ea xa disp))] } }

/-- LD from the Market or the program store. -/
def execLd (h : Hdr) (sp : BitVec 2) (rd xa : BitVec 5) (bk : BitVec 2) (disp : BitVec 8) (s : State) : Host.Outcome State Fault Refusal :=
  execWord (wordLd sp rd xa bk disp) h s

/-- ST to the Market; a store to program space does not execute (R79, R80). -/
def wordSt (sp : BitVec 2) (rs xa : BitVec 5) (bk : BitVec 2) (disp : BitVec 8) : Word :=
  { bad := 2 ≤ sp.toNat, regs := [rs, xa]
    body := fun _ k =>
      { effs := if sp = 0 then [.store (k.mktAddr bk xa disp) (k.x rs)] else [], ign := sp ≠ 0 } }

/-- ST to the Market; a store to program space does not execute. -/
def execSt (h : Hdr) (sp : BitVec 2) (rs xa : BitVec 5) (bk : BitVec 2) (disp : BitVec 8) (s : State) : Host.Outcome State Fault Refusal :=
  execWord (wordSt sp rs xa bk disp) h s

/-- LDP from the pocket or local data memory (R80). -/
def wordLdp (c : Nat) (rd xa : BitVec 5) (disp : BitVec 10) : Word :=
  { regs := [xa]
    body := fun _ k => { effs := [.load (k.phys rd) 2 (.pocket (pocketAddr c (k.ea xa disp)))] } }

/-- LDP from the pocket or local data memory. -/
def execLdp (h : Hdr) (rd xa : BitVec 5) (disp : BitVec 10) (s : State) : Host.Outcome State Fault Refusal :=
  execWord (wordLdp h.core.val rd xa disp) h s

/-- STP to the pocket or local data memory (R80). -/
def wordStp (c : Nat) (rs xa : BitVec 5) (disp : BitVec 10) : Word :=
  { regs := [rs, xa]
    body := fun _ k => { effs := [.pocketStore (pocketAddr c (k.ea xa disp)) (k.x rs)] } }

/-- STP to the pocket or local data memory. -/
def execStp (h : Hdr) (rs xa : BitVec 5) (disp : BitVec 10) (s : State) : Host.Outcome State Fault Refusal :=
  execWord (wordStp h.core.val rs xa disp) h s

/-- The operand bits of layout MP, for TCAUSE (R103, R110). -/
def opdMp (r xa : BitVec 5) (disp : BitVec 10) : Nat := r.toNat * 2 ^ 15 + xa.toNat * 2 ^ 10 + disp.toNat

/-- The Market address of a byte of the Glenex byte space (R85). -/
def byteAddr (d : Dev) (c n : Nat) : Nat := fld d F.PC_GLENEX_BANK (c - 17) * 65536 + n % 65536

/-- LDB from the Glenex byte space (R85). -/
def wordLdb (c : Nat) (rd xa : BitVec 5) (disp : BitVec 10) : Word :=
  { need := .glenex, opd := opdMp rd xa disp, regs := [xa]
    body := fun d k => { effs := [.load (k.phys rd) 3 (.byte (byteAddr d c (k.ea xa disp)))] } }

/-- LDB from the Glenex byte space. -/
def execLdb (h : Hdr) (rd xa : BitVec 5) (disp : BitVec 10) (s : State) : Host.Outcome State Fault Refusal :=
  execWord (wordLdb h.core.val rd xa disp) h s

/-- STB to the Glenex byte space (R85). -/
def wordStb (c : Nat) (rs xa : BitVec 5) (disp : BitVec 10) : Word :=
  { need := .glenex, opd := opdMp rs xa disp, regs := [rs, xa]
    body := fun d k => { effs := [.store (byteAddr d c (k.ea xa disp)) (k.x rs &&& 0xFF)] } }

/-- STB to the Glenex byte space. -/
def execStb (h : Hdr) (rs xa : BitVec 5) (disp : BitVec 10) (s : State) : Host.Outcome State Fault Refusal :=
  execWord (wordStb h.core.val rs xa disp) h s

/-- LDW through a window (R81). -/
def wordLdw (rd : BitVec 5) (w : WinRef) : Word :=
  { regs := w.regs
    body := fun d k => { effs := [.load (k.phys rd) 3 (.mkt (winAddr d (w.num k) (w.off k)))] } }

/-- LDW through a window. -/
def execLdw (h : Hdr) (rd : BitVec 5) (w : WinRef) (s : State) : Host.Outcome State Fault Refusal :=
  execWord (wordLdw rd w) h s

/-- STW through a window (R81). -/
def wordStw (rs : BitVec 5) (w : WinRef) : Word :=
  { regs := rs :: w.regs
    body := fun d k => { effs := [.store (winAddr d (w.num k) (w.off k)) (k.x rs)] } }

/-- STW through a window. -/
def execStw (h : Hdr) (rs : BitVec 5) (w : WinRef) (s : State) : Host.Outcome State Fault Refusal :=
  execWord (wordStw rs w) h s

end Sys2Proof.Machine
end

