-- ==== Sys2Proof/Machine/Duet.lean ====
section
/-!
DEFINITION. Duet words (R125 to R128).
-/
namespace Sys2Proof.Machine

/-- What a slot of a duet is: unassigned, its reserved bits set, the registers it reads, and its effects. -/
structure Slot where
  bad : Bool := false
  rsv : Bool := false
  regs : List (BitVec 5) := []
  effs : Dev → Core → List Eff := fun _ _ => []

/-- Bits `hi` to `lo` of a slot's operands as a short field. -/
def shortAt (o : BitVec 9) (lo : Nat) : BitVec 3 := o.extractLsb' lo 3

/-- Slot operation `op` with operands `o` on core `c` (R125). -/
def slotOf (c : Nat) (op : BitVec 5) (o : BitVec 9) : Slot :=
  let r6 := short (shortAt o 6)
  let r3 := short (shortAt o 3)
  let r0 := short (shortAt o 0)
  let ad : BitVec 2 := o.extractLsb' 7 2
  let xs := short (shortAt o 4)
  let xt := short (shortAt o 1)
  let low := (shortAt o 0).toNat
  match op.toNat with
  | 0 => { rsv := o ≠ 0 }
  | 1 => { rsv := o.getLsbD 0, regs := [xs, xt]
           effs := fun _ k => accEffs ad.toNat (accFit k.wrap ((k.a ad).toInt + product (k.x xs) (k.x xt) false)) }
  | 2 => { rsv := o.getLsbD 0, regs := [xs, xt]
           effs := fun _ k => accEffs ad.toNat (BitVec.ofInt 56 (product (k.x xs) (k.x xt) false), false) }
  | 3 => { regs := [r3, r0], effs := fun _ k => [.reg (k.phys r6) (k.x r3 + k.x r0)] }
  | 4 => { regs := [r3, r0], effs := fun _ k => [.reg (k.phys r6) (k.x r3 - k.x r0)] }
  | 5 => { rsv := low ≠ 0, regs := [r3], effs := fun _ k => [.reg (k.phys r6) (k.x r3)] }
  | 6 => { regs := [r3]
           effs := fun _ k => [.load (k.phys r6) 2 (.pocket (pocketAddr c ((k.x r3).toNat + low)))] }
  | 7 => { regs := [r3, r0]
           effs := fun d k =>
             [.load (k.phys r6) 3 (.mkt (winAddr d ((k.x r3).toNat % 4096) (k.x r0).toInt))] }
  | 8 => { regs := [r6, r3], effs := fun _ k => [.pocketStore (pocketAddr c ((k.x r3).toNat + low)) (k.x r6)] }
  | 9 => { effs := fun _ _ => [.bit (.localBit o.toNat) 1] }
  | 10 => { effs := fun _ _ => [.bit (.localBit o.toNat) 2] }
  | _ => { bad := true }

/-- What an effect writes, for R127: the kind and the number. -/
def effTarget (e : Eff) : Option (Nat × Nat) :=
  match e with
  | .reg p _ | .load p _ _ => some (0, p)
  | .acc i _ => some (1, i)
  | .pocketStore a _ => some (2, a)
  | .bit (.localBit a) _ => some (3, a)
  | _ => none

/-- Two slots clash (R127). -/
def slotsClash (a b : List Eff) : Bool :=
  a.any fun x => match effTarget x with | none => false | some t => b.any fun y => effTarget y = some t

/-- A duet word (R125 to R128): both slots from what stood before, slot B later. -/
def wordDuet (c : Nat) (sa : BitVec 5) (oa : BitVec 9) (sb : BitVec 5) (ob : BitVec 9) : Word :=
  let a := slotOf c sa oa
  let b := slotOf c sb ob
  { bad := a.bad || b.bad, rsv := a.rsv || b.rsv, duet := true, regs := a.regs ++ b.regs
    body := fun d k =>
      { effs := a.effs d k ++ b.effs d k, clash := slotsClash (a.effs d k) (b.effs d k) } }

/-- A duet word. -/
def execDuet (h : Hdr) (sa : BitVec 5) (oa : BitVec 9) (sb : BitVec 5) (ob : BitVec 9) (s : State) :
    Host.Outcome State Fault Refusal :=
  execWord (wordDuet h.core.val sa oa sb ob) h s

end Sys2Proof.Machine
end

