-- ==== Sys2Proof/Machine/Flow.lean ====
section
/-!
DEFINITION. Flow instructions (R72, R94 to R105, R122) and unassigned opcodes (R131).
-/
namespace Sys2Proof.Machine

/-- A program address `off` words from `pc`, modulo the program store (R122). -/
def target (c pc : Nat) (off : Int) : Nat := (((pc : Int) + off) % (storeSize c : Int)).toNat

/-- BRA (R122). -/
def wordBra (c : Nat) (off : BitVec 15) : Word :=
  { mask := 0xF8000, body := fun _ k => { flow := .jump (target c k.pc.toNat off.toInt) } }

/-- BRA. -/
def execBra (h : Hdr) (off : BitVec 15) (s : State) : Host.Outcome State Fault Refusal :=
  execWord (wordBra h.core.val off) h s

/-- CALL (R72, R122). -/
def wordCall (c : Nat) (off : BitVec 15) : Word :=
  { mask := 0xF8000, body := fun _ k => { flow := .call (target c k.pc.toNat off.toInt) } }

/-- CALL. -/
def execCall (h : Hdr) (off : BitVec 15) (s : State) : Host.Outcome State Fault Refusal :=
  execWord (wordCall h.core.val off) h s

/-- CALLR (R72, R122). -/
def wordCallr (xs : BitVec 5) : Word :=
  { mask := 0x7FFF, regs := [xs], body := fun _ k => { flow := .call (k.x xs).toNat } }

/-- CALLR. -/
def execCallr (h : Hdr) (xs : BitVec 5) (s : State) : Host.Outcome State Fault Refusal :=
  execWord (wordCallr xs) h s

/-- RET (R72, R74, R75). -/
def wordRet (c : Nat) : Word :=
  { mask := 0xFFFFF, body := fun _ k => { flow := .ret, ign := !isPc c && k.res ≤ 3 } }

/-- RET. -/
def execRet (h : Hdr) (s : State) : Host.Outcome State Fault Refusal :=
  execWord (wordRet h.core.val) h s

/-- LOOP (R94, R122). -/
def wordLoop (c : Nat) (count : BitVec 12) (e : BitVec 8) : Word :=
  { body := fun _ k =>
      let le := target c k.pc.toNat e.toInt
      { flow := .loop count.toNat le, ign := le ≤ k.pc.toNat } }

/-- LOOP. -/
def execLoop (h : Hdr) (count : BitVec 12) (e : BitVec 8) (s : State) : Host.Outcome State Fault Refusal :=
  execWord (wordLoop h.core.val count e) h s

/-- LOOPR (R94, R122). -/
def wordLoopr (c : Nat) (xc : BitVec 5) (e : BitVec 15) : Word :=
  { regs := [xc]
    body := fun _ k =>
      let le := target c k.pc.toNat e.toInt
      { flow := .loop (k.x xc).toNat le, ign := le ≤ k.pc.toNat } }

/-- LOOPR. -/
def execLoopr (h : Hdr) (xc : BitVec 5) (e : BitVec 15) (s : State) : Host.Outcome State Fault Refusal :=
  execWord (wordLoopr h.core.val xc e) h s

/-- LEAVE (R96). -/
def wordLeave : Word :=
  { mask := 0xFFFFF, body := fun _ k => { flow := .leave, ign := k.loops.isEmpty } }

/-- LEAVE. -/
def execLeave (h : Hdr) (s : State) : Host.Outcome State Fault Refusal :=
  execWord (wordLeave) h s

/-- REP (R97, R122). -/
def wordRep (n : BitVec 13) : Word :=
  { mask := 0xFE000, body := fun _ _ => { flow := .rep (satTo 4096 n.toNat), ign := 4096 < n.toNat } }

/-- REP. -/
def execRep (h : Hdr) (n : BitVec 13) (s : State) : Host.Outcome State Fault Refusal :=
  execWord (wordRep n) h s

/-- REPR (R97). -/
def wordRepr (xs : BitVec 5) : Word :=
  { mask := 0x7FFF, regs := [xs]
    body := fun _ k => { flow := .rep (satTo 4096 (k.x xs).toNat), ign := 4096 < (k.x xs).toNat } }

/-- REPR. -/
def execRepr (h : Hdr) (xs : BitVec 5) (s : State) : Host.Outcome State Fault Refusal :=
  execWord (wordRepr xs) h s

/-- END (R93, R122). -/
def wordEndProg : Word :=
  { need := .signal, mask := 0xFFFFF, body := fun _ _ => { flow := .endProg } }

/-- END. -/
def execEndProg (h : Hdr) (s : State) : Host.Outcome State Fault Refusal :=
  execWord (wordEndProg) h s

/-- TRAP (R103). -/
def wordTrap (num : BitVec 4) : Word :=
  { need := .control, mask := 0xFFFF0, body := fun _ _ => { flow := .trap num.toNat } }

/-- TRAP. -/
def execTrap (h : Hdr) (num : BitVec 4) (s : State) : Host.Outcome State Fault Refusal :=
  execWord (wordTrap num) h s

/-- RETI (R101). -/
def wordReti : Word :=
  { need := .control, mask := 0xFFFFF, body := fun _ _ => { flow := .reti } }

/-- RETI. -/
def execReti (h : Hdr) (s : State) : Host.Outcome State Fault Refusal :=
  execWord (wordReti) h s

/-- WAIT (R105). -/
def wordWait : Word :=
  { need := .control, mask := 0xFFFFF, body := fun _ _ => { flow := .wait } }

/-- WAIT. -/
def execWait (h : Hdr) (s : State) : Host.Outcome State Fault Refusal :=
  execWord (wordWait) h s

/-- An unassigned long opcode (R111, R131). -/
def wordUnassigned (opd : BitVec 20) : Word :=
  { need := .never, opd := opd.toNat, body := fun _ _ => {} }

/-- An unassigned long opcode. -/
def execUnassigned (h : Hdr) (_op : BitVec 7) (opd : BitVec 20) (s : State) : Host.Outcome State Fault Refusal :=
  execWord (wordUnassigned opd) h s

end Sys2Proof.Machine
end

