-- ==== Sys2Proof/Machine/Integer.lean ====
section
/-!
DEFINITION. Integer and logic instructions (R112, R113) and the byte forms (R86).
-/
namespace Sys2Proof.Machine

/-- NOP (R112). -/
def wordNop : Word :=
  { mask := 0xFFFFF, body := fun _ _ => {} }

/-- NOP. -/
def execNop (h : Hdr) (s : State) : Host.Outcome State Fault Refusal :=
  execWord (wordNop) h s

/-- ADD: sum or difference of two words (R112). -/
def wordAdd (rd ra : BitVec 5) (b : Src) : Word :=
  { mask := b.mask, regs := ra :: b.regs
    body := fun _ k => let r := addC 24 (k.x ra) (b.signed k) false; writes k rd r.1 (arithFlags r) }

/-- ADD: sum or difference of two words. -/
def execAdd (h : Hdr) (rd ra : BitVec 5) (b : Src) (s : State) : Host.Outcome State Fault Refusal :=
  execWord (wordAdd rd ra b) h s

/-- SUB: sum or difference of two words (R112). -/
def wordSub (rd ra : BitVec 5) (b : Src) : Word :=
  { mask := b.mask, regs := ra :: b.regs
    body := fun _ k => let r := subB 24 (k.x ra) (b.signed k) false; writes k rd r.1 (arithFlags r) }

/-- SUB: sum or difference of two words. -/
def execSub (h : Hdr) (rd ra : BitVec 5) (b : Src) (s : State) : Host.Outcome State Fault Refusal :=
  execWord (wordSub rd ra b) h s

/-- ADDC, with the carry (R112). -/
def wordAddc (rd ra rb : BitVec 5) : Word :=
  { mask := 0x1F, regs := [ra, rb]
    body := fun _ k => let r := addC 24 (k.x ra) (k.x rb) (k.st.getLsbD 2); writes k rd r.1 (arithFlags r) }

/-- ADDC, with the carry. -/
def execAddc (h : Hdr) (rd ra rb : BitVec 5) (s : State) : Host.Outcome State Fault Refusal :=
  execWord (wordAddc rd ra rb) h s

/-- SUBB, with the carry (R112). -/
def wordSubb (rd ra rb : BitVec 5) : Word :=
  { mask := 0x1F, regs := [ra, rb]
    body := fun _ k => let r := subB 24 (k.x ra) (k.x rb) (!k.st.getLsbD 2); writes k rd r.1 (arithFlags r) }

/-- SUBB, with the carry. -/
def execSubb (h : Hdr) (rd ra rb : BitVec 5) (s : State) : Host.Outcome State Fault Refusal :=
  execWord (wordSubb rd ra rb) h s

/-- AND: Z, N, and V cleared (R112). -/
def wordAnd (rd ra : BitVec 5) (b : Src) : Word :=
  { mask := b.mask, regs := ra :: b.regs
    body := fun _ k => let r := k.x ra &&& b.unsigned k; writes k rd r { zn r with v := some false } }

/-- AND: Z, N, and V cleared. -/
def execAnd (h : Hdr) (rd ra : BitVec 5) (b : Src) (s : State) : Host.Outcome State Fault Refusal :=
  execWord (wordAnd rd ra b) h s

/-- OR: Z, N, and V cleared (R112). -/
def wordOr (rd ra : BitVec 5) (b : Src) : Word :=
  { mask := b.mask, regs := ra :: b.regs
    body := fun _ k => let r := k.x ra ||| b.unsigned k; writes k rd r { zn r with v := some false } }

/-- OR: Z, N, and V cleared. -/
def execOr (h : Hdr) (rd ra : BitVec 5) (b : Src) (s : State) : Host.Outcome State Fault Refusal :=
  execWord (wordOr rd ra b) h s

/-- XOR: Z, N, and V cleared (R112). -/
def wordXor (rd ra : BitVec 5) (b : Src) : Word :=
  { mask := b.mask, regs := ra :: b.regs
    body := fun _ k => let r := k.x ra ^^^ b.unsigned k; writes k rd r { zn r with v := some false } }

/-- XOR: Z, N, and V cleared. -/
def execXor (h : Hdr) (rd ra : BitVec 5) (b : Src) (s : State) : Host.Outcome State Fault Refusal :=
  execWord (wordXor rd ra b) h s

/-- SHL (R113). -/
def wordShl (rd ra : BitVec 5) (a : Amt) : Word :=
  { mask := a.mask, regs := ra :: a.regs
    body := fun _ k => let (r, c) := shift .shl (k.x ra) (a.val k); writes k rd r { zn r with c := c } }

/-- SHL. -/
def execShl (h : Hdr) (rd ra : BitVec 5) (a : Amt) (s : State) : Host.Outcome State Fault Refusal :=
  execWord (wordShl rd ra a) h s

/-- SHR (R113). -/
def wordShr (rd ra : BitVec 5) (a : Amt) : Word :=
  { mask := a.mask, regs := ra :: a.regs
    body := fun _ k => let (r, c) := shift .shr (k.x ra) (a.val k); writes k rd r { zn r with c := c } }

/-- SHR. -/
def execShr (h : Hdr) (rd ra : BitVec 5) (a : Amt) (s : State) : Host.Outcome State Fault Refusal :=
  execWord (wordShr rd ra a) h s

/-- ASR (R113). -/
def wordAsr (rd ra : BitVec 5) (a : Amt) : Word :=
  { mask := a.mask, regs := ra :: a.regs
    body := fun _ k => let (r, c) := shift .asr (k.x ra) (a.val k); writes k rd r { zn r with c := c } }

/-- ASR. -/
def execAsr (h : Hdr) (rd ra : BitVec 5) (a : Amt) (s : State) : Host.Outcome State Fault Refusal :=
  execWord (wordAsr rd ra a) h s

/-- ROL (R113). -/
def wordRol (rd ra : BitVec 5) (a : Amt) : Word :=
  { mask := a.mask, regs := ra :: a.regs
    body := fun _ k => let (r, c) := shift .rol (k.x ra) (a.val k); writes k rd r { zn r with c := c } }

/-- ROL. -/
def execRol (h : Hdr) (rd ra : BitVec 5) (a : Amt) (s : State) : Host.Outcome State Fault Refusal :=
  execWord (wordRol rd ra a) h s

/-- MIN, signed (R112). -/
def wordMin (rd ra rb : BitVec 5) : Word :=
  { mask := 0x1F, regs := [ra, rb]
    body := fun _ k => let r := if (k.x ra).toInt ≤ (k.x rb).toInt then k.x ra else k.x rb; writes k rd r (zn r) }

/-- MIN, signed. -/
def execMin (h : Hdr) (rd ra rb : BitVec 5) (s : State) : Host.Outcome State Fault Refusal :=
  execWord (wordMin rd ra rb) h s

/-- MAX, signed (R112). -/
def wordMax (rd ra rb : BitVec 5) : Word :=
  { mask := 0x1F, regs := [ra, rb]
    body := fun _ k => let r := if (k.x ra).toInt ≤ (k.x rb).toInt then k.x rb else k.x ra; writes k rd r (zn r) }

/-- MAX, signed. -/
def execMax (h : Hdr) (rd ra rb : BitVec 5) (s : State) : Host.Outcome State Fault Refusal :=
  execWord (wordMax rd ra rb) h s

/-- CMP: the flags of a difference (R112). -/
def wordCmp (ra : BitVec 5) (b : Src) : Word :=
  { mask := 0xF8000 + b.mask, regs := ra :: b.regs
    body := fun _ k => { effs := [.flags (arithFlags (subB 24 (k.x ra) (b.signed k) false))] } }

/-- CMP: the flags of a difference. -/
def execCmp (h : Hdr) (ra : BitVec 5) (b : Src) (s : State) : Host.Outcome State Fault Refusal :=
  execWord (wordCmp ra b) h s

/-- MOV (R112). -/
def wordMov (rd ra : BitVec 5) : Word :=
  { mask := 0x3FF, regs := [ra], body := fun _ k => writes k rd (k.x ra) {} }

/-- MOV. -/
def execMov (h : Hdr) (rd ra : BitVec 5) (s : State) : Host.Outcome State Fault Refusal :=
  execWord (wordMov rd ra) h s

/-- ABS: 80_0000h stays and sets V (R112). -/
def wordAbs (rd ra : BitVec 5) : Word :=
  { mask := 0x3FF, regs := [ra]
    body := fun _ k =>
      let r := if (k.x ra).msb then -(k.x ra) else k.x ra
      writes k rd r { zn r with v := some (k.x ra = 0x800000) } }

/-- ABS: 80_0000h stays and sets V. -/
def execAbs (h : Hdr) (rd ra : BitVec 5) (s : State) : Host.Outcome State Fault Refusal :=
  execWord (wordAbs rd ra) h s

/-- NEG: 0 - ra (R112). -/
def wordNeg (rd ra : BitVec 5) : Word :=
  { mask := 0x3FF, regs := [ra]
    body := fun _ k => let r := subB 24 0 (k.x ra) false; writes k rd r.1 (arithFlags r) }

/-- NEG: 0 - ra. -/
def execNeg (h : Hdr) (rd ra : BitVec 5) (s : State) : Host.Outcome State Fault Refusal :=
  execWord (wordNeg rd ra) h s

/-- MOVI (R112). -/
def wordMovi (rd : BitVec 5) (imm : BitVec 15) : Word :=
  { body := fun _ k => writes k rd (imm.signExtend 24) {} }

/-- MOVI. -/
def execMovi (h : Hdr) (rd : BitVec 5) (imm : BitVec 15) (s : State) : Host.Outcome State Fault Refusal :=
  execWord (wordMovi rd imm) h s

/-- MOVU: bits 23 to 15 (R112). -/
def wordMovu (rd : BitVec 5) (imm : BitVec 9) : Word :=
  { mask := 0x3F, regs := [rd]
    body := fun _ k => writes k rd (w24 (imm.toNat * 2 ^ 15 + (k.x rd).toNat % 2 ^ 15)) {} }

/-- MOVU: bits 23 to 15. -/
def execMovu (h : Hdr) (rd : BitVec 5) (imm : BitVec 9) (s : State) : Host.Outcome State Fault Refusal :=
  execWord (wordMovu rd imm) h s

/-- The operand bits of a byte form, for TCAUSE (R103, R110). -/
def opdA3 (rd ra rb : BitVec 5) : Nat := rd.toNat * 2 ^ 15 + ra.toNat * 2 ^ 10 + rb.toNat * 2 ^ 5

/-- ADD.B on bytes (R86). -/
def wordAddB (rd ra rb : BitVec 5) : Word :=
  { need := .glenex, mask := 0x1F, opd := opdA3 rd ra rb, regs := [ra, rb]
    body := fun _ k =>
      let r := addC 8 (lowByte (k.x ra)) (lowByte (k.x rb)) false
      writes k rd (r.1.zeroExtend 24) (arithFlags r) }

/-- ADD.B on bytes. -/
def execAddB (h : Hdr) (rd ra rb : BitVec 5) (s : State) : Host.Outcome State Fault Refusal :=
  execWord (wordAddB rd ra rb) h s

/-- ADDC.B on bytes (R86). -/
def wordAddcB (rd ra rb : BitVec 5) : Word :=
  { need := .glenex, mask := 0x1F, opd := opdA3 rd ra rb, regs := [ra, rb]
    body := fun _ k =>
      let r := addC 8 (lowByte (k.x ra)) (lowByte (k.x rb)) (k.st.getLsbD 2)
      writes k rd (r.1.zeroExtend 24) (arithFlags r) }

/-- ADDC.B on bytes. -/
def execAddcB (h : Hdr) (rd ra rb : BitVec 5) (s : State) : Host.Outcome State Fault Refusal :=
  execWord (wordAddcB rd ra rb) h s

/-- SUB.B on bytes (R86). -/
def wordSubB (rd ra rb : BitVec 5) : Word :=
  { need := .glenex, mask := 0x1F, opd := opdA3 rd ra rb, regs := [ra, rb]
    body := fun _ k =>
      let r := subB 8 (lowByte (k.x ra)) (lowByte (k.x rb)) false
      writes k rd (r.1.zeroExtend 24) (arithFlags r) }

/-- SUB.B on bytes. -/
def execSubB (h : Hdr) (rd ra rb : BitVec 5) (s : State) : Host.Outcome State Fault Refusal :=
  execWord (wordSubB rd ra rb) h s

/-- SUBB.B on bytes (R86). -/
def wordSubbB (rd ra rb : BitVec 5) : Word :=
  { need := .glenex, mask := 0x1F, opd := opdA3 rd ra rb, regs := [ra, rb]
    body := fun _ k =>
      let r := subB 8 (lowByte (k.x ra)) (lowByte (k.x rb)) (!k.st.getLsbD 2)
      writes k rd (r.1.zeroExtend 24) (arithFlags r) }

/-- SUBB.B on bytes. -/
def execSubbB (h : Hdr) (rd ra rb : BitVec 5) (s : State) : Host.Outcome State Fault Refusal :=
  execWord (wordSubbB rd ra rb) h s

/-- CMP.B on bytes (R86). -/
def wordCmpB (ra rb : BitVec 5) : Word :=
  { need := .glenex, mask := 0xF801F, opd := opdA3 0 ra rb, regs := [ra, rb]
    body := fun _ k => { effs := [.flags (arithFlags (subB 8 (lowByte (k.x ra)) (lowByte (k.x rb)) false))] } }

/-- CMP.B on bytes. -/
def execCmpB (h : Hdr) (ra rb : BitVec 5) (s : State) : Host.Outcome State Fault Refusal :=
  execWord (wordCmpB ra rb) h s

end Sys2Proof.Machine
end

