-- ==== Sys2Proof/Machine/Tick.lean ====
section
/-!
DEFINITION. The tick edge (R31 to R33), the ingress latch (R31, R311), and the passing of time (R327, R413).
-/
namespace Sys2Proof.Machine

/-! ## Time (R327, R328) -/

/-- What a TAI second brings: the ledger's limits, source 25, and the ports' seconds (R288, R378, R413). -/
def secondPasses (d : Dev) : Dev := forAll (List.range 4) portSecond (secondMark d)

/-- `n` periods of LP0 pass. -/
def advance (d : Dev) (n : Nat) : Dev :=
  let (s, d) := timeCount d n
  let d := forAll (List.range s) (fun d _ => secondPasses d) d
  if n = 0 then d else forAll (List.range 4) portTrain d

/-- TIME counts on to the period in which its next whole second begins; the tick edge that follows counts the rest. -/
def taiSecond (d : Dev) : Dev :=
  let n := toSecond d
  let d := advance d n
  { d with time := { d.time with ahead := d.time.ahead + n } }

/-- A tick edge comes `dt` periods after the last: those not yet counted pass. -/
def tickTime (d : Dev) (dt : Nat) : Dev :=
  let ahead := d.time.ahead
  advance { d with time := { d.time with ahead := ahead - dt } } (dt - ahead)

/-! ## The egress latch (R32, R254 to R257, R325) -/

/-- The source of egress channel `c`: 0 ENGINE, 1 BUS, 2 DIRECT. A local channel is an engine's. -/
def egressKind (d : Dev) (c : Nat) : Nat := if c < 8192 then fld d F.DR_KIND c else 0

/-- The value the source of channel `c` gives. An EFRAME word that an engine stored in an overrunning tick stays in the
Market, so where R42 discards that tick's writes, a later tick that does not write the word again puts it out (DEDUCED,
notes/assumptions/49). -/
def egressLive (d : Dev) (c : Nat) : W24 × Dev :=
  match egressKind d c with
  | 0 => let (v, _, d) := mktRead d (if c < 8192 then 25 else 26) (eframe d + c); (v, d)
  | 1 =>
    let b := fld d F.DR_SRC c
    (if b < (if doubleFamily d then 256 else 512) then (bus d b).out else 0, d)
  | _ =>
    let i := fld d F.DR_SRC c
    (if i ≤ 8849 then Tab.get 0 d.ingressPub i else 0, d)

/-- The flag word that goes with channel `c`. -/
def egressFlags (d : Dev) (c : Nat) : BitVec 4 × Dev :=
  if egressKind d c = 2 then (Tab.get 0 d.ingressFl (fld d F.DR_SRC c), d)
  else let (v, _, d) := mktRead d 25 (eflag d + c); (v.truncate 4, d)

/-- The engine position whose output channel `c` is, 16 for none (notes/assumptions/16). -/
def egressOwner (d : Dev) (c : Nat) : Nat := if egressKind d c = 0 then Config.egressEngine (stageId d) c else 16

/-- The curtain time of channel `c`, from its profile. -/
def egressTime (d : Dev) (c : Nat) : Nat :=
  fld d F.COLL_CPROF_TIME (bits (rd d (A.COLL_ECPROF + c / 6)).toNat (4 * (c % 6) + 3) (4 * (c % 6)))

/-- Channel `c` stands under DIS (R134, R254, R359, R369, R395), as sampled at the last edge. -/
def egressDis (d : Dev) (c owner : Nat) : Bool :=
  d.col.dis || d.col.disS.contains owner || (match locOfEgress c with | some p => d.col.locS.contains p | none => false)

/-- Channel `c` through the egress latch: its sample, its curtain, and the device. `o` is its engine's overrun record of
the tick that ends. -/
def egressChannel (d : Dev) (c : Nat) : W24 × Curtain × Dev :=
  let cur : Curtain := Tab.get {} d.egress c
  let owner := egressOwner d c
  let mode := if owner < 16 then (ovrOf d owner).mode else 0
  let overran := owner < 16 && (ovrOf d owner).overran
  let (v, d) := egressLive d c
  let live := match mode with | 1 => cur.clean | 2 => 0 | _ => v
  let causes := b1 (Tab.get false d.col.swS c) + 2 * b1 (mode = 3) + 4 * b1 (egressDis d c owner) + 8 * b1 d.col.clkS
  let (out, m) := curtainStep cur causes live (egressTime d c) (!overran)
  let o := ovrOf d owner
  let d := if mode = 3 && !o.acted.contains (512 + c) then setOvr d owner { o with acted := o.acted ++ [512 + c] } else d
  (out, m, tally d 2 c (magnitude out))

/-- The number of egress channels. -/
def egressCount : Nat := 8852

/-- The egress latch: every channel in ascending order. -/
def egressLatch (d : Dev) : Dev :=
  let (lat, cur, d) := (List.range egressCount).foldl
    (fun (r : List (Nat × W24) × List (Nat × Curtain) × Dev) c =>
      let (lat, cur, d) := r
      if egressUsed d c then
        let (v, m, d) := egressChannel d c
        (if v = 0 then lat else (c, v) :: lat, if m = {} then cur else (c, m) :: cur, d)
      else
        let m : Curtain := Tab.get {} d.egress c
        (lat, if m = {} then cur else (c, m) :: cur, d)) ([], [], d)
  { d with latched := lat.reverse, egress := cur.reverse }

/-- The words and flags that transmit stream `s` takes at the latch. -/
def txWords (d : Dev) (s : Nat) : List (W24 × BitVec 4) × Dev :=
  let first := fld d F.TXS_PT_FIRSTCH s
  (List.range (chOf d true s)).foldl
    (fun (l, d) j =>
      let (f, d) := if fld d F.TXS_CFG_FMT s = 2 then egressFlags d (first + j) else (0, d)
      (l ++ [(Tab.get 0 d.latched (first + j), f)], d)) ([], d)

/-- Every transmit stream takes the sample of the tick with media count `mc`. -/
def txLatchAll (d : Dev) (mc : BitVec 32) : Dev :=
  forAll (strmOn d true) (fun d s => let (l, d) := txWords d s; txLatch d s mc l) d

/-! ## Causes and rates -/

/-- The local ports whose outputs stand under DIS: those that do not run, and headphones with nothing to drive. -/
def locDisabled (d : Dev) : List Nat :=
  (List.range 36).filter fun p => locStatus d p ≠ 1 || (34 ≤ p && hpDis d (p - 34))

/-- The causes of R256 are sampled. -/
def causesEdge (d : Dev) : Dev := let d := sampleCauses d; { d with col := { d.col with locS := locDisabled d } }

/-- The automatic cut-off point (R38). -/
def autoCutoff (d : Dev) : Nat :=
  match fld d F.TICK_RATE_RATE 0 with | 0 => 21176 | 1 => 19333 | 2 => 10588 | _ => 9667

/-- The cut-off point in force (R37). -/
def cutoffEff (d : Dev) : Nat :=
  let c := fld d F.TICK_CUTOFF_CUTOFF 0
  if c = 0 then autoCutoff d else if c < 1000 then 1000 else satTo (autoCutoff d) c

/-- MC as R310 sets it from TAI. -/
def mcFromTai (d : Dev) : BitVec 32 := BitVec.ofNat 32 (nowUnits d * rateHz d / secUnits)

/-- MC at the edge (R310, R395): from TAI where `set`, by the ticks slept through after a depth-3 wake, else one more. -/
def mcNext (d : Dev) (set : Bool) : BitVec 32 :=
  if set then mcFromTai d
  else if d.house.trans = 4 && d.house.depth = 3 then
    if fld d F.MCS_REF_SEL 0 = 0 && ptpValid d then mcFromTai d
    else d.mc + BitVec.ofNat 32 ((nowUnits d - d.house.stopAt) * rateHz d / secUnits)
  else d.mc + 1

/-! ## The tick edge (R31) -/

/-- What ends with the tick before the edge: the Collector's sums and the tally windows. -/
def edgeEnds (d : Dev) (dt : Nat) : Dev :=
  let d := if d.ticking then collectEdge d dt else collectRestart d
  tallyEdge (dynEdge d)

/-- Phase 1 up to the cue point: packets due, local frames, overruns, the egress latch of the tick before (the first
edge has none), the causes, and what the tick's words leave behind. -/
def edgeLatch (d : Dev) : Dev :=
  let d := txSend d
  let d := forAll (strmOn d true) txStatus d
  let d := locEdges d
  let d := forAll (List.range 16) ovrEdge d
  let mc := d.mc
  let d := if d.ticking then txLatchAll (egressLatch d) mc else d
  let d := forAll (List.range 16) ovrSettle d
  boardEdge { tuEdge (causesEdge d) with wrote := [] }

/-- The cue point (R218, R222): a cue that changes the rate sets MC from TAI (R310). `changed`: this is the first edge after
a family change (R352). -/
def edgeCue (changed : Bool) (d : Dev) : Dev :=
  let rate := rateHz d
  let (_, d) := cueEdge (if changed then cueStopped d else d)
  if rateHz d = rate then d else { d with mc := mcFromTai d }

/-- What the tick starts with: stream settings, the understudy's choice, HOUSE, every position, the cut-off point. -/
def edgeStart (d : Dev) : Dev :=
  let d := forAll (strmOn d false) rxEdge d
  let d := forAll (strmOn d true) txHold d
  let d := busEnables (strmCtrlStatus d)
  let d := suEdge (houseEdge d)
  let d := forAll (List.range 16) positionEdge d
  let d := setf d F.TICK_CUTOFF_EFF_EFF 0 (cutoffEff d)
  if flag d F.CUE_STAGE_LOADED 0 && !d.gov.started then govStart { d with gov := { d.gov with started := true } } else d

/-- A tick edge `dt` LP0 periods after the last (R31, R33). While edges are gated at HUSH depth 2 they are counted and MC
advances (R395); while none are delivered only time passes. -/
def tickEdge (d : Dev) (dt : Nat) : Dev :=
  let d := tickTime d dt
  if noEdges d then d
  else if d.house.gated then
    let (set, d) := mcsEdge d
    { d with tick := d.tick + 1, mc := mcNext d set }
  else
    let changed := !d.ticking && d.mcs.change = 4
    let d := edgeLatch (edgeEnds d dt)
    let (set, d) := mcsEdge { d with ticking := true, tick := d.tick + 1 }
    let d := edgeStart (edgeCue changed { d with mc := mcNext d set })
    if d.mcs.change = 3 || d.house.gated || halted d then ticksStop d else d

/-! ## The ingress latch (R31, R311) -/

/-- Phase 2: the Board posting, and every ingress channel published. `l` is what the local inputs hand over. -/
def ingressLatch (d : Dev) (l : List LocSample) : Dev :=
  let d := boardFreed (boardPosting d)
  if d.house.gated then d else ingressLocal (ingressNetwork d) l

/-! ## Commands -/

/-- TAI_SECOND (R413). -/
def execTaiSecond (s : State) : Host.Outcome State Fault Refusal := .next (s.act taiSecond)

end Sys2Proof.Machine
end

