-- ==== Sys2Proof/Machine/Order.lean ====
section
/-!
DEFINITION. The commands after which tick edges may have ceased, or a posting has been made: what waited behind a held
Board write proceeds then (R22, R24, R437).
-/
namespace Sys2Proof.Machine

/-- S1EN_WRITE (R341). -/
def execS1enWrite (w : BitVec 6) (v : W24) (s : State) : Host.Outcome State Fault Refusal :=
  .next (boardGo (s.write w A.MCS_CTRL v (writeMcsCtrl w v)))

/-- S2EN_WRITE (R335). -/
def execS2enWrite (w : BitVec 6) (v : W24) (s : State) : Host.Outcome State Fault Refusal :=
  .next (boardGo (s.write w A.MCS_CTRL v (writeMcsCtrl w v)))

/-- FAMILY_CHANGE (R352). -/
def execFamilyChange (w : BitVec 6) (v : W24) (s : State) : Host.Outcome State Fault Refusal :=
  .next (boardGo (s.write w A.MCS_CTRL v (writeMcsCtrl w v)))

/-- S2_UNLOCK (R336, R350). -/
def execS2Unlock (tj : BitVec 8) (s : State) : Host.Outcome State Fault Refusal :=
  .next (boardGo (s.act fun d => s2Unlock d tj.toInt))

/-- LP_LOSS (R353). -/
def execLpLoss (n : Fin 2) (absent : Bool) (s : State) : Host.Outcome State Fault Refusal :=
  .next (boardGo (s.act fun d => lpLoss d n.val absent))

/-- LP_ENABLE_WRITE (R353). -/
def execLpEnableWrite (w : BitVec 6) (n : Fin 2) (v : W24) (s : State) : Host.Outcome State Fault Refusal :=
  .next (boardGo (s.write w (F.LP_CTRL_ENABLE.addr n) v (writeLpCtrl w n.val v)))

/-- TICK_EDGE (R31). -/
def execTickEdge (dt : BitVec 16) (s : State) : Host.Outcome State Fault Refusal :=
  .next (boardGo (s.act fun d => tickEdge d dt.toNat))

/-- INGRESS_LATCH (R20, R311). -/
def execIngressLatch (loc : List LocSample) (s : State) : Host.Outcome State Fault Refusal :=
  .next (boardGo (s.act fun d => ingressLatch d loc))

/-- TU_DESCRIPTOR_END (R161); entry to HUSH may wait for it (R395). -/
def execTuDescriptorEnd (u : Fin 2) (s : State) : Host.Outcome State Fault Refusal :=
  .next (boardGo (s.act fun d => hushTus (tuEnd d u.val)))

end Sys2Proof.Machine
end

