-- ==== Sys2Proof/Machine/Pins.lean ====
section
/-!
DEFINITION. What the output pins show of a state (R276, R342, R354, R359, R361, R370, R396, R451). A pin whose block is
enabled carries what its own chapter says, `active` here where that is a wave in time.
-/
namespace Sys2Proof.Machine

/-- The output pins of R451. -/
inductive Pin where
  | txDis (n : Fin 4)
  | tdmSdo (p : Fin 16)
  | tdmBclk (p : Fin 16)
  | tdmFs (p : Fin 16)
  | aesOut (a : Fin 8)
  | mclk (n : Fin 4)
  | madiTx (m : Fin 2)
  | headphone (t : Fin 2) (right : Bool)
  | vcxoTune
  | lkf
  | qspiCs
  | alert
  | smbSda
  | portScl (n : Fin 4)
  | portSda (n : Fin 4)
  | coreEn
deriving DecidableEq, Repr

/-- What a pin shows: a level; a level of `n` of the 20-bit converter; a 1 MHz pulse train of a duty in percent; the wave of
its block; nothing, for it is released to the level the board gives it; or nothing, for it has no power. -/
inductive PinState where
  | low
  | high
  | analog (n : Nat)
  | pulses (percent : Nat)
  | active
  | released
  | unpowered
deriving DecidableEq, Repr

/-- A local output: its block's wave while STATUS is not OFF, low while it is (R359). -/
def locPin (d : Dev) (p : Nat) : PinState := if locStatus d p = 0 then .low else .active

/-- TDMp_BCLK or TDMp_FS: an output in master mode alone (R361). -/
def tdmClockPin (d : Dev) (p : Nat) : PinState := if flag d F.TDM_CTRL_MASTER p then locPin d p else .released

/-- A line of the two-wire bus of port `n`: the master's in a transaction on that port. -/
def twiPin (d : Dev) (n : Nat) : PinState :=
  if flag d F.TWI_CTRL_BUSY 0 && fld d F.TWI_CTRL_PORT 0 = n then .active else .released

/-- A pin of a device that has power. -/
def poweredPin (d : Dev) : Pin → PinState
  | .txDis n => if txDis d n then .high else .low
  | .tdmSdo p => locPin d p
  | .tdmBclk p | .tdmFs p => tdmClockPin d p
  | .aesOut a => locPin d (26 + a)
  | .mclk n => if d.mcs.mclkOn.getLsbD n then .active else .low
  | .madiTx m => locPin d (24 + m)
  | .headphone t _ => if locStatus d (34 + t) = 0 || !hpAmp d t then .low else .active
  | .vcxoTune => .analog (fld d F.MCS_DAC_WORD 0)
  | .lkf => .pulses (if flag d F.MCS_PD_WIN_WIN 0 then 75 else 25)
  | .qspiCs => if d.house.boot = 2 then .active else .high
  | .alert => if alertLow d then .low else .released
  | .smbSda => .released
  | .portScl n | .portSda n => twiPin d n
  | .coreEn => if d.house.coreEn then .high else .low

/-- What a pin shows (R451). Without power, as in DARK, only the VBAT domain's CORE_EN is driven (R396). SMB_SDA is released
but within a transaction, which a command makes whole. -/
def pinState (d : Dev) (p : Pin) : PinState :=
  if d.house.up || p = .coreEn then poweredPin d p else .unpowered

end Sys2Proof.Machine
end

