-- ==== Sys2Proof/Machine/Porter.lean ====
section
/-!
DEFINITION. The porters' descriptors (R384, R385). PORTER_DESCRIPTOR_START takes the next descriptor of a ring;
PORTER_DESCRIPTOR_END moves its bytes and returns it.
-/
namespace Sys2Proof.Machine

/-- The bytes a side of the move packs into one word: 0 for a side of bytes (R385). -/
def sidePack (space : Nat) (pk4 : Bool) : Nat := if space = 0 || space = 2 then 0 else if pk4 then 4 else 3

/-- The units of a space's addresses. The pocket space goes on past the pocket of SU with the local data memories of PC0 and
PC1, which R376 has porters reach and R385 gives no addresses (DESIGN CHOICE, notes/assumptions/35). -/
def spaceSize (space : Nat) : Nat :=
  match space with
  | 0 => 2 ^ 48
  | 1 => mktSize
  | 2 => 0x400000
  | 3 => 17 * 0x4000 + 2 * 0x10000
  | _ => 2 ^ 24

/-- The units a side of `count` bytes covers. -/
def sideLen (pack count : Nat) : Nat := if pack = 0 then count else count / pack

/-- A side of the move is well described: an assigned code, whole words, a region within its space (R385). -/
def sideOk (space pack a count : Nat) : Bool :=
  space ≤ 4 && (pack = 0 || count % pack = 0) && a + sideLen pack count ≤ spaceSize space

/-- Some BAR4 word of the destination is a stage word, or a secure prompter's program word. -/
def bar4Denied (d : Dev) (a count : Nat) : Bool :=
  (List.range 17).any (fun p => a < p * 0x20000 + 0x10000 && p * 0x20000 < a + count)
    || (List.range 2).any fun n => flag d F.PC_CTRL_SEC n && a < 0x260000 + n * 0x40000 && 0x220000 + n * 0x40000 < a + count

/-- Some control register of the destination is the vault's, or PB.DATA or PB.DATA3 at the secure section. -/
def controlDenied (d : Dev) (a n : Nat) : Bool :=
  let has (r : Nat) : Bool := a ≤ r && r < a + n
  (List.range 24).any (fun i => has (A.VAULT_ADDR + i) && (i < 6 || 16 ≤ i))
    || ((has A.PB_DATA || has A.PB_DATA3) && pbSecure (fld d F.PB_ADDR_ADDR 0))

/-- The status with which a descriptor ends before it moves anything: 3 BADDESC, 5 DENIED, 0 none (R385). A COUNT of 0
has no stated end: a free value picks OK or BADDESC (notes/assumptions/2). A descriptor refused DENIED for a stage store
moves no byte, so it makes no write that R14 would present as REG_HOLE: its status alone reports it
(notes/assumptions/55). -/
def moveCheck (d : Dev) (m : Move) : Nat × Dev :=
  let sp := sidePack m.ssp m.spk4
  let dp := sidePack m.dsp m.dpk4
  if !(sideOk m.ssp sp m.src m.count && sideOk m.dsp dp m.dst m.count) then (3, d)
  else if (m.dsp = 2 && bar4Denied d m.dst m.count) || (m.dsp = 4 && controlDenied d m.dst (sideLen dp m.count)) then (5, d)
  else if m.count = 0 then let (u, d) := freshWord d; (if u.getLsbD 0 then 3 else 0, d)
  else (0, d)

/-- The cue unit's load through porter `n` runs. -/
def loadRuns (d : Dev) (n : Nat) : Bool := match d.cue.job with | some j => j.master = 28 + n | none => false

/-- Porter `n` takes the descriptor at HEAD (R293, R384), unless its ring does not run, a descriptor is in progress, or
a load of the cue unit runs through it. -/
def porterStart (d : Dev) (n : Nat) : Dev :=
  let h := fld d F.PT_HEAD_HEAD n
  if fld d F.PT_CFG_STATUS n ≠ 1 || ptBusy d n || loadRuns d n || h = fld d F.PT_TAIL_TAIL n % ptSize d n then d
  else
    let a := ptAddr d n h
    let (l, _, d) := mktReadN d (28 + n) a 6
    let w (i : Nat) : Nat := (l.getD i 0).toNat
    if (w 0) < 2 ^ 23 then d
    else
      let m : Move :=
        { addr := a, index := h, ssp := bits (w 0) 22 20, dsp := bits (w 0) 19 17, spk4 := (w 0).testBit 16
          dpk4 := (w 0).testBit 15, irq := (w 0).testBit 14, count := w 1, src := w 2 * 2 ^ 24 + w 3
          dst := w 4 * 2 ^ 24 + w 5, status := 0 }
      let (st, d) := moveCheck d m
      { d with moves := Tab.set none d.moves n (some { m with status := st }) }

/-- A move as it runs: the machine, and how far the move has come. -/
structure MoveRun extends MoveProgress where
  s : State

/-- A word as the bytes of its side (R202, R384). -/
def unpackWord (pack : Nat) (v : W24) : List Byte := (List.range pack).map fun i => if i < 3 then byteOf v i else 0

/-- Bytes as a word of their side. -/
def packWord (b : List Byte) : W24 := w24 (leAt b 0 3)

/-- The check of a read of word `i` of BAR4: a poisoned word of program memory, or one found uncorrectable (R376). -/
def bar4Check (d : Dev) (i : Nat) : Bool × Dev :=
  match bar4At i with
  | .program n a => progCheck d (progKey n a) 0
  | _ => (false, d)

/-- The next unit of the source is read (R385). -/
def moveRead (w : Nat) (m : Move) (r : MoveRun) : MoveRun :=
  let p := sidePack m.ssp m.spk4
  let a := m.src + r.read
  match m.ssp with
  | 0 => { r with buf := r.buf ++ [r.host.headD 0], host := r.host.tail, read := r.read + 1 }
  | 1 =>
    let (v, bad, d) := mktRead r.s.dev w a
    { r with s := { r.s with dev := d }, buf := r.buf ++ unpackWord p v, read := r.read + 1, poison := r.poison || bad }
  | 2 =>
    let (bad, d) := bar4Check r.s.dev (a / 4)
    let v := if bad then 0 else bar4Read d (a / 4)
    let b : Byte := BitVec.ofNat 8 (v.toNat >>> (8 * (a % 4)))
    { r with s := { r.s with dev := d }, buf := r.buf ++ [b], read := r.read + 1, poison := r.poison || bad }
  | 3 =>
    let (v, bad, d) := if a < 17 * 0x4000 then pktRead r.s.dev (a / 0x4000) (a % 0x4000) a else pktRead r.s.dev 19 a a
    { r with s := { r.s with dev := d }, buf := r.buf ++ unpackWord p v, read := r.read + 1, poison := r.poison || bad }
  | _ =>
    let (v, s) := readAny w a r.s
    { r with s := s, buf := r.buf ++ unpackWord p v, read := r.read + 1 }

/-- The bytes the next unit of the destination takes: of BAR4, what is left of the word. -/
def moveUnit (m : Move) (r : MoveRun) : Nat :=
  let p := sidePack m.dsp m.dpk4
  if p ≠ 0 then p
  else if m.dsp = 2 then satTo (m.count - r.done) (4 - (m.dst + r.done) % 4)
  else 1

/-- The next `k` bytes are written to the destination (R385). A part of a BAR4 word is dropped and counted (R382). -/
def moveWrite (w : Nat) (m : Move) (r : MoveRun) (k : Nat) : MoveRun :=
  let b := r.buf.take k
  let p := sidePack m.dsp m.dpk4
  let a := m.dst + (if p = 0 then r.done else r.done / p)
  let s := r.s
  let s := match m.dsp with
    | 0 => s.onDev fun d => { d with hostOut := d.hostOut ++ [(a, b.headD 0)] }
    | 1 => s.onDev fun d => mktWrite d w a (packWord b)
    | 2 => s.onDev fun d =>
        if k = 4 then bar4Put d w (a / 4) (BitVec.ofNat 32 (leAt b 0 4)) else inc d F.HOST_STAT_PARTIAL 0
    | 3 => s.onDev fun d => pktWrite d a (packWord b)
    | _ => writeAny (BitVec.ofNat 6 w) a (packWord b) s
  { r with s := s, buf := r.buf.drop k, done := r.done + k }

/-- The pockets are under test, and a descriptor that reaches one waits (R190). -/
def pocketTest (d : Dev) : Bool := d.house.trans = 3 || d.house.boot = 1

/-- What the move waits for before its next unit, which it reads or writes: a held access of its own (R22, R437), the test of a
pocket (R190), and BUSY of the prompt book or the live port (R189, R404). -/
def moveWaits (w : Nat) (m : Move) (r : MoveRun) (reads : Bool) : Bool :=
  let d := r.s.dev
  let p := sidePack m.dsp m.dpk4
  !inOrder r.s w
    || (if reads then (m.ssp = 3 && pocketTest d) || (m.ssp = 4 && busyAt d (m.src + r.read) false)
        else (m.dsp = 3 && pocketTest d) || (m.dsp = 4 && busyAt d (m.dst + r.done / p) true))

/-- The move of `n` bytes, unit by unit in ascending order, as far as it goes without waiting. -/
def moveRunN (w : Nat) (m : Move) (n : Nat) : Nat → MoveRun → MoveRun
  | 0, r => r
  | fuel + 1, r =>
    let k := moveUnit m r
    let reads := decide (r.buf.length < k)
    if n < r.done + k || moveWaits w m r reads then r
    else moveRunN w m n fuel (if reads then moveRead w m r else moveWrite w m r k)

/-- The move of `n` bytes is made, and no access of it is held. -/
def moveMade (w : Nat) (m : Move) (n : Nat) (r : MoveRun) : Bool :=
  decide (n < r.done + moveUnit m r) && inOrder r.s w

/-- A descriptor is returned with its status and the bytes moved, and the ring goes on (R384, R385). -/
def moveReturn (d : Dev) (n : Nat) (m : Move) (status done : Nat) : Dev :=
  let w := 28 + n
  let d := mktWrite d w (m.addr + 6) (w24 (status * 2 ^ 21))
  let d := mktWrite d w (m.addr + 7) (w24 done)
  let (w0, _, d) := mktRead d w m.addr
  let d := mktWrite d w m.addr (w0 &&& 0x7FFFFF)
  let d := if status ≠ 1 || m.irq then raise d (8 + n) else d
  let d := setf d F.PT_HEAD_HEAD n ((m.index + 1) % ptSize d n)
  let d := if status ≠ 1 then inc d F.PT_FAILS_FAILS n else d
  ptSettle (loadBegin { d with moves := Tab.set none d.moves n none }) n

/-- The descriptor of porter `n` ends (R384, R385): `host` holds the bytes host memory gives, `hostErr` the bytes moved
when the host side failed. A move that must wait goes as far as it can and keeps its place; the command that comes
after the wait takes it up there. -/
def porterEnd (s : State) (n : Nat) (host : List Byte) (hostErr : Option Nat) : State :=
  match Tab.get none s.dev.moves n with
  | none => s
  | some m =>
    if m.status ≠ 0 then s.onDev fun d => moveReturn d n m m.status 0
    else
      let fresh : MoveProgress :=
        { buf := [], host := host, read := 0, done := 0, poison := false
          err := if m.ssp = 0 || m.dsp = 0 then hostErr else none }
      let p := m.run.getD fresh
      let bytes := satTo m.count (p.err.getD m.count)
      let r := moveRunN (28 + n) m bytes (2 * m.count + 2) { p with s := s }
      if moveMade (28 + n) m bytes r then
        r.s.onDev fun d => moveReturn d n m (if p.err.isSome then 4 else if r.poison then 2 else 1) r.done
      else r.s.onDev fun d => { d with moves := Tab.set none d.moves n (some { m with run := some r.toMoveProgress }) }

/-! ## Commands -/

/-- PORTER_DESCRIPTOR_START (R384, R385). -/
def execPorterDescriptorStart (n : Fin 4) (s : State) : Host.Outcome State Fault Refusal :=
  .next (s.act fun d => porterStart d n.val)

/-- PORTER_DESCRIPTOR_END (R384, R385). -/
def execPorterDescriptorEnd (n : Fin 4) (host : List Byte) (hostErr : Option (BitVec 24)) (s : State) :
    Host.Outcome State Fault Refusal :=
  .next (boardGo (s.whileUp fun s => porterEnd s n.val host (hostErr.map (·.toNat))))

end Sys2Proof.Machine
end

