-- ==== Sys2Proof/Machine/Signal.lean ====
section
/-!
DEFINITION. DYN, COLLECT and TUCMD (R123).
-/
namespace Sys2Proof.Machine

end Sys2Proof.Machine

namespace Sys2Proof
open Machine

/-- The channel of a DYN (R123). -/
def ChRef.num (c : ChRef) (k : Core) : Nat := match c with | .imm n => n.toNat | .reg x => (k.x x).toNat % 2048

/-- The register a DYN's channel reads. -/
def ChRef.regs (c : ChRef) : List (BitVec 5) := match c with | .imm _ => [] | .reg x => [x]

end Sys2Proof

namespace Sys2Proof.Machine

/-- The operand bits of layouts DY and DR, for TCAUSE (R103, R110). -/
def opdDyn (rd rs : BitVec 5) (c : ChRef) : Nat :=
  rd.toNat * 2 ^ 15 + rs.toNat * 2 ^ 10 + (match c with | .imm n => n.toNat % 1024 | .reg x => x.toNat * 32)

/-- DYN: the sample goes to its channel (R123, R252). -/
def wordDyn (rd rs : BitVec 5) (ch : ChRef) : Word :=
  { need := .signal, mask := (match ch with | .imm _ => 0 | .reg _ => 0x1F), opd := opdDyn rd rs ch, regs := rs :: ch.regs
    body := fun _ k => { effs := [.dyn (k.phys rd) (ch.num k) (k.x rs)] } }

/-- DYN: the sample goes to its channel. -/
def execDyn (h : Hdr) (rd rs : BitVec 5) (ch : ChRef) (s : State) : Host.Outcome State Fault Refusal :=
  execWord (wordDyn rd rs ch) h s

/-- COLLECT: a contribution to a bus (R123, R234). -/
def wordCollect (c : Nat) (as_ : BitVec 2) (idle : Bool) (bus : BitVec 9) : Word :=
  { need := .signal, mask := 0xFF, opd := as_.toNat * 2 ^ 18 + b1 idle * 2 ^ 17 + bus.toNat * 2 ^ 8
    body := fun d k =>
      { effs := [.collect { acc := k.a as_, bus := bus.toNat, active := !idle, pos := posOf d c }] } }

/-- COLLECT: a contribution to a bus. -/
def execCollect (h : Hdr) (as_ : BitVec 2) (idle : Bool) (bus : BitVec 9) (s : State) : Host.Outcome State Fault Refusal :=
  execWord (wordCollect h.core.val as_ idle bus) h s

/-- TUCMD: a transform descriptor is submitted (R123, R151). -/
def wordTucmd (unit bk : BitVec 2) (xa : BitVec 5) (disp : BitVec 8) : Word :=
  { need := .signal, bad := unit = 3, mask := 7, regs := [xa]
    opd := unit.toNat * 2 ^ 18 + bk.toNat * 2 ^ 16 + xa.toNat * 2 ^ 11 + disp.toNat * 2 ^ 3
    body := fun _ k => { effs := [.tucmd unit.toNat (k.mktAddr bk xa disp)] } }

/-- TUCMD: a transform descriptor is submitted. -/
def execTucmd (h : Hdr) (unit bk : BitVec 2) (xa : BitVec 5) (disp : BitVec 8) (s : State) : Host.Outcome State Fault Refusal :=
  execWord (wordTucmd unit bk xa disp) h s

end Sys2Proof.Machine
end

