-- ==== Sys2Proof/Machine/Smbus.lean ====
section
/-!
DEFINITION. The SMBus commands that read or clear (R389 to R391, R414). A command HOUSE does not take, for its PEC or
for want of VCORE, has no effect; a reply stands in `House.smb`, least significant byte first.
-/
namespace Sys2Proof.Machine

/-- A command that HOUSE takes has the effect `f`. -/
def smbDo (s : State) (pec : BitVec 2) (f : State → State) : State := if smbTakes s.dev pec then f s else s

/-- The reply to a read. -/
def smbReply (d : Dev) (l : List Byte) : Dev := updHouse d fun h => { h with smb := l }

/-- A read that changes nothing but the reply. -/
def smbRead (s : State) (pec : BitVec 2) (f : Dev → List Byte) : State :=
  smbDo s pec fun s => s.onDev fun d => smbReply d (f d)

/-- A register word as three bytes. -/
def regBytes (d : Dev) (a : Nat) : List Byte := wordBytes [rd d a]

/-- NEXT_EVENT as its ten bytes: seconds, then nanoseconds (R390). -/
def nextEventBytes (d : Dev) : List Byte :=
  leBytes 6 (fld d F.HOUSE_NE_SEC_HI_SEC 0 * 2 ^ 24 + fld d F.HOUSE_NE_SEC_LO_SEC 0)
    ++ leBytes 4 (fld d F.HOUSE_NE_NS_HI_NS 0 * 2 ^ 24 + fld d F.HOUSE_NE_NS_LO_NS 0)

/-- The serial number, its byte [7:0] first, and CHECK (R390, R392). -/
def serialBytes (d : Dev) : List Byte :=
  let s (i : Nat) : Nat := (rd d (A.HOUSE_SERIAL + i)).toNat
  leBytes 8 (s 0 * 2 ^ 40 + s 1 * 2 ^ 16 + s 2 / 256) ++ [BitVec.ofNat 8 (s 2)]

/-- Command 30h (R414): the entry at SMBPTR, which moves on; zeros when every entry has been read. -/
def smbEntry (d : Dev) : Dev :=
  let p := fld d F.LEDG_SMBPTR_PTR 0
  if d.led.smb = 0 then smbReply d (List.replicate 18 0)
  else
    let e : Entry := Tab.get {} d.led.ring p
    let d := setf { d with led := { d.led with smb := d.led.smb - 1 } } F.LEDG_SMBPTR_PTR 0 (ringNext p)
    smbReply d (wordBytes e.words)

/-- HOUSE answers the Alert Response Address with its own address (R389, R391) and releases ALERT_N. -/
def alertResponse (d : Dev) : Dev :=
  if d.house.up && alertLow d then
    let d := smbReply d [BitVec.ofNat 8 (2 * (0x58 + d.house.addr.toNat))]
    updHouse d fun h => { h with released := true }
  else d

/-! ## Commands -/

/-- SMB_STATE (R390). -/
def execSmbState (pec : BitVec 2) (s : State) : Host.Outcome State Fault Refusal :=
  .next (smbRead s pec fun d => leBytes 2 ((rd d A.HOUSE_STATE).toNat / 256))

/-- SMB_GRANT_READ (R390). -/
def execSmbGrantRead (pec : BitVec 2) (s : State) : Host.Outcome State Fault Refusal :=
  .next (smbRead s pec fun d => leBytes 2 ((rd d A.HOUSE_GRANT).toNat / 256))

/-- SMB_NEXT_EVENT_READ (R390). -/
def execSmbNextEventRead (pec : BitVec 2) (s : State) : Host.Outcome State Fault Refusal :=
  .next (smbRead s pec nextEventBytes)

/-- SMB_SERIAL (R390, R392). -/
def execSmbSerial (pec : BitVec 2) (s : State) : Host.Outcome State Fault Refusal := .next (smbRead s pec serialBytes)

/-- SMB_LC (R390, R398). -/
def execSmbLc (pec : BitVec 2) (s : State) : Host.Outcome State Fault Refusal :=
  .next (smbRead s pec fun d => leBytes 1 (fld d F.HOUSE_LC_STATE 0))

/-- SMB_TEMP (R390): `tj` is Tj in 1/8 °C. -/
def execSmbTemp (pec : BitVec 2) (tj : BitVec 16) (s : State) : Host.Outcome State Fault Refusal :=
  .next (smbRead s pec fun _ => leBytes 2 tj.toNat)

/-- SMB_VCORE (R390). -/
def execSmbVcore (pec : BitVec 2) (s : State) : Host.Outcome State Fault Refusal :=
  .next (smbRead s pec fun d => leBytes 2 (fld d F.PWR_GOV_STAT_VREQ 0))

/-- SMB_ALERT (R390, R391). -/
def execSmbAlert (pec : BitVec 2) (s : State) : Host.Outcome State Fault Refusal :=
  .next (smbRead s pec fun d => leBytes 2 (fld d F.HOUSE_ALERT_CAUSE 0))

/-- SMB_ALERT_CLR (R391): 1 clears a cause. -/
def execSmbAlertClr (pec : BitVec 2) (v : BitVec 16) (s : State) : Host.Outcome State Fault Refusal :=
  .next (smbDo s pec fun s => s.onDev fun d => regWrite d 63 A.HOUSE_ALERT (v.zeroExtend 24))

/-- SMB_ALERT_MASK (R391): a write, or a read. -/
def execSmbAlertMask (pec : BitVec 2) (wr : Option (BitVec 16)) (s : State) : Host.Outcome State Fault Refusal :=
  .next (match wr with
    | some v => smbDo s pec fun s => s.onDev fun d => regWrite d 63 A.HOUSE_ALERT_MASK (v.zeroExtend 24)
    | none => smbRead s pec fun d => leBytes 2 (fld d F.HOUSE_ALERT_MASK_MASK 0))

/-- SMB_LEDGER (R414). -/
def execSmbLedger (pec : BitVec 2) (s : State) : Host.Outcome State Fault Refusal :=
  .next (smbDo s pec fun s => s.onDev smbEntry)

/-- SMB_RESET_DEVICE (R390, R444). -/
def execSmbResetDevice (pec : BitVec 2) (s : State) : Host.Outcome State Fault Refusal := .next (smbDo s pec resetAgain)

/-- SMB_RESET_PC (R30, R390). -/
def execSmbResetPc (pec : BitVec 2) (n : Fin 2) (s : State) : Host.Outcome State Fault Refusal :=
  .next (smbDo s pec fun s => s.onDev fun d => pcReset d n.val)

/-- SMB_TAMPER (R390, R401). -/
def execSmbTamper (pec : BitVec 2) (s : State) : Host.Outcome State Fault Refusal :=
  .next (smbRead s pec fun d => regBytes d A.HOUSE_TAMPER ++ regBytes d A.HOUSE_TAMPER_T)

/-- SMB_ALERT_RESPONSE (R391). -/
def execSmbAlertResponse (s : State) : Host.Outcome State Fault Refusal := .next (s.onDev alertResponse)

end Sys2Proof.Machine
end

