-- ==== Sys2Proof/Machine/Special.lean ====
section
/-!
DEFINITION. MFS and MTS (R64, R65, R100, R124).
-/
namespace Sys2Proof.Machine

/-- MFS (R64, R124). -/
def wordMfs (pc : Bool) (rd : BitVec 5) (sn : BitVec 6) : Word :=
  { bad := spBad pc sn.toNat, mask := 0x1FF
    phys := fun k => if 32 ≤ sn.toNat && sn.toNat ≤ 39 then [k.fr sn.toNat] else []
    body := fun _ k => writes k rd (k.spRead sn.toNat) {} }

/-- MFS. -/
def execMfs (h : Hdr) (rd : BitVec 5) (sn : BitVec 6) (s : State) : Host.Outcome State Fault Refusal :=
  execWord (wordMfs (isPc h.core.val) rd sn) h s

/-- MTS (R65, R73, R100, R124). -/
def wordMts (pc : Bool) (rs : BitVec 5) (sn : BitVec 6) : Word :=
  { bad := spBad pc sn.toNat, mask := 0x1FF, regs := [rs]
    body := fun _ k =>
      let n := sn.toNat
      let none_ := n = 5 || n = 43 || (2 ≤ n && n ≤ 4 && k.loops.isEmpty)
      { effs := if none_ then [] else if 32 ≤ n && n ≤ 39 then [.reg (k.fr n) (k.x rs)] else [.special n (k.x rs)]
        flow := if 2 ≤ n && n ≤ 4 && !k.loops.isEmpty then .level n (k.x rs) else .seq
        ign := spRefused pc k n (k.x rs) } }

/-- MTS. -/
def execMts (h : Hdr) (rs : BitVec 5) (sn : BitVec 6) (s : State) : Host.Outcome State Fault Refusal :=
  execWord (wordMts (isPc h.core.val) rs sn) h s

end Sys2Proof.Machine
end

