-- ==== Sys2Proof/Machine/Dispatch.lean ====
section
/-!
DEFINITION. The one match over the commands: each arm calls its meaning.
-/
namespace Sys2Proof.Machine

def exec (i : Instr) (s : State) : Host.Outcome State Fault Refusal :=
  match i with
  | .nop h => Sys2Proof.Machine.execNop h s
  | .add h rd ra b => Sys2Proof.Machine.execAdd h rd ra b s
  | .addc h rd ra rb => Sys2Proof.Machine.execAddc h rd ra rb s
  | .sub h rd ra b => Sys2Proof.Machine.execSub h rd ra b s
  | .subb h rd ra rb => Sys2Proof.Machine.execSubb h rd ra rb s
  | .and h rd ra b => Sys2Proof.Machine.execAnd h rd ra b s
  | .or h rd ra b => Sys2Proof.Machine.execOr h rd ra b s
  | .xor h rd ra b => Sys2Proof.Machine.execXor h rd ra b s
  | .shl h rd ra amt => Sys2Proof.Machine.execShl h rd ra amt s
  | .shr h rd ra amt => Sys2Proof.Machine.execShr h rd ra amt s
  | .asr h rd ra amt => Sys2Proof.Machine.execAsr h rd ra amt s
  | .rol h rd ra amt => Sys2Proof.Machine.execRol h rd ra amt s
  | .min h rd ra rb => Sys2Proof.Machine.execMin h rd ra rb s
  | .max h rd ra rb => Sys2Proof.Machine.execMax h rd ra rb s
  | .cmp h ra b => Sys2Proof.Machine.execCmp h ra b s
  | .mov h rd ra => Sys2Proof.Machine.execMov h rd ra s
  | .abs h rd ra => Sys2Proof.Machine.execAbs h rd ra s
  | .neg h rd ra => Sys2Proof.Machine.execNeg h rd ra s
  | .movi h rd imm => Sys2Proof.Machine.execMovi h rd imm s
  | .movu h rd imm => Sys2Proof.Machine.execMovu h rd imm s
  | .addB h rd ra rb => Sys2Proof.Machine.execAddB h rd ra rb s
  | .addcB h rd ra rb => Sys2Proof.Machine.execAddcB h rd ra rb s
  | .subB h rd ra rb => Sys2Proof.Machine.execSubB h rd ra rb s
  | .subbB h rd ra rb => Sys2Proof.Machine.execSubbB h rd ra rb s
  | .cmpB h ra rb => Sys2Proof.Machine.execCmpB h ra rb s
  | .mpy h ad xs xt f => Sys2Proof.Machine.execMpy h ad xs xt f s
  | .mac h ad xs xt f => Sys2Proof.Machine.execMac h ad xs xt f s
  | .msu h ad xs xt f => Sys2Proof.Machine.execMsu h ad xs xt f s
  | .macr h ad xs xt f => Sys2Proof.Machine.execMacr h ad xs xt f s
  | .mac2 h a1 s1 t1 a2 s2 t2 m1 m2 f => Sys2Proof.Machine.execMac2 h a1 s1 t1 a2 s2 t2 m1 m2 f s
  | .clra h mask => Sys2Proof.Machine.execClra h mask s
  | .mova h rd as_ rnd ns => Sys2Proof.Machine.execMova h rd as_ rnd ns s
  | .exp h rd as_ => Sys2Proof.Machine.execExp h rd as_ s
  | .norm h ad rd => Sys2Proof.Machine.execNorm h ad rd s
  | .scla h ad right => Sys2Proof.Machine.execScla h ad right s
  | .bxd h as_ start => Sys2Proof.Machine.execBxd h as_ start s
  | .mfs h rd sn => Sys2Proof.Machine.execMfs h rd sn s
  | .mts h rs sn => Sys2Proof.Machine.execMts h rs sn s
  | .ld h sp rd xa bk d => Sys2Proof.Machine.execLd h sp rd xa bk d s
  | .st h sp rs xa bk d => Sys2Proof.Machine.execSt h sp rs xa bk d s
  | .ldp h rd xa d => Sys2Proof.Machine.execLdp h rd xa d s
  | .stp h rs xa d => Sys2Proof.Machine.execStp h rs xa d s
  | .ldc h rd xa d => Sys2Proof.Machine.execLdc h rd xa d s
  | .stc h rs xa d => Sys2Proof.Machine.execStc h rs xa d s
  | .ldb h rd xa d => Sys2Proof.Machine.execLdb h rd xa d s
  | .stb h rs xa d => Sys2Proof.Machine.execStb h rs xa d s
  | .ldw h rd wr => Sys2Proof.Machine.execLdw h rd wr s
  | .stw h rs wr => Sys2Proof.Machine.execStw h rs wr s
  | .bset h b => Sys2Proof.Machine.execBset h b s
  | .bclr h b => Sys2Proof.Machine.execBclr h b s
  | .btgl h b => Sys2Proof.Machine.execBtgl h b s
  | .btst h b => Sys2Proof.Machine.execBtst h b s
  | .bmov h p b => Sys2Proof.Machine.execBmov h p b s
  | .bput h p b => Sys2Proof.Machine.execBput h p b s
  | .pand h pd pa pb na nb => Sys2Proof.Machine.execPand h pd pa pb na nb s
  | .por h pd pa pb na nb => Sys2Proof.Machine.execPor h pd pa pb na nb s
  | .pxor h pd pa pb na nb => Sys2Proof.Machine.execPxor h pd pa pb na nb s
  | .dyn h rd rs ch => Sys2Proof.Machine.execDyn h rd rs ch s
  | .collect h as_ idle bus => Sys2Proof.Machine.execCollect h as_ idle bus s
  | .tucmd h unit bk xa d => Sys2Proof.Machine.execTucmd h unit bk xa d s
  | .bra h off => Sys2Proof.Machine.execBra h off s
  | .call h off => Sys2Proof.Machine.execCall h off s
  | .callr h xs => Sys2Proof.Machine.execCallr h xs s
  | .ret h => Sys2Proof.Machine.execRet h s
  | .loop h count e => Sys2Proof.Machine.execLoop h count e s
  | .loopr h xc e => Sys2Proof.Machine.execLoopr h xc e s
  | .leave h => Sys2Proof.Machine.execLeave h s
  | .rep h n => Sys2Proof.Machine.execRep h n s
  | .repr h xs => Sys2Proof.Machine.execRepr h xs s
  | .endProg h => Sys2Proof.Machine.execEndProg h s
  | .trap h num => Sys2Proof.Machine.execTrap h num s
  | .reti h => Sys2Proof.Machine.execReti h s
  | .wait h => Sys2Proof.Machine.execWait h s
  | .duet h sa oa sb ob => Sys2Proof.Machine.execDuet h sa oa sb ob s
  | .unassigned h op opd => Sys2Proof.Machine.execUnassigned h op opd s
  | .loadDataArrival c r => Sys2Proof.Machine.execLoadDataArrival c r s
  | .collectFifoRoom c => Sys2Proof.Machine.execCollectFifoRoom c s
  | .tickEdge dt => Sys2Proof.Machine.execTickEdge dt s
  | .ingressLatch loc => Sys2Proof.Machine.execIngressLatch loc s
  | .rampPhase => Sys2Proof.Machine.execRampPhase s
  | .windowHeadAdvance => Sys2Proof.Machine.execWindowHeadAdvance s
  | .engineRun => Sys2Proof.Machine.execEngineRun s
  | .cutOffPoint => Sys2Proof.Machine.execCutOffPoint s
  | .collectorDrain lane ns => Sys2Proof.Machine.execCollectorDrain lane ns s
  | .busOutputStage => Sys2Proof.Machine.execBusOutputStage s
  | .dynService u => Sys2Proof.Machine.execDynService u s
  | .suKatEnd => Sys2Proof.Machine.execSuKatEnd s
  | .suTakeoverCmd w v => Sys2Proof.Machine.execSuTakeoverCmd w v s
  | .suRelease w v => Sys2Proof.Machine.execSuRelease w v s
  | .suClrfault w v => Sys2Proof.Machine.execSuClrfault w v s
  | .suEnableWrite w v => Sys2Proof.Machine.execSuEnableWrite w v s
  | .seEnableWrite w n v => Sys2Proof.Machine.execSeEnableWrite w n v s
  | .ovrStatReopen w n v => Sys2Proof.Machine.execOvrStatReopen w n v s
  | .ovrStatClr w n v => Sys2Proof.Machine.execOvrStatClr w n v s
  | .duetClashClr w n v => Sys2Proof.Machine.execDuetClashClr w n v s
  | .undPcClr w n v => Sys2Proof.Machine.execUndPcClr w n v s
  | .stickyClr w n v => Sys2Proof.Machine.execStickyClr w n v s
  | .pktEccClr w n v => Sys2Proof.Machine.execPktEccClr w n v s
  | .mmlogClr w v => Sys2Proof.Machine.execMmlogClr w v s
  | .marketAccess m a wr flips wait => Sys2Proof.Machine.execMarketAccess m a wr flips wait s
  | .scrubWrite k => Sys2Proof.Machine.execScrubWrite k s
  | .bar2Write a be v => Sys2Proof.Machine.execBar2Write a be v s
  | .mktsClr w n v => Sys2Proof.Machine.execMktsClr w n v s
  | .ueLogClr w v => Sys2Proof.Machine.execUeLogClr w v s
  | .spareGo w v => Sys2Proof.Machine.execSpareGo w v s
  | .sparingRedirect => Sys2Proof.Machine.execSparingRedirect s
  | .rehearsalSlotStart => Sys2Proof.Machine.execRehearsalSlotStart s
  | .rehearsalCopyOutDone => Sys2Proof.Machine.execRehearsalCopyOutDone s
  | .rehearsalTestDone failed => Sys2Proof.Machine.execRehearsalTestDone failed s
  | .rehearsalCopyBackDone => Sys2Proof.Machine.execRehearsalCopyBackDone s
  | .rehEnableWrite w v => Sys2Proof.Machine.execRehEnableWrite w v s
  | .winHeadWrite w n v => Sys2Proof.Machine.execWinHeadWrite w n v s
  | .wliveLoad w v => Sys2Proof.Machine.execWliveLoad w v s
  | .wliveApply w v => Sys2Proof.Machine.execWliveApply w v s
  | .wliveDone => Sys2Proof.Machine.execWliveDone s
  | .wclampClr w v => Sys2Proof.Machine.execWclampClr w v s
  | .boardViewSet w idx v => Sys2Proof.Machine.execBoardViewSet w idx v s
  | .boardViewClr w idx v => Sys2Proof.Machine.execBoardViewClr w idx v s
  | .tuQpush w u v => Sys2Proof.Machine.execTuQpush w u v s
  | .tuDescriptorStart u => Sys2Proof.Machine.execTuDescriptorStart u s
  | .tuDescriptorEnd u => Sys2Proof.Machine.execTuDescriptorEnd u s
  | .tuEnableWrite w u v => Sys2Proof.Machine.execTuEnableWrite w u v s
  | .tuCntClr w u v => Sys2Proof.Machine.execTuCntClr w u v s
  | .vaultDataAccess w wr upset => Sys2Proof.Machine.execVaultDataAccess w wr upset s
  | .wrap w v => Sys2Proof.Machine.execWrap w v s
  | .unwrap w v => Sys2Proof.Machine.execUnwrap w v s
  | .vaultCmdDone => Sys2Proof.Machine.execVaultCmdDone s
  | .sha384 w v => Sys2Proof.Machine.execSha384 w v s
  | .gcmenc w v => Sys2Proof.Machine.execGcmenc w v s
  | .gcmdec w v => Sys2Proof.Machine.execGcmdec w v s
  | .sign w v => Sys2Proof.Machine.execSign w v s
  | .verify w v => Sys2Proof.Machine.execVerify w v s
  | .keygen w v => Sys2Proof.Machine.execKeygen w v s
  | .random w v => Sys2Proof.Machine.execRandom w v s
  | .cryptoDone => Sys2Proof.Machine.execCryptoDone s
  | .cueSubmit w n v => Sys2Proof.Machine.execCueSubmit w n v s
  | .cueEntryCancel w n v => Sys2Proof.Machine.execCueEntryCancel w n v s
  | .cueLoad w v => Sys2Proof.Machine.execCueLoad w v s
  | .cueVerify w v => Sys2Proof.Machine.execCueVerify w v s
  | .autoload => Sys2Proof.Machine.execAutoload s
  | .cueLoadDone => Sys2Proof.Machine.execCueLoadDone s
  | .cueSlotWrite w n hi v => Sys2Proof.Machine.execCueSlotWrite w n hi v s
  | .cueEnableWrite w v => Sys2Proof.Machine.execCueEnableWrite w v s
  | .wingsWrite p a v => Sys2Proof.Machine.execWingsWrite p a v s
  | .rampGo w n v => Sys2Proof.Machine.execRampGo w n v s
  | .rampEnableWrite w v => Sys2Proof.Machine.execRampEnableWrite w v s
  | .rampStatClr w v => Sys2Proof.Machine.execRampStatClr w v s
  | .collEnableWrite w v => Sys2Proof.Machine.execCollEnableWrite w v s
  | .collStatClr w v => Sys2Proof.Machine.execCollStatClr w v s
  | .curtClose w v => Sys2Proof.Machine.execCurtClose w v s
  | .curtOpen w v => Sys2Proof.Machine.execCurtOpen w v s
  | .duEnableWrite w n v => Sys2Proof.Machine.execDuEnableWrite w n v s
  | .duStatClr w n v => Sys2Proof.Machine.execDuStatClr w n v s
  | .govWindowEnd => Sys2Proof.Machine.execGovWindowEnd s
  | .avsTransactionEnd ok => Sys2Proof.Machine.execAvsTransactionEnd ok s
  | .avsRetry => Sys2Proof.Machine.execAvsRetry s
  | .govLimitsWrite w v => Sys2Proof.Machine.execGovLimitsWrite w v s
  | .watchdogKick w n v => Sys2Proof.Machine.execWatchdogKick w n v s
  | .watchdogExpiry n => Sys2Proof.Machine.execWatchdogExpiry n s
  | .linkUp n => Sys2Proof.Machine.execLinkUp n s
  | .linkDown n cause => Sys2Proof.Machine.execLinkDown n cause s
  | .portConfigWrite w n v => Sys2Proof.Machine.execPortConfigWrite w n v s
  | .portEnableWrite w n v => Sys2Proof.Machine.execPortEnableWrite w n v s
  | .frameReceive n f => Sys2Proof.Machine.execFrameReceive n f s
  | .streamPacket n bytes => Sys2Proof.Machine.execStreamPacket n bytes s
  | .pauseFrame n q => Sys2Proof.Machine.execPauseFrame n q s
  | .pauseEnd n => Sys2Proof.Machine.execPauseEnd n s
  | .pauseStorm n => Sys2Proof.Machine.execPauseStorm n s
  | .holdoffEnd n => Sys2Proof.Machine.execHoldoffEnd n s
  | .expressDiscard n => Sys2Proof.Machine.execExpressDiscard n s
  | .verifyMpacket n => Sys2Proof.Machine.execVerifyMpacket n s
  | .respondMpacket n => Sys2Proof.Machine.execRespondMpacket n s
  | .verifyTimer n => Sys2Proof.Machine.execVerifyTimer n s
  | .frameBoundary n => Sys2Proof.Machine.execFrameBoundary n s
  | .stepRequest n => Sys2Proof.Machine.execStepRequest n s
  | .stepReqFrame n bytes => Sys2Proof.Machine.execStepReqFrame n bytes s
  | .stepAckFrame n bytes => Sys2Proof.Machine.execStepAckFrame n bytes s
  | .stepNakFrame n bytes => Sys2Proof.Machine.execStepNakFrame n bytes s
  | .stepReqTimeout n => Sys2Proof.Machine.execStepReqTimeout n s
  | .stepSwitch n => Sys2Proof.Machine.execStepSwitch n s
  | .stepUpTimeout n => Sys2Proof.Machine.execStepUpTimeout n s
  | .partnerExpiry n => Sys2Proof.Machine.execPartnerExpiry n s
  | .portStepWrite w n v => Sys2Proof.Machine.execPortStepWrite w n v s
  | .portCntclr w n v => Sys2Proof.Machine.execPortCntclr w n v s
  | .ringTailWrite w r v => Sys2Proof.Machine.execRingTailWrite w r v s
  | .ringEnableWrite w r v => Sys2Proof.Machine.execRingEnableWrite w r v s
  | .ringClr w r v => Sys2Proof.Machine.execRingClr w r v s
  | .twiGo w v => Sys2Proof.Machine.execTwiGo w v s
  | .twiDone res data => Sys2Proof.Machine.execTwiDone res data s
  | .streamEnable w tx amt v => Sys2Proof.Machine.execStreamEnable w tx amt v s
  | .rxStreamDisable w amt v => Sys2Proof.Machine.execRxStreamDisable w amt v s
  | .txStreamDisable w amt v => Sys2Proof.Machine.execTxStreamDisable w amt v s
  | .strmEnableWrite w v => Sys2Proof.Machine.execStrmEnableWrite w v s
  | .strmClr w v => Sys2Proof.Machine.execStrmClr w v s
  | .liveTimeout amt legB => Sys2Proof.Machine.execLiveTimeout amt legB s
  | .mcHiRead w => Sys2Proof.Machine.execMcHiRead w s
  | .timeSnap w v => Sys2Proof.Machine.execTimeSnap w v s
  | .timeSet w v => Sys2Proof.Machine.execTimeSet w v s
  | .timeAdd w v => Sys2Proof.Machine.execTimeAdd w v s
  | .timeStepApply => Sys2Proof.Machine.execTimeStepApply s
  | .taiSecond => Sys2Proof.Machine.execTaiSecond s
  | .s1enWrite w v => Sys2Proof.Machine.execS1enWrite w v s
  | .s2enWrite w v => Sys2Proof.Machine.execS2enWrite w v s
  | .familyChange w v => Sys2Proof.Machine.execFamilyChange w v s
  | .refSelWrite w v => Sys2Proof.Machine.execRefSelWrite w v s
  | .s2calGo w v => Sys2Proof.Machine.execS2calGo w v s
  | .s2calDone vtune => Sys2Proof.Machine.execS2calDone vtune s
  | .s2LockAttempt tj => Sys2Proof.Machine.execS2LockAttempt tj s
  | .s2Locked => Sys2Proof.Machine.execS2Locked s
  | .s2Unlock tj => Sys2Proof.Machine.execS2Unlock tj s
  | .refValid => Sys2Proof.Machine.execRefValid s
  | .refQualified dac => Sys2Proof.Machine.execRefQualified dac s
  | .refInvalid => Sys2Proof.Machine.execRefInvalid s
  | .loopUpdate err dac => Sys2Proof.Machine.execLoopUpdate err dac s
  | .lockDeclared => Sys2Proof.Machine.execLockDeclared s
  | .lockLost => Sys2Proof.Machine.execLockLost s
  | .nolockTimeout win => Sys2Proof.Machine.execNolockTimeout win s
  | .mcsReturn err => Sys2Proof.Machine.execMcsReturn err s
  | .slewDone => Sys2Proof.Machine.execSlewDone s
  | .lpLockAttempt n band locks => Sys2Proof.Machine.execLpLockAttempt n band locks s
  | .lpLoss n absent => Sys2Proof.Machine.execLpLoss n absent s
  | .lpEnableWrite w n v => Sys2Proof.Machine.execLpEnableWrite w n v s
  | .slaveFrame p inGuard badLen phase samples => Sys2Proof.Machine.execSlaveFrame p inGuard badLen phase samples s
  | .inputLockChange p locked code => Sys2Proof.Machine.execInputLockChange p locked code s
  | .asrcSettled a => Sys2Proof.Machine.execAsrcSettled a s
  | .locPortEnableWrite w p v => Sys2Proof.Machine.execLocPortEnableWrite w p v s
  | .tdmStatClr w p v => Sys2Proof.Machine.execTdmStatClr w p v s
  | .aesiStatClr w a v => Sys2Proof.Machine.execAesiStatClr w a v s
  | .madiStatClr w m v => Sys2Proof.Machine.execMadiStatClr w m v s
  | .tipSwitchChange t ins ms => Sys2Proof.Machine.execTipSwitchChange t ins ms s
  | .typeMeasured t z ms => Sys2Proof.Machine.execTypeMeasured t z ms s
  | .micUnmute t => Sys2Proof.Machine.execMicUnmute t s
  | .buttonPress t ohm ms => Sys2Proof.Machine.execButtonPress t ohm ms s
  | .buttonRelease t ms => Sys2Proof.Machine.execButtonRelease t ms s
  | .buttonLong t ms => Sys2Proof.Machine.execButtonLong t ms s
  | .hpCurrentLimit t ms => Sys2Proof.Machine.execHpCurrentLimit t ms s
  | .remeasure t ms => Sys2Proof.Machine.execRemeasure t ms s
  | .tbEnableWrite w t v => Sys2Proof.Machine.execTbEnableWrite w t v s
  | .biasenWrite w t v => Sys2Proof.Machine.execBiasenWrite w t v s
  | .tbBoardBaseWrite w t v => Sys2Proof.Machine.execTbBoardBaseWrite w t v s
  | .tbEvtRead w t => Sys2Proof.Machine.execTbEvtRead w t s
  | .pcRunWrite w n v => Sys2Proof.Machine.execPcRunWrite w n v s
  | .pcResetWrite w n v => Sys2Proof.Machine.execPcResetWrite w n v s
  | .interruptEntry n => Sys2Proof.Machine.execInterruptEntry n s
  | .waitWake n => Sys2Proof.Machine.execWaitWake n s
  | .swset w amt v => Sys2Proof.Machine.execSwset w amt v s
  | .msixUnmask amt => Sys2Proof.Machine.execMsixUnmask amt s
  | .bar4Write word be v => Sys2Proof.Machine.execBar4Write word be v s
  | .hostReset => Sys2Proof.Machine.execHostReset s
  | .hostStatClr w v => Sys2Proof.Machine.execHostStatClr w v s
  | .porterDescriptorStart n => Sys2Proof.Machine.execPorterDescriptorStart n s
  | .porterDescriptorEnd n host hostErr => Sys2Proof.Machine.execPorterDescriptorEnd n host hostErr s
  | .ptClr w n v => Sys2Proof.Machine.execPtClr w n v s
  | .powerGood addr => Sys2Proof.Machine.execPowerGood addr s
  | .powerLoss => Sys2Proof.Machine.execPowerLoss s
  | .memTestDone fails => Sys2Proof.Machine.execMemTestDone fails s
  | .bootImageChecked a b => Sys2Proof.Machine.execBootImageChecked a b s
  | .runCmd w pec => Sys2Proof.Machine.execRunCmd w pec s
  | .hushCmd w pec => Sys2Proof.Machine.execHushCmd w pec s
  | .darkCmd w pec => Sys2Proof.Machine.execDarkCmd w pec s
  | .hushWake => Sys2Proof.Machine.execHushWake s
  | .wakeN => Sys2Proof.Machine.execWakeN s
  | .coreEnRise => Sys2Proof.Machine.execCoreEnRise s
  | .grant w pec v => Sys2Proof.Machine.execGrant w pec v s
  | .nextEvent w pec sec ns valid => Sys2Proof.Machine.execNextEvent w pec sec ns valid s
  | .lcAdvance w pec target confirm => Sys2Proof.Machine.execLcAdvance w pec target confirm s
  | .smbState pec => Sys2Proof.Machine.execSmbState pec s
  | .smbGrantRead pec => Sys2Proof.Machine.execSmbGrantRead pec s
  | .smbNextEventRead pec => Sys2Proof.Machine.execSmbNextEventRead pec s
  | .smbSerial pec => Sys2Proof.Machine.execSmbSerial pec s
  | .smbLc pec => Sys2Proof.Machine.execSmbLc pec s
  | .smbTemp pec tj => Sys2Proof.Machine.execSmbTemp pec tj s
  | .smbVcore pec => Sys2Proof.Machine.execSmbVcore pec s
  | .smbAlert pec => Sys2Proof.Machine.execSmbAlert pec s
  | .smbAlertClr pec v => Sys2Proof.Machine.execSmbAlertClr pec v s
  | .smbAlertMask pec wr => Sys2Proof.Machine.execSmbAlertMask pec wr s
  | .smbLedger pec => Sys2Proof.Machine.execSmbLedger pec s
  | .smbResetDevice pec => Sys2Proof.Machine.execSmbResetDevice pec s
  | .smbResetPc pec n => Sys2Proof.Machine.execSmbResetPc pec n s
  | .smbTamper pec => Sys2Proof.Machine.execSmbTamper pec s
  | .smbAlertResponse => Sys2Proof.Machine.execSmbAlertResponse s
  | .tamperEvent causes => Sys2Proof.Machine.execTamperEvent causes s
  | .pbDataAccess w wr => Sys2Proof.Machine.execPbDataAccess w wr s
  | .pbData3Access w wr => Sys2Proof.Machine.execPbData3Access w wr s
  | .pbWriteDone => Sys2Proof.Machine.execPbWriteDone s
  | .ledgerPost => Sys2Proof.Machine.execLedgerPost s
  | .ledgerStore => Sys2Proof.Machine.execLedgerStore s
  | .ledgerTailWrite w v => Sys2Proof.Machine.execLedgerTailWrite w v s
  | .ledgerClear w v => Sys2Proof.Machine.execLedgerClear w v s
  | .ledgerEntry0Read w => Sys2Proof.Machine.execLedgerEntry0Read w s
  | .ledgCntclrAll w v => Sys2Proof.Machine.execLedgCntclrAll w v s
  | .ledgStatclr w v => Sys2Proof.Machine.execLedgStatclr w v s
  | .ledgCntclrCode w v => Sys2Proof.Machine.execLedgCntclrCode w v s
  | .flush w v => Sys2Proof.Machine.execFlush w v s
  | .flushPeriod => Sys2Proof.Machine.execFlushPeriod s
  | .flushDone => Sys2Proof.Machine.execFlushDone s
  | .swpost w v => Sys2Proof.Machine.execSwpost w v s
  | .tallyWindowEnd n => Sys2Proof.Machine.execTallyWindowEnd n s
  | .tallyEnableWrite w n v => Sys2Proof.Machine.execTallyEnableWrite w n v s
  | .tallyConfigWrite w n off v => Sys2Proof.Machine.execTallyConfigWrite w n off v s
  | .feed w n v => Sys2Proof.Machine.execFeed w n v s
  | .tallyClr w n v => Sys2Proof.Machine.execTallyClr w n v s
  | .registerWrite w a v => Sys2Proof.Machine.execRegisterWrite w a v s
  | .vaultWipeDone => Sys2Proof.Machine.execVaultWipeDone s
  | .tjAbove105 => Sys2Proof.Machine.execTjAbove105 s
  | .rawButtonSign t => Sys2Proof.Machine.execRawButtonSign t s
  | .pcieLinkUp speed width => Sys2Proof.Machine.execPcieLinkUp speed width s

end Sys2Proof.Machine
end

