-- ==== Sys2Proof/Decode.lean ====
section
/-!
DEFINITION. From bits to commands. The table of operations gives no row any bits, so `decodeTableWord` reads none. The
Ikimal rows are words of 32 bits in the spec (R107 to R111, R125): `decodeWord` reads one and `encodeWord` writes it.
-/
namespace Sys2Proof

/-- The command that a word spells by the table's bits: the table of operations gives its rows no bits. -/
def decodeTableWord (_nbits _w : Nat) : Option Instr := none

/-- A long word (R107 to R111): opcode `op`, operands `opd`, read under the header `h`. An opcode without a row is
unassigned. Each row names the reserved bits of its layout (R110) and takes its fields by lowest bit and width. -/
def decodeLong (h : Hdr) (op : BitVec 7) (opd : BitVec 20) : Instr :=
  let f (lo n : Nat) : BitVec n := opd.extractLsb' lo n
  let b (i : Nat) : Bool := opd.getLsbD i
  let r (mask : BitVec 20) : Hdr := { h with rsv := opd &&& mask }
  match op with
  | 0x00 => .nop (r 0xFFFFF)
  | 0x01 => .add (r 0x1F) (f 15 5) (f 10 5) (.reg (f 5 5))
  | 0x02 => .addc (r 0x1F) (f 15 5) (f 10 5) (f 5 5)
  | 0x03 => .sub (r 0x1F) (f 15 5) (f 10 5) (.reg (f 5 5))
  | 0x04 => .subb (r 0x1F) (f 15 5) (f 10 5) (f 5 5)
  | 0x05 => .and (r 0x1F) (f 15 5) (f 10 5) (.reg (f 5 5))
  | 0x06 => .or (r 0x1F) (f 15 5) (f 10 5) (.reg (f 5 5))
  | 0x07 => .xor (r 0x1F) (f 15 5) (f 10 5) (.reg (f 5 5))
  | 0x08 => .shl (r 0x1F) (f 15 5) (f 10 5) (.reg (f 5 5))
  | 0x09 => .shr (r 0x1F) (f 15 5) (f 10 5) (.reg (f 5 5))
  | 0x0A => .asr (r 0x1F) (f 15 5) (f 10 5) (.reg (f 5 5))
  | 0x0B => .rol (r 0x1F) (f 15 5) (f 10 5) (.reg (f 5 5))
  | 0x0C => .min (r 0x1F) (f 15 5) (f 10 5) (f 5 5)
  | 0x0D => .max (r 0x1F) (f 15 5) (f 10 5) (f 5 5)
  | 0x0E => .cmp (r 0xF801F) (f 10 5) (.reg (f 5 5))
  | 0x0F => .mov (r 0x3FF) (f 15 5) (f 10 5)
  | 0x10 => .abs (r 0x3FF) (f 15 5) (f 10 5)
  | 0x11 => .neg (r 0x3FF) (f 15 5) (f 10 5)
  | 0x12 => .movi (r 0) (f 15 5) (f 0 15)
  | 0x13 => .movu (r 0x3F) (f 15 5) (f 6 9)
  | 0x14 => .add (r 0) (f 15 5) (f 10 5) (.imm (f 0 10))
  | 0x15 => .sub (r 0) (f 15 5) (f 10 5) (.imm (f 0 10))
  | 0x16 => .and (r 0) (f 15 5) (f 10 5) (.imm (f 0 10))
  | 0x17 => .or (r 0) (f 15 5) (f 10 5) (.imm (f 0 10))
  | 0x18 => .xor (r 0) (f 15 5) (f 10 5) (.imm (f 0 10))
  | 0x19 => .shl (r 0x3E0) (f 15 5) (f 10 5) (.imm (f 0 5))
  | 0x1A => .shr (r 0x3E0) (f 15 5) (f 10 5) (.imm (f 0 5))
  | 0x1B => .asr (r 0x3E0) (f 15 5) (f 10 5) (.imm (f 0 5))
  | 0x1C => .rol (r 0x3E0) (f 15 5) (f 10 5) (.imm (f 0 5))
  | 0x1D => .cmp (r 0xF8000) (f 10 5) (.imm (f 0 10))
  | 0x20 => .addB (r 0x1F) (f 15 5) (f 10 5) (f 5 5)
  | 0x21 => .addcB (r 0x1F) (f 15 5) (f 10 5) (f 5 5)
  | 0x22 => .subB (r 0x1F) (f 15 5) (f 10 5) (f 5 5)
  | 0x23 => .subbB (r 0x1F) (f 15 5) (f 10 5) (f 5 5)
  | 0x24 => .cmpB (r 0xF801F) (f 10 5) (f 5 5)
  | 0x28 => .mpy (r 0x7F) (f 18 2) (f 13 5) (f 8 5) (b 7)
  | 0x29 => .mac (r 0x7F) (f 18 2) (f 13 5) (f 8 5) (b 7)
  | 0x2A => .msu (r 0x7F) (f 18 2) (f 13 5) (f 8 5) (b 7)
  | 0x2B => .macr (r 0x7F) (f 18 2) (f 13 5) (f 8 5) (b 7)
  | 0x2C => .mac2 (r 0x1) (f 18 2) (f 15 3) (f 12 3) (f 10 2) (f 7 3) (f 4 3) (b 3) (b 2) (b 1)
  | 0x2D => .clra (r 0xFFFF) (f 16 4)
  | 0x2E => .mova (r 0x3FF) (f 15 5) (f 13 2) (f 11 2) (b 10)
  | 0x30 => .exp (r 0x1FFF) (f 15 5) (f 13 2)
  | 0x31 => .norm (r 0x1FFF) (f 18 2) (f 13 5)
  | 0x32 => .scla (r 0x1FFFF) (f 18 2) (b 17)
  | 0x33 => .bxd (r 0x1FFFF) (f 18 2) (b 17)
  | 0x38 => .mfs (r 0x1FF) (f 15 5) (f 9 6)
  | 0x39 => .mts (r 0x1FF) (f 15 5) (f 9 6)
  | 0x40 => .ld (r 0) 0 (f 15 5) (f 10 5) (f 8 2) (f 0 8)
  | 0x41 => .ld (r 0) 1 (f 15 5) (f 10 5) (f 8 2) (f 0 8)
  | 0x42 => .ld (r 0) 2 (f 15 5) (f 10 5) (f 8 2) (f 0 8)
  | 0x43 => .ld (r 0) 3 (f 15 5) (f 10 5) (f 8 2) (f 0 8)
  | 0x44 => .st (r 0) 0 (f 15 5) (f 10 5) (f 8 2) (f 0 8)
  | 0x45 => .st (r 0) 1 (f 15 5) (f 10 5) (f 8 2) (f 0 8)
  | 0x46 => .st (r 0) 2 (f 15 5) (f 10 5) (f 8 2) (f 0 8)
  | 0x47 => .st (r 0) 3 (f 15 5) (f 10 5) (f 8 2) (f 0 8)
  | 0x48 => .ldp (r 0) (f 15 5) (f 10 5) (f 0 10)
  | 0x49 => .stp (r 0) (f 15 5) (f 10 5) (f 0 10)
  | 0x4A => .ldc (r 0) (f 15 5) (f 10 5) (f 0 10)
  | 0x4B => .stc (r 0) (f 15 5) (f 10 5) (f 0 10)
  | 0x4C => .ldb (r 0) (f 15 5) (f 10 5) (f 0 10)
  | 0x4D => .stb (r 0) (f 15 5) (f 10 5) (f 0 10)
  | 0x4E => .ldw (r 0) (f 15 5) (.reg (f 10 5) (f 5 5) (f 0 5))
  | 0x4F => .stw (r 0) (f 15 5) (.reg (f 10 5) (f 5 5) (f 0 5))
  | 0x50 => .ldw (r 0) (f 15 5) (.imm (0#2 ++ f 0 10) (f 10 5))
  | 0x51 => .ldw (r 0) (f 15 5) (.imm (1#2 ++ f 0 10) (f 10 5))
  | 0x52 => .ldw (r 0) (f 15 5) (.imm (2#2 ++ f 0 10) (f 10 5))
  | 0x53 => .ldw (r 0) (f 15 5) (.imm (3#2 ++ f 0 10) (f 10 5))
  | 0x54 => .stw (r 0) (f 15 5) (.imm (0#2 ++ f 0 10) (f 10 5))
  | 0x55 => .stw (r 0) (f 15 5) (.imm (1#2 ++ f 0 10) (f 10 5))
  | 0x56 => .stw (r 0) (f 15 5) (.imm (2#2 ++ f 0 10) (f 10 5))
  | 0x57 => .stw (r 0) (f 15 5) (.imm (3#2 ++ f 0 10) (f 10 5))
  | 0x58 => .bset (r 0xE0000) (.imm (f 15 2) (f 0 15))
  | 0x59 => .bclr (r 0xE0000) (.imm (f 15 2) (f 0 15))
  | 0x5A => .btgl (r 0xE0000) (.imm (f 15 2) (f 0 15))
  | 0x5B => .btst (r 0xE0000) (.imm (f 15 2) (f 0 15))
  | 0x5C => .bmov (r 0) (f 17 3) (.imm (f 15 2) (f 0 15))
  | 0x5D => .bput (r 0) (f 17 3) (.imm (f 15 2) (f 0 15))
  | 0x60 => .bset (r 0xE0000) (.idx (f 15 2) (f 10 5) (f 0 10))
  | 0x61 => .bclr (r 0xE0000) (.idx (f 15 2) (f 10 5) (f 0 10))
  | 0x62 => .btgl (r 0xE0000) (.idx (f 15 2) (f 10 5) (f 0 10))
  | 0x63 => .btst (r 0xE0000) (.idx (f 15 2) (f 10 5) (f 0 10))
  | 0x64 => .bmov (r 0) (f 17 3) (.idx (f 15 2) (f 10 5) (f 0 10))
  | 0x65 => .bput (r 0) (f 17 3) (.idx (f 15 2) (f 10 5) (f 0 10))
  | 0x66 => .pand (r 0x1FF) (f 17 3) (f 14 3) (f 10 3) (b 13) (b 9)
  | 0x67 => .por (r 0x1FF) (f 17 3) (f 14 3) (f 10 3) (b 13) (b 9)
  | 0x68 => .pxor (r 0x1FF) (f 17 3) (f 14 3) (f 10 3) (b 13) (b 9)
  | 0x6A => .dyn (r 0) (f 15 5) (f 10 5) (.imm (0#1 ++ f 0 10))
  | 0x6B => .dyn (r 0) (f 15 5) (f 10 5) (.imm (1#1 ++ f 0 10))
  | 0x6C => .dyn (r 0x1F) (f 15 5) (f 10 5) (.reg (f 5 5))
  | 0x6D => .collect (r 0xFF) (f 18 2) (b 17) (f 8 9)
  | 0x6E => .tucmd (r 0x7) (f 18 2) (f 16 2) (f 11 5) (f 3 8)
  | 0x70 => .bra (r 0xF8000) (f 0 15)
  | 0x71 => .call (r 0xF8000) (f 0 15)
  | 0x72 => .callr (r 0x7FFF) (f 15 5)
  | 0x73 => .ret (r 0xFFFFF)
  | 0x74 => .loop (r 0) (f 8 12) (f 0 8)
  | 0x75 => .loopr (r 0) (f 15 5) (f 0 15)
  | 0x76 => .leave (r 0xFFFFF)
  | 0x77 => .rep (r 0xFE000) (f 0 13)
  | 0x78 => .repr (r 0x7FFF) (f 15 5)
  | 0x79 => .endProg (r 0xFFFFF)
  | 0x7A => .trap (r 0xFFFF0) (f 0 4)
  | 0x7B => .reti (r 0xFFFFF)
  | 0x7C => .wait (r 0xFFFFF)
  | _ => .unassigned h op opd

/-- The word `w` as an Ikimal word under the circumstances of `h` (its core, time and so on); condition and reserved
bits come from the word (R107, R108). -/
def decodeWord (h : Hdr) (w : W32) : Instr :=
  if w.getLsbD 31 then
    .duet { h with cond := 0#1 ++ w.extractLsb' 28 3, rsv := 0 } (w.extractLsb' 23 5) (w.extractLsb' 14 9)
      (w.extractLsb' 9 5) (w.extractLsb' 0 9)
  else decodeLong { h with cond := w.extractLsb' 27 4, rsv := 0 } (w.extractLsb' 20 7) (w.extractLsb' 0 20)

/-- A long word of its fields (R107); the reserved operand bits are the header's. -/
def long (h : Hdr) (op : BitVec 7) (opd : BitVec 20) : W32 := 0#1 ++ h.cond ++ op ++ (opd ||| h.rsv)

/-- The word of a command that is an Ikimal word, `none` for any other row (R107 to R111, R125). -/
def encodeWord : Instr → Option W32
  | .nop h => some (long h 0x00#7 (0#20))
  | .add h a b (.reg c) => some (long h 0x01#7 (a ++ b ++ c ++ 0#5))
  | .add h a b (.imm c) => some (long h 0x14#7 (a ++ b ++ c))
  | .addc h a b c => some (long h 0x02#7 (a ++ b ++ c ++ 0#5))
  | .sub h a b (.reg c) => some (long h 0x03#7 (a ++ b ++ c ++ 0#5))
  | .sub h a b (.imm c) => some (long h 0x15#7 (a ++ b ++ c))
  | .subb h a b c => some (long h 0x04#7 (a ++ b ++ c ++ 0#5))
  | .and h a b (.reg c) => some (long h 0x05#7 (a ++ b ++ c ++ 0#5))
  | .and h a b (.imm c) => some (long h 0x16#7 (a ++ b ++ c))
  | .or h a b (.reg c) => some (long h 0x06#7 (a ++ b ++ c ++ 0#5))
  | .or h a b (.imm c) => some (long h 0x17#7 (a ++ b ++ c))
  | .xor h a b (.reg c) => some (long h 0x07#7 (a ++ b ++ c ++ 0#5))
  | .xor h a b (.imm c) => some (long h 0x18#7 (a ++ b ++ c))
  | .shl h a b (.reg c) => some (long h 0x08#7 (a ++ b ++ c ++ 0#5))
  | .shl h a b (.imm c) => some (long h 0x19#7 (a ++ b ++ 0#5 ++ c))
  | .shr h a b (.reg c) => some (long h 0x09#7 (a ++ b ++ c ++ 0#5))
  | .shr h a b (.imm c) => some (long h 0x1A#7 (a ++ b ++ 0#5 ++ c))
  | .asr h a b (.reg c) => some (long h 0x0A#7 (a ++ b ++ c ++ 0#5))
  | .asr h a b (.imm c) => some (long h 0x1B#7 (a ++ b ++ 0#5 ++ c))
  | .rol h a b (.reg c) => some (long h 0x0B#7 (a ++ b ++ c ++ 0#5))
  | .rol h a b (.imm c) => some (long h 0x1C#7 (a ++ b ++ 0#5 ++ c))
  | .min h a b c => some (long h 0x0C#7 (a ++ b ++ c ++ 0#5))
  | .max h a b c => some (long h 0x0D#7 (a ++ b ++ c ++ 0#5))
  | .cmp h a (.reg b) => some (long h 0x0E#7 (0#5 ++ a ++ b ++ 0#5))
  | .cmp h a (.imm b) => some (long h 0x1D#7 (0#5 ++ a ++ b))
  | .mov h a b => some (long h 0x0F#7 (a ++ b ++ 0#10))
  | .abs h a b => some (long h 0x10#7 (a ++ b ++ 0#10))
  | .neg h a b => some (long h 0x11#7 (a ++ b ++ 0#10))
  | .movi h a b => some (long h 0x12#7 (a ++ b))
  | .movu h a b => some (long h 0x13#7 (a ++ b ++ 0#6))
  | .addB h a b c => some (long h 0x20#7 (a ++ b ++ c ++ 0#5))
  | .addcB h a b c => some (long h 0x21#7 (a ++ b ++ c ++ 0#5))
  | .subB h a b c => some (long h 0x22#7 (a ++ b ++ c ++ 0#5))
  | .subbB h a b c => some (long h 0x23#7 (a ++ b ++ c ++ 0#5))
  | .cmpB h a b => some (long h 0x24#7 (0#5 ++ a ++ b ++ 0#5))
  | .mpy h a b c d => some (long h 0x28#7 (a ++ b ++ c ++ BitVec.ofBool d ++ 0#7))
  | .mac h a b c d => some (long h 0x29#7 (a ++ b ++ c ++ BitVec.ofBool d ++ 0#7))
  | .msu h a b c d => some (long h 0x2A#7 (a ++ b ++ c ++ BitVec.ofBool d ++ 0#7))
  | .macr h a b c d => some (long h 0x2B#7 (a ++ b ++ c ++ BitVec.ofBool d ++ 0#7))
  | .mac2 h a b c d e f g i j => some (long h 0x2C#7 (a ++ b ++ c ++ d ++ e ++ f ++ BitVec.ofBool g ++ BitVec.ofBool i ++ BitVec.ofBool j ++ 0#1))
  | .clra h a => some (long h 0x2D#7 (a ++ 0#16))
  | .mova h a b c d => some (long h 0x2E#7 (a ++ b ++ c ++ BitVec.ofBool d ++ 0#10))
  | .exp h a b => some (long h 0x30#7 (a ++ b ++ 0#13))
  | .norm h a b => some (long h 0x31#7 (a ++ b ++ 0#13))
  | .scla h a b => some (long h 0x32#7 (a ++ BitVec.ofBool b ++ 0#17))
  | .bxd h a b => some (long h 0x33#7 (a ++ BitVec.ofBool b ++ 0#17))
  | .mfs h a b => some (long h 0x38#7 (a ++ b ++ 0#9))
  | .mts h a b => some (long h 0x39#7 (a ++ b ++ 0#9))
  | .ld h a b c d e => some (long h (0x10#5 ++ a) (b ++ c ++ d ++ e))
  | .st h a b c d e => some (long h (0x11#5 ++ a) (b ++ c ++ d ++ e))
  | .ldp h a b c => some (long h 0x48#7 (a ++ b ++ c))
  | .stp h a b c => some (long h 0x49#7 (a ++ b ++ c))
  | .ldc h a b c => some (long h 0x4A#7 (a ++ b ++ c))
  | .stc h a b c => some (long h 0x4B#7 (a ++ b ++ c))
  | .ldb h a b c => some (long h 0x4C#7 (a ++ b ++ c))
  | .stb h a b c => some (long h 0x4D#7 (a ++ b ++ c))
  | .ldw h a (.reg n o d) => some (long h 0x4E#7 (a ++ n ++ o ++ d))
  | .ldw h a (.imm n o) => some (long h (0x14#5 ++ n.extractLsb' 10 2) (a ++ o ++ n.extractLsb' 0 10))
  | .stw h a (.reg n o d) => some (long h 0x4F#7 (a ++ n ++ o ++ d))
  | .stw h a (.imm n o) => some (long h (0x15#5 ++ n.extractLsb' 10 2) (a ++ o ++ n.extractLsb' 0 10))
  | .bset h (.imm s n) => some (long h 0x58#7 (0#3 ++ s ++ n))
  | .bset h (.idx s x d) => some (long h 0x60#7 (0#3 ++ s ++ x ++ d))
  | .bclr h (.imm s n) => some (long h 0x59#7 (0#3 ++ s ++ n))
  | .bclr h (.idx s x d) => some (long h 0x61#7 (0#3 ++ s ++ x ++ d))
  | .btgl h (.imm s n) => some (long h 0x5A#7 (0#3 ++ s ++ n))
  | .btgl h (.idx s x d) => some (long h 0x62#7 (0#3 ++ s ++ x ++ d))
  | .btst h (.imm s n) => some (long h 0x5B#7 (0#3 ++ s ++ n))
  | .btst h (.idx s x d) => some (long h 0x63#7 (0#3 ++ s ++ x ++ d))
  | .bmov h a (.imm s n) => some (long h 0x5C#7 (a ++ s ++ n))
  | .bmov h a (.idx s x d) => some (long h 0x64#7 (a ++ s ++ x ++ d))
  | .bput h a (.imm s n) => some (long h 0x5D#7 (a ++ s ++ n))
  | .bput h a (.idx s x d) => some (long h 0x65#7 (a ++ s ++ x ++ d))
  | .pand h a b c d e => some (long h 0x66#7 (a ++ b ++ BitVec.ofBool d ++ c ++ BitVec.ofBool e ++ 0#9))
  | .por h a b c d e => some (long h 0x67#7 (a ++ b ++ BitVec.ofBool d ++ c ++ BitVec.ofBool e ++ 0#9))
  | .pxor h a b c d e => some (long h 0x68#7 (a ++ b ++ BitVec.ofBool d ++ c ++ BitVec.ofBool e ++ 0#9))
  | .dyn h a b (.imm n) => some (long h (0x35#6 ++ n.extractLsb' 10 1) (a ++ b ++ n.extractLsb' 0 10))
  | .dyn h a b (.reg n) => some (long h 0x6C#7 (a ++ b ++ n ++ 0#5))
  | .collect h a b c => some (long h 0x6D#7 (a ++ BitVec.ofBool b ++ c ++ 0#8))
  | .tucmd h a b c d => some (long h 0x6E#7 (a ++ b ++ c ++ d ++ 0#3))
  | .bra h a => some (long h 0x70#7 (0#5 ++ a))
  | .call h a => some (long h 0x71#7 (0#5 ++ a))
  | .callr h a => some (long h 0x72#7 (a ++ 0#15))
  | .ret h => some (long h 0x73#7 (0#20))
  | .loop h a b => some (long h 0x74#7 (a ++ b))
  | .loopr h a b => some (long h 0x75#7 (a ++ b))
  | .leave h => some (long h 0x76#7 (0#20))
  | .rep h a => some (long h 0x77#7 (0#7 ++ a))
  | .repr h a => some (long h 0x78#7 (a ++ 0#15))
  | .endProg h => some (long h 0x79#7 (0#20))
  | .trap h a => some (long h 0x7A#7 (0#16 ++ a))
  | .reti h => some (long h 0x7B#7 (0#20))
  | .wait h => some (long h 0x7C#7 (0#20))
  | .unassigned h op opd => some (long h op opd)
  | .duet h sa oa sb ob => some (1#1 ++ h.cond.extractLsb' 0 3 ++ sa ++ oa ++ sb ++ ob)
  | _ => none

end Sys2Proof
end

