-- ==== Sys2Proof/Machine/Fetch.lean ====
section
/-!
DEFINITION. How the stores of program words feed the queue: the word that a core would execute next, as a command
(R69, R99, R376). Words enter the queue from outside (notes/assumptions/3); this operation says which word a core's
own sequencing asks for.
-/
namespace Sys2Proof.Machine

/-- The word at the PC of core `c`: of the stage for SE0 to SE15 and SU (R69, R263), of its program memory for a
prompter (R376). -/
def fetchWord (d : Dev) (c : Nat) : W32 :=
  let pc := (core d c).pc.toNat
  if isPc c then Tab.get 0 d.prog (progKey (c - 17) pc) else Tab.get 0x07900000 d.stage (posOf d c * 16384 + pc)

/-- The word that core `h.core` executes next, under the circumstances of `h`, put at the front of the queue. -/
def State.issueNext (h : Hdr) (s : State) : State :=
  { s with pending := decodeWord h (fetchWord s.dev h.core.val) :: s.pending }

end Sys2Proof.Machine
end

