-- ==== Sys2Proof/WellFormed.lean ====
section
/-!
DEFINITION. Which commands are well formed: an Ikimal word's reserved bits lie where its layout leaves them (R110), a
duet's condition is one of eight (R108), an unassigned opcode is one that R111 leaves unassigned; a register write
comes from a master of control space (R436) and carries the bit its row is about; an event's numbers lie in range.
-/
namespace Sys2Proof

/-- The reserved operand bits of a second operand in a register: [4:0], beside `imm`'s own. -/
def Src.rsv (b : Src) : BitVec 20 := match b with | .reg _ => 0x1F | .imm _ => 0

/-- The reserved operand bits of layouts A3 and AS. -/
def Amt.rsv (s : Amt) : BitVec 20 := match s with | .reg _ => 0x1F | .imm _ => 0x3E0

/-- An Ikimal word's header and the reserved operand bits of its layout (R110); `none` for any other row, and for a duet
and an unassigned opcode, whose words keep their bits in their own operands. -/
def Instr.layout : Instr → Option (Hdr × BitVec 20)
  | .nop h | .ret h | .leave h | .endProg h | .reti h | .wait h => some (h, 0xFFFFF)
  | .add h _ _ b | .sub h _ _ b | .and h _ _ b | .or h _ _ b | .xor h _ _ b => some (h, b.rsv)
  | .addc h _ _ _ | .subb h _ _ _ | .min h _ _ _ | .max h _ _ _ => some (h, 0x1F)
  | .addB h _ _ _ | .addcB h _ _ _ | .subB h _ _ _ | .subbB h _ _ _ => some (h, 0x1F)
  | .shl h _ _ s | .shr h _ _ s | .asr h _ _ s | .rol h _ _ s => some (h, s.rsv)
  | .cmp h _ b => some (h, 0xF8000 ||| b.rsv)
  | .cmpB h _ _ => some (h, 0xF801F)
  | .mov h _ _ | .abs h _ _ | .neg h _ _ => some (h, 0x3FF)
  | .movi h _ _ => some (h, 0)
  | .movu h _ _ => some (h, 0x3F)
  | .mpy h _ _ _ _ | .mac h _ _ _ _ | .msu h _ _ _ _ | .macr h _ _ _ _ => some (h, 0x7F)
  | .mac2 h _ _ _ _ _ _ _ _ _ => some (h, 1)
  | .clra h _ => some (h, 0xFFFF)
  | .mova h _ _ _ _ => some (h, 0x3FF)
  | .exp h _ _ | .norm h _ _ => some (h, 0x1FFF)
  | .scla h _ _ | .bxd h _ _ => some (h, 0x1FFFF)
  | .mfs h _ _ | .mts h _ _ => some (h, 0x1FF)
  | .ld h _ _ _ _ _ | .st h _ _ _ _ _ => some (h, 0)
  | .ldp h _ _ _ | .stp h _ _ _ | .ldc h _ _ _ | .stc h _ _ _ | .ldb h _ _ _ | .stb h _ _ _ => some (h, 0)
  | .ldw h _ _ | .stw h _ _ => some (h, 0)
  | .bset h _ | .bclr h _ | .btgl h _ | .btst h _ => some (h, 0xE0000)
  | .bmov h _ _ | .bput h _ _ => some (h, 0)
  | .pand h _ _ _ _ _ | .por h _ _ _ _ _ | .pxor h _ _ _ _ _ => some (h, 0x1FF)
  | .dyn h _ _ ch => some (h, match ch with | .imm _ => 0 | .reg _ => 0x1F)
  | .collect h _ _ _ => some (h, 0xFF)
  | .tucmd h _ _ _ _ => some (h, 7)
  | .bra h _ | .call h _ => some (h, 0xF8000)
  | .callr h _ | .repr h _ => some (h, 0x7FFF)
  | .loop h _ _ | .loopr h _ _ => some (h, 0)
  | .rep h _ => some (h, 0xFE000)
  | .trap h _ => some (h, 0xFFFF0)
  | _ => none

/-- What an Ikimal word carries beside its operands; `none` for any other row. -/
def Instr.hdr : Instr → Option Hdr
  | .duet h _ _ _ _ | .unassigned h _ _ => some h
  | i => i.layout.map (·.1)

/-- The long opcodes that R111 leaves unassigned. -/
def unassignedOps : List (BitVec 7) :=
  [0x1E, 0x1F, 0x25, 0x26, 0x27, 0x2F, 0x34, 0x35, 0x36, 0x37, 0x3A, 0x3B, 0x3C, 0x3D, 0x3E, 0x3F, 0x5E, 0x5F, 0x69,
   0x6F, 0x7D, 0x7E, 0x7F]

/-- The header and the reserved bits agree: none outside the layout. -/
def Hdr.fits (h : Hdr) (mask : BitVec 20) : Bool := h.rsv &&& ~~~mask == 0

/-- A master that writes control space (R436). -/
def ctlWriter (w : BitVec 6) : Bool := w = 17 || w = 18 || (28 ≤ w.toNat && w.toNat ≤ 32)

/-- SMBus, or a master that writes control space. -/
def houseWriter (w : BitVec 6) : Bool := w = 63 || ctlWriter w

/-- A write of `v` by `w` with bit `b` set. -/
def writes1 (w : BitVec 6) (v : W24) (b : Nat) : Bool := ctlWriter w && v.getLsbD b

/-- A write of `v` by `w` with bit `b` clear. -/
def writes0 (w : BitVec 6) (v : W24) (b : Nat) : Bool := ctlWriter w && !v.getLsbD b

/-- A PEC code: 0 absent, 1 right, 2 wrong. -/
def pecOk (p : BitVec 2) : Bool := p ≠ 3

/-- The rows that are not Ikimal words. -/
def Instr.wfRow : Instr → Bool
  | .suTakeoverCmd w v => writes1 w v 23
  | .suRelease w v => writes1 w v 22
  | .suClrfault w v => writes1 w v 18
  | .ovrStatReopen w _ v => writes1 w v 22
  | .ovrStatClr w _ v => writes1 w v 19
  | .duetClashClr w _ v => writes1 w v 23
  | .undPcClr w _ v => writes1 w v 22
  | .stickyClr w _ v => writes1 w v 16
  | .pktEccClr w _ v => writes1 w v 22
  | .mmlogClr w v => writes1 w v 22
  | .mktsClr w _ v => writes1 w v 23
  | .ueLogClr w v => writes1 w v 21
  | .spareGo w v => writes1 w v 23
  | .wliveLoad w v => writes1 w v 23
  | .wliveApply w v => writes1 w v 22
  | .wclampClr w v => writes1 w v 23
  | .tuCntClr w _ v => writes1 w v 23
  | .wrap w v => writes1 w v 23
  | .unwrap w v => writes1 w v 22
  | .sha384 w v => writes1 w v 23 && v.toNat % 8 = 1
  | .gcmenc w v => writes1 w v 23 && v.toNat % 8 = 2
  | .gcmdec w v => writes1 w v 23 && v.toNat % 8 = 3
  | .sign w v => writes1 w v 23 && v.toNat % 8 = 4
  | .verify w v => writes1 w v 23 && v.toNat % 8 = 5
  | .keygen w v => writes1 w v 23 && v.toNat % 8 = 6
  | .random w v => writes1 w v 23 && v.toNat % 8 = 7
  | .cueSubmit w _ v => writes1 w v 23
  | .cueEntryCancel w _ v => writes0 w v 23
  | .cueLoad w v => writes1 w v 23 && !v.getLsbD 22
  | .cueVerify w v => writes1 w v 23 && v.getLsbD 22
  | .rampGo w _ v => writes1 w v 23
  | .rampStatClr w v => writes1 w v 10
  | .collStatClr w v => writes1 w v 23
  | .curtClose w v => writes1 w v 23
  | .curtOpen w v => writes1 w v 22
  | .duStatClr w _ v => writes1 w v 23
  | .watchdogKick w _ v => writes1 w v 16
  | .portCntclr w _ v => writes1 w v 23
  | .ringClr w _ v => writes1 w v 23
  | .twiGo w v => writes1 w v 23
  | .streamEnable w _ _ v => writes1 w v 23
  | .rxStreamDisable w _ v | .txStreamDisable w _ v => writes0 w v 23
  | .strmClr w v => writes1 w v 23
  | .timeSnap w v => writes1 w v 23
  | .timeSet w v => writes1 w v 22
  | .timeAdd w v => writes1 w v 21
  | .s2calGo w v => writes1 w v 23
  | .tdmStatClr w _ v | .aesiStatClr w _ v | .madiStatClr w _ v => writes1 w v 22
  | .pcResetWrite w _ v => writes1 w v 20
  | .swset w _ v => writes1 w v 22
  | .hostStatClr w v => writes1 w v 19
  | .ptClr w _ v => writes1 w v 23
  | .ledgerClear w v => writes1 w v 18
  | .ledgCntclrAll w v => writes1 w v 23
  | .ledgStatclr w v => writes1 w v 22
  | .flush w v => writes1 w v 23
  | .swpost w v => writes1 w v 23
  | .tallyClr w _ v => writes1 w v 23
  | .suEnableWrite w _ | .seEnableWrite w _ _ | .rehEnableWrite w _ | .winHeadWrite w _ _ | .boardViewSet w _ _
  | .boardViewClr w _ _ | .tuQpush w _ _ | .tuEnableWrite w _ _ | .cueSlotWrite w _ _ _ | .cueEnableWrite w _
  | .rampEnableWrite w _ | .collEnableWrite w _ | .duEnableWrite w _ _ | .govLimitsWrite w _ | .portConfigWrite w _ _
  | .portEnableWrite w _ _ | .portStepWrite w _ _ | .ringTailWrite w _ _ | .ringEnableWrite w _ _
  | .strmEnableWrite w _ | .s1enWrite w _ | .s2enWrite w _ | .familyChange w _ | .refSelWrite w _
  | .lpEnableWrite w _ _ | .locPortEnableWrite w _ _ | .tbEnableWrite w _ _ | .biasenWrite w _ _
  | .tbBoardBaseWrite w _ _ | .pcRunWrite w _ _ | .ledgerTailWrite w _ | .ledgCntclrCode w _
  | .tallyEnableWrite w _ _ | .tallyConfigWrite w _ _ _ | .feed w _ _ | .registerWrite w _ _ => ctlWriter w
  | .vaultDataAccess w wr _ | .pbDataAccess w wr | .pbData3Access w wr =>
    ctlWriter w || (wr.isNone && w.toNat ≤ 16)
  | .mcHiRead w | .tbEvtRead w _ | .ledgerEntry0Read w => ctlWriter w || w.toNat ≤ 16
  | .runCmd w pec | .hushCmd w pec | .darkCmd w pec | .grant w pec _ | .nextEvent w pec _ _ _ | .lcAdvance w pec _ _ =>
    houseWriter w && pecOk pec
  | .smbState pec | .smbGrantRead pec | .smbNextEventRead pec | .smbSerial pec | .smbLc pec | .smbTemp pec _
  | .smbVcore pec | .smbAlert pec | .smbAlertClr pec _ | .smbAlertMask pec _ | .smbLedger pec | .smbResetDevice pec
  | .smbResetPc pec _ | .smbTamper pec => pecOk pec
  | .marketAccess m _ _ _ _ => m.toNat ≤ 33
  | .linkDown _ cause => 1 ≤ cause.toNat && cause.toNat ≤ 3
  | .ingressLatch l | .slaveFrame _ _ _ _ l => l.all fun s => s.ch.toNat < 658
  | .memTestDone l => l.all fun e => e.1.toNat ≤ 18 || (32 ≤ e.1.toNat && e.1.toNat ≤ 48) || e.1 = 63
  | .pcieLinkUp _ width => width ≠ 3
  | _ => true

/-- A well-formed command. -/
def Instr.wf (i : Instr) : Bool :=
  match i with
  | .duet h _ _ _ _ => h.rsv = 0 && h.cond.toNat < 8
  | .unassigned h op _ => h.rsv = 0 && unassignedOps.contains op
  | i => match i.layout with | some (h, mask) => h.fits mask | none => i.wfRow

end Sys2Proof
end

