-- ==== Sys2Proof/Safety.lean ====
section
/-!
DEFINITION. The terms of the statements: a state in order, a command that completes, and an Ikimal word that executes
and ends in sequence.
-/
namespace Sys2Proof.Machine

/-- The memories behind secure paths are in canonical form: the vault reads 0 where nothing is listed, the prompt book
0 (R194, R403). -/
def State.secWf (s : State) : Bool := Memory.wf 0 s.sec.vault && Memory.wf 0 s.sec.pb

/-- A command completes: `exec` answers a next state. -/
def Completes (i : Instr) (s : State) : Prop := ∃ t, exec i s = .next t

/-- A command completes in a state of which `P` holds. -/
def Gives (i : Instr) (s : State) (P : State → Prop) : Prop := ∃ t, exec i s = .next t ∧ P t

/-- A queue of well-formed commands. -/
def State.wfQueue (s : State) : Bool := s.pending.all Instr.wf

/-- The device is not HALTED (R402): commands other than HOUSE's act. -/
def State.up (s : State) : Prop := halted s.dev = false

/-- The next access of master `w` to control space takes effect: the device is not HALTED (R402), the host's link is
enabled where it is the host (R443), and no earlier access of the master is held (R437). -/
abbrev State.takes (s : State) (w : BitVec 6) : Prop :=
  halted s.dev = false ∧ (w = 32 → hostOpen s.dev = true) ∧ inOrder s w.toNat = true

/-- `d'` differs from `d` in core `c` alone. -/
def OnlyCore (c : Nat) (d d' : Dev) : Prop :=
  (∀ j, j ≠ c → core d' j = core d j) ∧ { d' with cores := d.cores } = d

/-- `d'` differs from `d` in core `c` and in registers alone. -/
def OnlyCoreRegs (c : Nat) (d d' : Dev) : Prop :=
  (∀ j, j ≠ c → core d' j = core d j) ∧ { d' with cores := d.cores, ctl := d.ctl } = d

/-! ## What a word leaves -/

/-- The flags of a result written into ST (R66). -/
def Core.flagged (k : Core) (f : Flags) : Core := { k with st := f.apply k.st }

/-- The four integer flags of a result (R66): Z and N of the word, C, and V where the word is not the exact result. -/
def fourFlags {w : Nat} (r : BitVec w) (c : Bool) (exact : Int) : Flags :=
  { z := some (decide (r.toNat = 0)), n := some (decide (r.toInt < 0)), c := some c, v := some (decide (r.toInt ≠ exact)) }

/-- A value within the 56 bits of an accumulator (R140). -/
def inAcc (s : Int) : Bool := decide (-(2 ^ 55) ≤ s) && decide (s < 2 ^ 55)

/-- What an accumulator holds of an exact value under ST.ACCMODE (R140): the value, the nearest end of the range, or
the value modulo 2^56. -/
def accOf (wrap : Bool) (s : Int) : W56 :=
  if inAcc s || wrap then BitVec.ofInt 56 s else if s < 0 then BitVec.ofInt 56 (-(2 ^ 55)) else BitVec.ofInt 56 (2 ^ 55 - 1)

/-- An accumulator written by a sum (R140, R141): AG where the value leaves 48 bits, AV where the sum left 56. -/
def Core.summed (k : Core) (i : Nat) (a : W56) (av : Bool) : Core :=
  { k with
    acc := Tab.set 0 k.acc i a
    st := k.st ||| (if -(2 ^ 47) ≤ a.toInt ∧ a.toInt < 2 ^ 47 then 0 else 0x20) ||| (if av then 0x10 else 0) }

/-- Rounded at bit 24: the multiple of 2^24 a rounding picks, divided by 2^24 (R116). -/
def roundAt24 (r : Rnd) (a : Int) : Int :=
  match r with
  | .trunc => a / 2 ^ 24
  | .halfup => if 2 ^ 23 ≤ a % 2 ^ 24 then a / 2 ^ 24 + 1 else a / 2 ^ 24
  | .conv =>
    if 2 ^ 23 < a % 2 ^ 24 ∨ (a % 2 ^ 24 = 2 ^ 23 ∧ a / 2 ^ 24 % 2 = 1) then a / 2 ^ 24 + 1 else a / 2 ^ 24

/-- `e` bits of `a`, counted down from bit 54, equal bit 55 before the first that differs (R117). -/
abbrev SignBits (a : W56) (e : Nat) : Prop :=
  e ≤ 55 ∧ (∀ i < e, a.getLsbD (54 - i) = a.msb) ∧ (e < 55 → a.getLsbD (54 - e) ≠ a.msb)

/-- A core as the flow of its word meets it: the word is counted (R34, R90). -/
abbrev Core.counted (k : Core) : Core := { k with words := k.words + 1, prefixed := false }

/-- A transfer to `t` (R95, R98, R122): the repeat ends, the loop stack stays. -/
abbrev Core.goes (k : Core) (t : Nat) : Core := { k.counted with rpc := 0, pc := BitVec.ofNat 16 t }

/-- What follows a word that ends in sequence (R95, R97): the word is counted, and unless repetitions remain the loop
stack is checked and the program goes on. -/
def Core.follow (k : Core) : Core :=
  let k := { k with words := k.words + 1, prefixed := false }
  if k.rpc = 0 then
    let e := endCheck k.pc.toNat k.loops (k.pc.toNat + 1)
    { k with loops := e.1, pc := BitVec.ofNat 16 e.2.1 }
  else k

/-- The core of `h` as a word's effects meet it: its visible loads written (R90), and a repetition counted down
(R97). -/
abbrev here (d : Dev) (h : Hdr) : Core := (core d h.core.val).begin.tick

/-- The core of `h` is about to execute a word that SU finds no difference at: it runs, nothing holds it, its fetch is good,
no visible load waits for its data, it is not in the known-answer test, and no pocket word waits for its scrub write. -/
structure Able (d : Dev) (h : Hdr) : Prop where
  run : (core d h.core.val).run = .on
  hold : (core d h.core.val).hold = .free
  fetch : badFetch d h = false
  late : ∀ l ∈ (core d h.core.val).begin.loads, (core d h.core.val).words < l.due
  kat : inKat d h.core.val = false
  scrub : d.pscrub = []
  mm : h.mm = 0

/-- The program goes on within its store after a word that ends in sequence (R95, R99). -/
abbrev Stays (d : Dev) (h : Hdr) : Prop :=
  (here d h).rpc = 0 →
    (endCheck (here d h).pc.toNat (here d h).loops ((here d h).pc.toNat + 1)).2.1 < storeSize h.core.val

/-- As `Able`, for a word that has no reserved bit set, the program going on within its store. -/
structure Ready (d : Dev) (h : Hdr) : Prop extends Able d h where
  rsv : h.rsv = 0
  stays : Stays d h

/-- The condition of a long word holds (R87). -/
abbrev Passes (d : Dev) (h : Hdr) : Prop :=
  condHolds h.cond.toNat (core d h.core.val).st (core d h.core.val).preds = true

/-- The word completes, changes core `h.core` into `k` and nothing else: no other core, no register, no memory. -/
def WordDone (i : Instr) (h : Hdr) (s : State) (k : Core) : Prop :=
  Gives i s fun t =>
    core t.dev h.core.val = k ∧ OnlyCore h.core.val s.dev t.dev ∧ t.sec = s.sec ∧ t.pending = s.pending

/-- As `WordDone`, for a word that sums: of the registers the sticky AV bit of the engine's position alone changes, set
where `av` holds (R68, R141). -/
def SumDone (i : Instr) (h : Hdr) (s : State) (k : Core) (av : Bool) : Prop :=
  Gives i s fun t =>
    core t.dev h.core.val = k ∧ (∀ j, j ≠ h.core.val → core t.dev j = core s.dev j)
      ∧ { t.dev with cores := s.dev.cores }
        = (if av && !isPc h.core.val then setf s.dev F.SE_STICKY_AV (posOf s.dev h.core.val) 1 else s.dev)
      ∧ t.sec = s.sec ∧ t.pending = s.pending

/-- The word completes, its core becoming `k`, and leaves a device of which `P` holds, every other core as it was. -/
def WordGives (i : Instr) (h : Hdr) (s : State) (k : Core) (P : Dev → Prop) : Prop :=
  Gives i s fun t =>
    core t.dev h.core.val = k ∧ (∀ j, j ≠ h.core.val → core t.dev j = core s.dev j) ∧ P t.dev ∧ t.sec = s.sec
      ∧ t.pending = s.pending

/-- The register word `v` at address `a` with those fields of `l` (field, instance, value) that lie there set in turn. -/
def regAfter (l : List (Fld × Nat × Nat)) (a : Nat) (v : W24) : W24 :=
  l.foldl (fun v x => if x.1.addr x.2.1 = a then x.1.put v x.2.2 else v) v

/-- The fields of `l` get their values; every other bit of every register stays. -/
def RegsBecome (l : List (Fld × Nat × Nat)) (d d' : Dev) : Prop := ∀ a, rd d' a = regAfter l a (rd d a)

/-- UND set in ST (R66, R130). -/
abbrev Core.undefined (k : Core) : Core := { k with st := k.st ||| 0x40, und := true }

/-- The word completes and sets UND, its core becoming `k`. Of the registers an engine's position alone changes: the sticky
UND bit, posted where it was clear, and the record of UND_PC, which names case `cause` and the stage word `pc` (R68, R135,
R272). -/
def UndDone (i : Instr) (h : Hdr) (s : State) (k : Core) (cause pc : Nat) : Prop :=
  let pos := posOf s.dev h.core.val
  if isPc h.core.val then WordDone i h s k
  else
    WordGives i h s k fun d =>
      RegsBecome
          [(F.SE_STICKY_UND, pos, 1), (F.SE_UND_PC_VALID, pos, 1), (F.SE_UND_PC_CAUSE, pos, cause), (F.SE_UND_PC_PC, pos, pc)]
          s.dev d
        ∧ { d with cores := s.dev.cores, ctl := s.dev.ctl }
          = (if flag s.dev F.SE_STICKY_UND pos then s.dev else post s.dev 0x03 pos pc cause)

/-- Every word of a memory but the one at `a` reads as it did. -/
def OnlyAt {α : Type} (d : α) (a : Nat) (m m' : Tab α) : Prop := ∀ b, b ≠ a → Tab.get d m' b = Tab.get d m b

/-- Two memories read alike everywhere. -/
def SameTab {α : Type} (d : α) (m m' : Tab α) : Prop := ∀ a, Tab.get d m' a = Tab.get d m a

/-- Every register reads as it did, but for those at the addresses of `l`. -/
def SameRegs (l : List Nat) (d d' : Dev) : Prop := ∀ a, a ∉ l → rd d' a = rd d a

/-- A Market word is read: it carries no flipped bit and no poison, none flips now, and the reader is no engine to which
another engine's write of the tick leaves it undefined (R57, R171). -/
abbrev Readable (d : Dev) (h : Hdr) (a : Nat) : Prop :=
  h.upset = 0 ∧ Tab.get 0 d.ecc a = 0 ∧ (isPc h.core.val = true ∨ readUndefined d (posOf d h.core.val) a = false)

/-- A word that reads the Market leaves all but cores, tally records, and the free values drawn for their waits
(notes/assumptions/2). -/
def MarketRead (d d' : Dev) : Prop :=
  SameTab 0 d.ecc d'.ecc
    ∧ { d' with cores := d.cores, ecc := d.ecc, tallies := d.tallies, fresh := d.fresh } = d

/-- The Market word `a` becomes `v` with valid check bits; every other word, register and memory stays, but for tally
records, the free values drawn for their waits, and the record of the engines' writes of the tick (R57). -/
def MarketWritten (d d' : Dev) (a : Nat) (v : W24) : Prop :=
  Tab.get 0 d'.mkt a = v ∧ Tab.get 0 d'.ecc a = 0 ∧ OnlyAt 0 a d.mkt d'.mkt ∧ OnlyAt 0 a d.ecc d'.ecc
    ∧ d'.stalls.scrubs = d.stalls.scrubs.filter (· != a)
    ∧ { d' with cores := d.cores, mkt := d.mkt, ecc := d.ecc, past := d.past, stalls := d.stalls, tallies := d.tallies, fresh := d.fresh,
                wrote := d.wrote } = d
    ∧ { d'.stalls with scrubs := d.stalls.scrubs } = d.stalls

/-! ## Duet slots (R125) -/

/-- What the slot reads and writes of its core alone, its operands read in `k0`, and whether its sum left 56 bits: NOP, MAC,
MPY, ADD, SUB, MOV, BSET and BCLR (R125). The result of a fractional product is doubled (R138). -/
def slotCore (k0 : Core) (op : Nat) (o : BitVec 9) (k : Core) : Core × Bool :=
  let x (lo : Nat) : W24 := k0.x (short (o.extractLsb' lo 3))
  let rd : Nat := k0.phys (short (o.extractLsb' 6 3))
  let ad : Nat := (o.extractLsb' 7 2).toNat
  let p : Int := (x 4).toInt * (x 1).toInt * 2
  let sum : Int := (Tab.get 0 k0.acc ad).toInt + p
  match op with
  | 1 => (k.summed ad (accOf (k0.st.getLsbD 9) sum) (!inAcc sum), !inAcc sum)
  | 2 => (k.summed ad (BitVec.ofInt 56 p) false, false)
  | 3 => (k.put rd (x 3 + x 0), false)
  | 4 => (k.put rd (x 3 - x 0), false)
  | 5 => (k.put rd (x 3), false)
  | 9 => ({ k with loc := Tab.set false k.loc o.toNat true }, false)
  | 10 => ({ k with loc := Tab.set false k.loc o.toNat false }, false)
  | _ => (k, false)

/-- The register, accumulator or local bit such a slot writes: two that write the same clash (R127). -/
def slotTarget (op : Nat) (o : BitVec 9) : Option (Nat × Nat) :=
  if op = 1 ∨ op = 2 then some (1, (o.extractLsb' 7 2).toNat)
  else if 3 ≤ op ∧ op ≤ 5 then some (0, (o.extractLsb' 6 3).toNat)
  else if op = 9 ∨ op = 10 then some (3, o.toNat)
  else none

/-- The slot's reserved bits are 0 (R125, R132). -/
def slotPlain (op : Nat) (o : BitVec 9) : Bool :=
  match op with
  | 0 => o = 0
  | 1 | 2 => !o.getLsbD 0
  | 5 => o.extractLsb' 0 3 = 0
  | _ => true

/-! ## Words that no case of R130 but reserved bits picks out -/

/-- LOOP's end address lies past its own word (R94, R122). -/
def loopAhead (k : Core) (c : Nat) (e : Int) : Bool := decide (k.pc.toNat < target c k.pc.toNat e)

/-- A prefix that is neither repeated nor at the end of the top level (R98). -/
def prefixPlain (k : Core) : Bool := k.rpc = 0 && k.loops.head?.all fun l => l.le ≠ k.pc.zeroExtend 24

/-- The special register takes what MTS writes (R65, R73, R96, R124). -/
def mtsTaken (k : Core) (pc : Bool) (n : Nat) (x : W24) : Bool :=
  !spBad pc n && n ≠ 5 && n ≠ 43 && !(2 ≤ n && n ≤ 4 && k.loops.isEmpty) && !(n = 6 && 56 ≤ x.toNat % 64)
    && !(n = 12 && (if pc then (x.getLsbD 12 && k.res ≤ 3) || (x.getLsbD 13 && !x.getLsbD 12 && 15 ≤ k.res)
      else x.getLsbD 12 || x.getLsbD 13))

/-- None of cases 1 to 4 of R130 is the word's, and its operands hold no reserved bit: the core has it, no field has an
unassigned value, and nothing of it is ignored. -/
def regularWord (d : Dev) (h : Hdr) (i : Instr) : Bool :=
  let k := here d h
  let c := h.core.val
  let pc := isPc c
  let glenex := pc && flag d F.PC_GLENEX_EN (c - 17)
  let slot (op : BitVec 5) (o : BitVec 9) : Bool := op.toNat ≤ 10 && slotPlain op.toNat o
  match i with
  | .addB _ _ _ _ | .addcB _ _ _ _ | .subB _ _ _ _ | .subbB _ _ _ _ | .cmpB _ _ _ | .ldb _ _ _ _ | .stb _ _ _ _ => glenex
  | .collect _ _ _ _ | .dyn _ _ _ _ | .endProg _ => !pc
  | .tucmd _ u _ _ _ => !pc && u ≠ 3
  | .trap _ _ | .reti _ | .wait _ | .stc _ _ _ _ => pc
  | .unassigned _ _ _ => false
  | .mova _ _ _ r _ => r ≠ 3
  | .bset _ b | .bclr _ b | .btgl _ b | .btst _ b | .bmov _ _ b | .bput _ _ b => !b.bad
  | .mfs _ _ n => !spBad pc n.toNat
  | .mts _ r n => mtsTaken k pc n.toNat (k.x r)
  | .ld _ sp _ _ bk _ => sp = 0 || (sp = 1 && bk = 0)
  | .st _ sp _ _ _ _ => sp = 0
  | .ret _ => pc || 3 < k.res
  | .loop _ _ e => loopAhead k c e.toInt
  | .loopr _ _ e => loopAhead k c e.toInt
  | .leave _ => !k.loops.isEmpty
  | .rep _ n => n.toNat ≤ 4096 && prefixPlain (core d c).begin
  | .repr _ x => (k.x x).toNat ≤ 4096 && prefixPlain (core d c).begin
  | .duet _ oa fa ob fb => slot oa fa && slot ob fb
  | _ => true

/-- REP and REPR, after which R102 lets no interrupt in. -/
def isPrefix : Instr → Bool
  | .rep _ _ | .repr _ _ => true
  | _ => false

/-- The condition a word is executed under (R87): a duet's three bits name one of eight. -/
def condOf (h : Hdr) : Instr → Nat
  | .duet _ _ _ _ _ => [0, 1, 2, 3, 4, 11, 12].getD h.cond.toNat 15
  | _ => h.cond.toNat

/-! ## Accesses of control space -/

/-- The master and the accesses of control space of a row that is a register of its own (R436, R437); the other rows are no
accesses, or come over SMBus. -/
def rowAccess : Instr → Option (BitVec 6 × List (Nat × Option W24))
  | .suTakeoverCmd w v | .suRelease w v | .suClrfault w v => some (w, [(A.SU_CMD, some v)])
  | .suEnableWrite w v => some (w, [(A.SU_CTRL, some v)])
  | .seEnableWrite w n v => some (w, [(F.SE_ENG_CTRL_ENABLE.addr n, some v)])
  | .ovrStatReopen w n v | .ovrStatClr w n v => some (w, [(F.SE_OVR_STAT_CLR.addr n, some v)])
  | .duetClashClr w n v => some (w, [(clashAddr n, some v)])
  | .undPcClr w n v => some (w, [(F.SE_UND_PC_CLR.addr n, some v)])
  | .stickyClr w n v => some (w, [(F.SE_STICKY_CLR.addr n, some v)])
  | .pktEccClr w n v => some (w, [(pktEccAddr n, some v)])
  | .mmlogClr w v => some (w, [(A.SU_MMLOG, some v)])
  | .mktsClr w n v => some (w, [(F.MKTS_CLR_CLR.addr n, some v)])
  | .ueLogClr w v => some (w, [(A.MKT_UE_LOG1, some v)])
  | .spareGo w v => some (w, [(A.MKT_SPARE, some v)])
  | .rehEnableWrite w v => some (w, [(A.REH_CTRL, some v)])
  | .winHeadWrite w n v => some (w, [(F.WIN_HEAD_HEAD.addr n.toNat, some v)])
  | .wliveLoad w v | .wliveApply w v => some (w, [(A.MKT_WLIVE_CMD, some v)])
  | .wclampClr w v => some (w, [(A.MKT_WCLAMP, some v)])
  | .boardViewSet w i v => some (w, [(A.MKT_BOARD + i.toNat, some v)])
  | .boardViewClr w i v => some (w, [(A.MKT_BOARD_CLR + i.toNat, some v)])
  | .tuQpush w u v => some (w, [(F.TU_QPUSH_DESC.addr u, some v)])
  | .tuEnableWrite w u v => some (w, [(F.TU_CTRL_ENABLE.addr u, some v)])
  | .tuCntClr w u v => some (w, [(F.TU_CNT_CLR.addr u, some v)])
  | .vaultDataAccess w wr _ => some (w, [(A.VAULT_DATA, wr)])
  | .wrap w v | .unwrap w v => some (w, [(A.VAULT_CMD, some v)])
  | .sha384 w v | .gcmenc w v | .gcmdec w v | .sign w v | .verify w v | .keygen w v | .random w v =>
    some (w, [(A.VAULT_CCMD, some v)])
  | .cueSubmit w n v | .cueEntryCancel w n v => some (w, [(F.CUEN_CTL_VALID.addr n, some v)])
  | .cueLoad w v | .cueVerify w v => some (w, [(A.CUE_LOAD, some v)])
  | .cueSlotWrite w n hi v => some (w, [(A.CUE_SLOT_LO + 2 * n.val + b1 hi, some v)])
  | .cueEnableWrite w v => some (w, [(A.CUE_CTRL, some v)])
  | .rampGo w n v => some (w, [(F.RAMPN_GO_GO.addr n.toNat, some v)])
  | .rampEnableWrite w v => some (w, [(A.RAMP_CTRL, some v)])
  | .rampStatClr w v => some (w, [(A.RAMP_STAT, some v)])
  | .collEnableWrite w v => some (w, [(A.COLL_CTRL, some v)])
  | .collStatClr w v => some (w, [(A.COLL_STAT, some v)])
  | .curtClose w v | .curtOpen w v => some (w, [(A.COLL_CURT_CMD, some v)])
  | .duEnableWrite w n v => some (w, [(F.DU_CTRL_ENABLE.addr n, some v)])
  | .duStatClr w n v => some (w, [(F.DU_STAT_CLR.addr n, some v)])
  | .govLimitsWrite w v => some (w, [(A.PWR_GOV_LIMITS, some v)])
  | .watchdogKick w n v => some (w, [(F.HOUSE_PCWD_TIMEOUT.addr n, some v)])
  | .portConfigWrite w n v | .portEnableWrite w n v => some (w, [(F.PORT_CTRL_ENABLE.addr n, some v)])
  | .portStepWrite w n v => some (w, [(F.PORT_STEP_EN.addr n, some v)])
  | .portCntclr w n v => some (w, [(F.PORT_CNTCLR_CLR.addr n, some v)])
  | .ringTailWrite w r v => some (w, [(F.RING_TAIL_TAIL.addr r, some v)])
  | .ringEnableWrite w r v => some (w, [(F.RING_CFG_EN.addr r, some v)])
  | .ringClr w r v => some (w, [(F.RING_DISC_CLR.addr r, some v)])
  | .twiGo w v => some (w, [(A.TWI_CTRL, some v)])
  | .streamEnable w tx s v => some (w, [((if tx then F.TXS_CFG_EN else F.RXS_CFG_EN).addr s.toNat, some v)])
  | .rxStreamDisable w s v => some (w, [(F.RXS_CFG_EN.addr s.toNat, some v)])
  | .txStreamDisable w s v => some (w, [(F.TXS_CFG_EN.addr s.toNat, some v)])
  | .strmEnableWrite w v => some (w, [(A.STRM_CTRL, some v)])
  | .strmClr w v => some (w, [(A.STRM_CLR, some v)])
  | .mcHiRead w => some (w, [(A.STRM_MC_HI, none)])
  | .timeSnap w v | .timeSet w v | .timeAdd w v => some (w, [(A.TIME_CTRL, some v)])
  | .s1enWrite w v | .s2enWrite w v | .familyChange w v => some (w, [(A.MCS_CTRL, some v)])
  | .refSelWrite w v => some (w, [(A.MCS_REF, some v)])
  | .s2calGo w v => some (w, [(A.MCS_S2CAL, some v)])
  | .lpEnableWrite w n v => some (w, [(F.LP_CTRL_ENABLE.addr n, some v)])
  | .locPortEnableWrite w p v => some (w, [(locCtrl p, some v)])
  | .tdmStatClr w p v => some (w, [(F.TDM_STAT_CLR.addr p, some v)])
  | .aesiStatClr w a v => some (w, [(F.AESI_STAT_CLR.addr a, some v)])
  | .madiStatClr w m v => some (w, [(F.MADI_STAT_CLR.addr m, some v)])
  | .tbEnableWrite w t v | .biasenWrite w t v => some (w, [(F.TB_CTRL_ENABLE.addr t, some v)])
  | .tbBoardBaseWrite w t v => some (w, [(F.TB_BOARD_BASE.addr t, some v)])
  | .tbEvtRead w t => some (w, [(F.TB_EVT_VALID.addr t, none)])
  | .pcRunWrite w n v | .pcResetWrite w n v => some (w, [(F.PC_CTRL_RUN.addr n, some v)])
  | .swset w src v => some (w, [(F.INTC_SRC_PEND.addr src.toNat, some v)])
  | .hostStatClr w v => some (w, [(A.HOST_STAT, some v)])
  | .ptClr w n v => some (w, [(F.PT_FAILS_CLR.addr n, some v)])
  | .runCmd w _ => if w.toNat = 63 then none else some (w, [(A.HOUSE_STATE_CMD, some 0x200000)])
  | .hushCmd w _ => if w.toNat = 63 then none else some (w, [(A.HOUSE_STATE_CMD, some 0x400000)])
  | .darkCmd w _ => if w.toNat = 63 then none else some (w, [(A.HOUSE_STATE_CMD, some 0x600000)])
  | .grant w _ v => if w.toNat = 63 then none else some (w, [(A.HOUSE_GRANT, some v)])
  | .nextEvent w _ sec ns valid => if w.toNat = 63 then none else some (w, nextEventWords sec.toNat ns.toNat valid)
  | .lcAdvance w _ target confirm =>
    if w.toNat = 63 then none
    else some (w, [(A.HOUSE_LC, some (F.HOUSE_LC_CONFIRM.put (F.HOUSE_LC_TARGET.put 0 target.toNat) confirm.toNat))])
  | .pbDataAccess w wr => some (w, [(A.PB_DATA, wr)])
  | .pbData3Access w wr => some (w, [(A.PB_DATA3, wr)])
  | .ledgerTailWrite w v => some (w, [(A.LEDG_TAIL, some v)])
  | .ledgerClear w v => some (w, [(A.LEDG_CTRL, some v)])
  | .ledgerEntry0Read w => some (w, [(A.LEDG_ENTRY, none)])
  | .ledgCntclrAll w v | .ledgStatclr w v | .ledgCntclrCode w v => some (w, [(A.LEDG_CNTCLR, some v)])
  | .flush w v => some (w, [(A.LEDG_PCTRL, some v)])
  | .swpost w v => some (w, [(A.LEDG_SWPOST0, some v)])
  | .tallyEnableWrite w n v => some (w, [(F.TL_CTRL_EN.addr n, some v)])
  | .tallyConfigWrite w n off v => some (w, [(F.TL_CTRL_EN.addr n + off.val, some v)])
  | .feed w n v => some (w, [(F.TL_FEED_FEED.addr n, some v)])
  | .tallyClr w n v => some (w, [(F.TL_LOST_CLR.addr n, some v)])
  | _ => none

/-! ## What a device command leaves -/

/-- The command completes. Of the registers of `base` the fields of `l` get their values and no other bit changes; the
rest of the device is that of `base` after `rest`; secure storage and the queue stay. -/
def Does (i : Instr) (s : State) (base : Dev) (l : List (Fld × Nat × Nat)) (rest : Dev → Dev) : Prop :=
  Gives i s fun t =>
    RegsBecome l base t.dev ∧ { t.dev with ctl := base.ctl } = rest base ∧ t.sec = s.sec ∧ t.pending = s.pending

end Sys2Proof.Machine
end

