-- ==== Sys2Proof/Certificates/Slice0/Obligations.lean ====
section
/-!
DEFINITION. What is claimed of the model, one statement each, over the machine and not over a program.
-/
open Sys2Proof Sys2Proof.Machine

/-- O1. When a ready core meets one of these words and its condition holds, the word completes: rd gets the sum or
difference (CMP writes no register), Z and N are those of the result, C is the carry out of an addition and, for a
subtraction, 1 exactly when no borrow occurred, V is 1 exactly when the 24-bit result is not the exact signed one. The
word is then counted and the program goes on (R95, R97). No other register, flag, core, device register or memory
changes. -/
def Obligations.ArithmeticWords : Prop :=
  ∀ (h : Hdr) (s : State) (rd ra rb : BitVec 5) (b : Src), Ready s.dev h → Passes s.dev h →
    let k := here s.dev h
    let x := k.x ra
    let y := b.signed k
    let z := k.x rb
    let c := b1 (k.st.getLsbD 2)
    WordDone (.add h rd ra b) h s
      ((k.put (k.phys rd) (x + y)).flagged
        (fourFlags (x + y) (decide (2 ^ 24 ≤ x.toNat + y.toNat)) (x.toInt + y.toInt))).follow
    ∧ WordDone (.addc h rd ra rb) h s
      ((k.put (k.phys rd) (x + z + BitVec.ofNat 24 c)).flagged
        (fourFlags (x + z + BitVec.ofNat 24 c) (decide (2 ^ 24 ≤ x.toNat + z.toNat + c)) (x.toInt + z.toInt + c))).follow
    ∧ WordDone (.sub h rd ra b) h s
      ((k.put (k.phys rd) (x - y)).flagged (fourFlags (x - y) (decide (y.toNat ≤ x.toNat)) (x.toInt - y.toInt))).follow
    ∧ WordDone (.subb h rd ra rb) h s
      ((k.put (k.phys rd) (x - z - BitVec.ofNat 24 (1 - c))).flagged
        (fourFlags (x - z - BitVec.ofNat 24 (1 - c)) (decide (z.toNat + (1 - c) ≤ x.toNat))
          (x.toInt - z.toInt - (1 - c : Nat)))).follow
    ∧ WordDone (.neg h rd ra) h s
      ((k.put (k.phys rd) (-x)).flagged (fourFlags (-x) (decide (x.toNat = 0)) (-x.toInt))).follow
    ∧ WordDone (.cmp h ra b) h s
      (k.flagged (fourFlags (x - y) (decide (y.toNat ≤ x.toNat)) (x.toInt - y.toInt))).follow

/-- O2. The logic words set Z and N and clear V; MIN and MAX write the signed lesser or greater operand and set Z and N;
ABS leaves 80_0000h as it is and sets V for it alone; MOV, MOVI, MOVU and NOP set no flag, MOVI sign-extends its
immediate, MOVU replaces bits 23 to 15. C stays in every one. Each completes on a ready core whose condition holds,
and nothing else changes. -/
def Obligations.LogicWords : Prop :=
  ∀ (h : Hdr) (s : State) (rd ra rb : BitVec 5) (b : Src) (imm : BitVec 15) (hi : BitVec 9),
    Ready s.dev h → Passes s.dev h →
    let k := here s.dev h
    let x := k.x ra
    let y := b.unsigned k
    let z := k.x rb
    let znv (r : W24) (v : Option Bool) : Flags :=
      { z := some (decide (r.toNat = 0)), n := some (decide (r.toInt < 0)), v := v }
    let lo : W24 := if x.toInt ≤ z.toInt then x else z
    let hi' : W24 := if x.toInt ≤ z.toInt then z else x
    WordDone (.nop h) h s k.follow
    ∧ WordDone (.and h rd ra b) h s ((k.put (k.phys rd) (x &&& y)).flagged (znv (x &&& y) (some false))).follow
    ∧ WordDone (.or h rd ra b) h s ((k.put (k.phys rd) (x ||| y)).flagged (znv (x ||| y) (some false))).follow
    ∧ WordDone (.xor h rd ra b) h s ((k.put (k.phys rd) (x ^^^ y)).flagged (znv (x ^^^ y) (some false))).follow
    ∧ WordDone (.min h rd ra rb) h s ((k.put (k.phys rd) lo).flagged (znv lo none)).follow
    ∧ WordDone (.max h rd ra rb) h s ((k.put (k.phys rd) hi').flagged (znv hi' none)).follow
    ∧ WordDone (.mov h rd ra) h s (k.put (k.phys rd) x).follow
    ∧ WordDone (.abs h rd ra) h s
      ((k.put (k.phys rd) (BitVec.ofInt 24 x.toInt.natAbs)).flagged
        (znv (BitVec.ofInt 24 x.toInt.natAbs) (some (decide (x = 0x800000))))).follow
    ∧ WordDone (.movi h rd imm) h s (k.put (k.phys rd) (BitVec.ofInt 24 imm.toInt)).follow
    ∧ WordDone (.movu h rd hi) h s
      (k.put (k.phys rd) (BitVec.ofNat 24 (hi.toNat * 2 ^ 15 + (k.x rd).toNat % 2 ^ 15))).follow

/-- O3. The amount is the low five bits of rb, or the field. SHL and SHR shift in zeros, ASR the sign; from 24 places on
nothing of the word stays. ROL turns the word by the amount modulo 24. An amount of 0 leaves C; otherwise C is the
last bit shifted out, and for ROL bit 0 of the result. Z and N are those of the result, V stays. The word completes
and nothing else changes. -/
def Obligations.ShiftWords : Prop :=
  ∀ (h : Hdr) (s : State) (rd ra : BitVec 5) (amt : Amt), Ready s.dev h → Passes s.dev h →
    let k := here s.dev h
    let x := (k.x ra).toNat
    let n := match amt with | .reg rb => (k.x rb).toNat % 2 ^ 5 | .imm v => v.toNat
    let done (i : Instr) (r : W24) (c : Bool) : Prop :=
      WordDone i h s ((k.put (k.phys rd) r).flagged
        { z := some (decide (r.toNat = 0)), n := some (decide (r.toInt < 0)), c := if n = 0 then none else some c }).follow
    let rot := BitVec.ofNat 24 (x * 2 ^ (n % 24) + x / 2 ^ (24 - n % 24))
    done (.shl h rd ra amt) (BitVec.ofNat 24 (x * 2 ^ n)) (decide (x * 2 ^ n / 2 ^ 24 % 2 = 1))
    ∧ done (.shr h rd ra amt) (BitVec.ofNat 24 (x / 2 ^ n)) (decide (x / 2 ^ (n - 1) % 2 = 1))
    ∧ done (.asr h rd ra amt) (BitVec.ofInt 24 ((k.x ra).toInt / 2 ^ n)) (decide ((k.x ra).toInt / 2 ^ (n - 1) % 2 = 1))
    ∧ done (.rol h rd ra amt) rot (decide (rot.toNat % 2 = 1))

/-- O4. On a prompter core whose GLENEX.EN is 1 the byte forms work on bits 7 to 0 of their operands, write the 8-bit
result zero-extended (CMP.B writes none), and set Z, N, C and V from the 8-bit operation. They complete on a ready
core whose condition holds, and nothing else changes. -/
def Obligations.ByteWords : Prop :=
  ∀ (h : Hdr) (s : State) (rd ra rb : BitVec 5), Ready s.dev h → Passes s.dev h →
    17 ≤ h.core.val → fld s.dev F.PC_GLENEX_EN (h.core.val - 17) = 1 →
    let k := here s.dev h
    let x : BitVec 8 := BitVec.ofNat 8 (k.x ra).toNat
    let y : BitVec 8 := BitVec.ofNat 8 (k.x rb).toNat
    let c := b1 (k.st.getLsbD 2)
    let word (r : BitVec 8) (f : Flags) : Core := ((k.put (k.phys rd) (BitVec.ofNat 24 r.toNat)).flagged f).follow
    let sum := BitVec.ofNat 8 (x.toNat + y.toNat)
    let sumc := BitVec.ofNat 8 (x.toNat + y.toNat + c)
    let dif := BitVec.ofInt 8 (x.toInt - y.toInt)
    let difb := BitVec.ofInt 8 (x.toInt - y.toInt - (1 - c : Nat))
    WordDone (.addB h rd ra rb) h s
      (word sum (fourFlags sum (decide (256 ≤ x.toNat + y.toNat)) (x.toInt + y.toInt)))
    ∧ WordDone (.addcB h rd ra rb) h s
      (word sumc (fourFlags sumc (decide (256 ≤ x.toNat + y.toNat + c)) (x.toInt + y.toInt + c)))
    ∧ WordDone (.subB h rd ra rb) h s
      (word dif (fourFlags dif (decide (y.toNat ≤ x.toNat)) (x.toInt - y.toInt)))
    ∧ WordDone (.subbB h rd ra rb) h s
      (word difb (fourFlags difb (decide (y.toNat + (1 - c) ≤ x.toNat)) (x.toInt - y.toInt - (1 - c : Nat))))
    ∧ WordDone (.cmpB h ra rb) h s
      (k.flagged (fourFlags dif (decide (y.toNat ≤ x.toNat)) (x.toInt - y.toInt))).follow

/-- O5. The product is exact, doubled in fractional mode. MPY writes it; MAC and MSU form the exact sum and write it,
saturated or wrapped under ST.ACCMODE, with AV when it left 56 bits; MACR then rounds convergently at bit 24 with its
low bits cleared, and past the top writes 7F_FFFF_FF00_0000h or wraps with AV. AG is set when the written value leaves
48 bits. SCLA right shifts arithmetically by BE; left it is exact up to the accumulator's redundant sign bits or on
zero, and otherwise saturates or wraps with AV; SCLA leaves AG. An engine's sticky AV follows AV. Nothing else
changes. -/
def Obligations.SumWords : Prop :=
  ∀ (h : Hdr) (s : State) (ad : BitVec 2) (xs xt : BitVec 5) (int : Bool), Ready s.dev h → Passes s.dev h →
    let k := here s.dev h
    let wrap := k.st.getLsbD 9
    let p : Int := (k.x xs).toInt * (k.x xt).toInt * (if int then 1 else 2)
    let a : Int := (Tab.get 0 k.acc ad.toNat).toInt
    let summed (i : Instr) (sum : Int) : Prop :=
      SumDone i h s (k.summed ad.toNat (accOf wrap sum) (!inAcc sum)).follow (!inAcc sum)
    let r := roundAt24 .conv (accOf wrap (a + p)).toInt * 2 ^ 24
    let rw_ : W56 := if r < 2 ^ 55 then BitVec.ofInt 56 r else if wrap then 0x80000000000000 else 0x7FFFFFFF000000
    let rv := !inAcc (a + p) || decide (2 ^ 55 ≤ r)
    summed (.mpy h ad xs xt int) p
    ∧ summed (.mac h ad xs xt int) (a + p)
    ∧ summed (.msu h ad xs xt int) (a - p)
    ∧ SumDone (.macr h ad xs xt int) h s (k.summed ad.toNat rw_ rv).follow rv
    ∧ SumDone (.scla h ad true) h s
      { k with acc := Tab.set 0 k.acc ad.toNat (BitVec.ofInt 56 (a / 2 ^ k.be.toNat)) }.follow false
    ∧ (∀ e, SignBits (Tab.get 0 k.acc ad.toNat) e →
        let fits := decide (k.be.toNat ≤ e) || decide (a = 0)
        let v : W56 := if fits || wrap then BitVec.ofInt 56 (a * 2 ^ k.be.toNat) 
          else if a < 0 then BitVec.ofInt 56 (-(2 ^ 55)) else BitVec.ofInt 56 (2 ^ 55 - 1)
        SumDone (.scla h ad false) h s
          { k with
            acc := Tab.set 0 k.acc ad.toNat v
            st := if fits then k.st else k.st ||| 0x10 }.follow (!fits))

/-- O6. CLRA clears the accumulators its mask selects. MOVA rounds the accumulator at bit 24 by its rounding and saturates
it to 24 bits unless told not to, with V set exactly when it saturates and Z and N of the result, and leaves the
accumulator. EXP writes the count of redundant sign bits e; NORM shifts the accumulator by e - 8 and writes that
shift; BXD sets BE to e, or lowers it to e. Nothing else changes. -/
def Obligations.AccumulatorWords : Prop :=
  ∀ (h : Hdr) (s : State) (ad : BitVec 2) (rd : BitVec 5) (mask : BitVec 4) (e : Nat), Ready s.dev h → Passes s.dev h →
    SignBits (Tab.get 0 (here s.dev h).acc ad.toNat) e →
    let k := here s.dev h
    let a : Int := (Tab.get 0 k.acc ad.toNat).toInt
    let moved (rnd : BitVec 2) (r : Rnd) (nosat : Bool) : Prop :=
      let t := roundAt24 r a
      let sat := !nosat && (decide (0x7FFFFF < t) || decide (t < -0x800000))
      let v : W24 := if sat then (if t < 0 then 0x800000 else 0x7FFFFF) else BitVec.ofInt 24 t
      WordDone (.mova h rd ad rnd nosat) h s ((k.put (k.phys rd) v).flagged
        { z := some (decide (v.toNat = 0)), n := some (decide (v.toInt < 0)), v := some sat }).follow
    (∀ nosat, moved 0 .conv nosat ∧ moved 1 .trunc nosat ∧ moved 2 .halfup nosat)
    ∧ WordDone (.clra h mask) h s
      { k with
        acc := (List.range 4).foldl (fun t i => if mask.getLsbD i then Tab.set 0 t i 0 else t) k.acc }.follow
    ∧ WordDone (.exp h rd ad) h s (k.put (k.phys rd) (BitVec.ofNat 24 e)).follow
    ∧ WordDone (.norm h ad rd) h s
      ({ k with
          acc := Tab.set 0 k.acc ad.toNat
            (if 8 ≤ e then BitVec.ofInt 56 (a * 2 ^ (e - 8)) else BitVec.ofInt 56 (a / 2 ^ (8 - e)))
        }.put (k.phys rd) (BitVec.ofInt 24 ((e : Int) - 8))).follow
    ∧ WordDone (.bxd h ad true) h s { k with be := BitVec.ofNat 6 e }.follow
    ∧ WordDone (.bxd h ad false) h s { k with be := BitVec.ofNat 6 (min k.be.toNat e) }.follow

/-- O7. MAC2 forms both exact sums from the registers and accumulators as they stood and writes both under ST.ACCMODE. AG
and AV follow both sums (notes/assumptions/11); the engine's sticky AV follows AV. Where both halves name one
accumulator the second result stands and the core's clash counter rises by one, held at 65535; otherwise no counter
changes. No other register changes. -/
def Obligations.DoubleSumWord : Prop :=
  ∀ (h : Hdr) (s : State) (a1 a2 : BitVec 2) (s1 t1 s2 t2 : BitVec 3) (m1 m2 int : Bool),
    Ready s.dev h → Passes s.dev h →
    let k := here s.dev h
    let wrap := k.st.getLsbD 9
    let p (x y : BitVec 3) : Int := (k.x (short x)).toInt * (k.x (short y)).toInt * (if int then 1 else 2)
    let a (i : BitVec 2) : Int := (Tab.get 0 k.acc i.toNat).toInt
    let sum1 := if m1 then a a1 - p s1 t1 else a a1 + p s1 t1
    let sum2 := if m2 then a a2 - p s2 t2 else a a2 + p s2 t2
    let pos := posOf s.dev h.core.val
    let av := !inAcc sum1 || !inAcc sum2
    WordGives (.mac2 h a1 s1 t1 a2 s2 t2 m1 m2 int) h s
      ((k.summed a1.toNat (accOf wrap sum1) (!inAcc sum1)).summed a2.toNat (accOf wrap sum2) (!inAcc sum2)).follow
      fun d =>
        { d with cores := s.dev.cores, ctl := s.dev.ctl } = s.dev
        ∧ (isPc h.core.val = false →
            fld d F.SE_STICKY_AV pos = (if av then 1 else fld s.dev F.SE_STICKY_AV pos)
            ∧ fld d F.SE_DUET_CLASH_COUNT pos
              = (if a1 = a2 then min 65535 (fld s.dev F.SE_DUET_CLASH_COUNT pos + 1)
                 else fld s.dev F.SE_DUET_CLASH_COUNT pos)
            ∧ SameRegs [F.SE_STICKY_AV.addr pos, F.SE_DUET_CLASH_COUNT.addr pos] s.dev d)
        ∧ (isPc h.core.val = true →
            fld d F.PC_DUET_CLASH_COUNT (h.core.val - 17)
              = (if a1 = a2 then min 65535 (fld s.dev F.PC_DUET_CLASH_COUNT (h.core.val - 17) + 1)
                 else fld s.dev F.PC_DUET_CLASH_COUNT (h.core.val - 17))
            ∧ SameRegs [F.PC_DUET_CLASH_COUNT.addr (h.core.val - 17)] s.dev d)

/-- O8. MFS writes rd with the special register, zero-extended: ST with the depth of the loop stack, lk, the top level of
the loop stack (zero when it is empty), RPC, BE, BK0 to BK3, the predicates, WST, the parts of the accumulators with
the guard part sign-extended; on a prompter also the registers of the oldest frame, the saved registers of the context
in service (zero in the background) and TCAUSE. Nothing else changes. -/
def Obligations.SpecialReadWord : Prop :=
  ∀ (h : Hdr) (s : State) (rd : BitVec 5), Ready s.dev h → Passes s.dev h →
    let k := here s.dev h
    let reads (sn : Nat) (v : W24) : Prop := WordDone (.mfs h rd (BitVec.ofNat 6 sn)) h s (k.put (k.phys rd) v).follow
    reads 0 ((k.st &&& 0xF8FFFF) ||| (BitVec.ofNat 24 k.loops.length <<< 16))
    ∧ reads 1 k.lk
    ∧ (k.loops = [] → reads 2 0 ∧ reads 3 0 ∧ reads 4 0)
    ∧ (∀ l ∈ k.loops.take 1, reads 2 l.ls ∧ reads 3 l.le ∧ reads 4 l.lc)
    ∧ reads 5 (BitVec.ofNat 24 k.rpc.toNat)
    ∧ reads 6 (BitVec.ofNat 24 k.be.toNat)
    ∧ (∀ i < 4, reads (7 + i) (BitVec.ofNat 24 (Tab.get 0 k.bk i).toNat))
    ∧ reads 11 (BitVec.ofNat 24 k.preds.toNat)
    ∧ reads 12 (BitVec.ofNat 24 (k.res % 16 * 256 + (k.cwp + 18 - k.res) % 15 * 16 + k.cwp % 16))
    ∧ (∀ i < 4,
        reads (16 + 3 * i) (BitVec.ofNat 24 (Tab.get 0 k.acc i).toNat)
        ∧ reads (17 + 3 * i) (BitVec.ofNat 24 ((Tab.get 0 k.acc i).toNat / 2 ^ 24))
        ∧ reads (18 + 3 * i) (BitVec.ofInt 24 ((Tab.get 0 k.acc i).toInt / 2 ^ 48)))
    ∧ (isPc h.core.val = true →
        (∀ i < 8, reads (32 + i) (Tab.get 0 k.xs (8 + 8 * ((k.cwp + 18 - k.res) % 15) + i)))
        ∧ reads 43 k.tcause
        ∧ (∀ v ∈ [({}, 0), (k.c0, 1), (k.c1, 2), (k.ct, 3)], k.ctx = v.2 →
            reads 40 v.1.ilk ∧ reads 41 v.1.ist ∧ reads 42 (BitVec.ofNat 24 v.1.irpc.toNat)))

/-- O9. MTS writes the register with the low bits of its source: lk, BE, BK0 to BK3, the predicates, a part of an
accumulator (AG and AV stay), the writable bits of ST, and on a prompter the registers of the oldest frame, RES by
SPILL or FILL, and the saved registers of the context in service (no effect in the background). A write of LS, LE or
LC changes the top loop level from the next word. A BE of 56 to 63 is taken as 55, and this, RPC, TCAUSE, a level of
an empty loop stack, and a SPILL or FILL that is refused set UND. A source that sets WOV, AV, LOV or UND in an
engine's ST sets the sticky copy, the first LOV being posted and the last UND recorded. Nothing else changes. That the
end check of the MTS's own word sees the level as it was, that its write is lost where that check closes the level,
and that SPILL acts before FILL are choices of the model (notes/assumptions/7); the case of R130 that UND_PC shows for
ST is left open (notes/assumptions/12). -/
def Obligations.SpecialWriteWord : Prop :=
  ∀ (h : Hdr) (s : State) (rs : BitVec 5), Ready s.dev h → Passes s.dev h →
    let k := here s.dev h
    let x := k.x rs
    let done (sn : Nat) (k' : Core) : Prop := WordDone (.mts h rs (BitVec.ofNat 6 sn)) h s k'.follow
    let mask : W24 := if isPc h.core.val then 0xFFF else 0x3FF
    let st := (k.st &&& ~~~mask) ||| (x &&& mask)
    let pos := posOf s.dev h.core.val
    let part (i j : Nat) : W56 := BitVec.ofNat 56
      (let a := (Tab.get 0 k.acc i).toNat
       if j = 0 then a / 2 ^ 24 * 2 ^ 24 + x.toNat
       else if j = 1 then a / 2 ^ 48 * 2 ^ 48 + x.toNat * 2 ^ 24 + a % 2 ^ 24
       else x.toNat % 256 * 2 ^ 48 + a % 2 ^ 48)
    let k0 : Core := { k with st := st, und := k.und || x.getLsbD 6 }
    let sticky : List (Fld × Nat × Nat) :=
      (if x.getLsbD 8 then [(F.SE_STICKY_WOV, pos, 1)] else []) ++ (if x.getLsbD 4 then [(F.SE_STICKY_AV, pos, 1)] else [])
        ++ (if x.getLsbD 7 then [(F.SE_STICKY_LOV, pos, 1)] else [])
    let lov : Dev :=
      if x.getLsbD 7 = true ∧ fld s.dev F.SE_STICKY_LOV pos = 0 then post s.dev 0x12 pos k.pc.toNat 0 else s.dev
    let undefined (sn : Nat) (k' : Core) : Prop :=
      UndDone (.mts h rs (BitVec.ofNat 6 sn)) h s k'.undefined.follow 4 k.pc.toNat
    (isPc h.core.val = true → done 0 k0)
    ∧ (isPc h.core.val = false → x.getLsbD 6 = false → WordGives (.mts h rs 0) h s k0.follow fun d =>
        RegsBecome sticky s.dev d ∧ { d with cores := s.dev.cores, ctl := s.dev.ctl } = lov)
    ∧ (isPc h.core.val = false → x.getLsbD 6 = true → WordGives (.mts h rs 0) h s k0.follow fun d =>
        let cause := fld d F.SE_UND_PC_CAUSE pos
        RegsBecome
            (sticky ++ [(F.SE_STICKY_UND, pos, 1), (F.SE_UND_PC_VALID, pos, 1), (F.SE_UND_PC_CAUSE, pos, cause),
              (F.SE_UND_PC_PC, pos, k.pc.toNat)]) s.dev d
          ∧ { d with cores := s.dev.cores, ctl := s.dev.ctl, led := s.dev.led } = s.dev)
    ∧ done 1 { k with lk := x }
    ∧ (k.loops ≠ [] →
        let f := k.follow
        (f.loops.length = k.loops.length → ∀ l ∈ f.loops.take 1,
          let t := f.loops.tail
          WordDone (.mts h rs 2) h s { f with loops := { l with ls := x } :: t }
          ∧ WordDone (.mts h rs 3) h s { f with loops := { l with le := x } :: t }
          ∧ WordDone (.mts h rs 4) h s { f with loops := { l with lc := x } :: t })
        ∧ (f.loops.length ≠ k.loops.length → ∀ n ∈ [2, 3, 4], WordDone (.mts h rs (BitVec.ofNat 6 n)) h s f))
    ∧ (k.loops = [] → ∀ n ∈ [2, 3, 4], undefined n k)
    ∧ undefined 5 k
    ∧ (x.toNat % 64 < 56 → done 6 { k with be := BitVec.ofNat 6 x.toNat })
    ∧ (56 ≤ x.toNat % 64 → undefined 6 { k with be := 55 })
    ∧ (isPc h.core.val = false →
        (x.getLsbD 12 = true ∨ x.getLsbD 13 = true → undefined 12 k)
        ∧ (x.getLsbD 12 = false → x.getLsbD 13 = false → done 12 k))
    ∧ (∀ i < 4, done (7 + i) { k with bk := Tab.set 0 k.bk i (BitVec.ofNat 10 x.toNat) })
    ∧ done 11 { k with preds := BitVec.ofNat 8 x.toNat }
    ∧ (∀ i < 4, ∀ j < 3, done (16 + 3 * i + j) { k with acc := Tab.set 0 k.acc i (part i j) })
    ∧ (isPc h.core.val = true →
        (x.getLsbD 12 = true → x.getLsbD 13 = false → 3 < k.res → done 12 { k with res := k.res - 1 })
        ∧ (x.getLsbD 12 = false → x.getLsbD 13 = true → k.res < 15 → done 12 { k with res := k.res + 1 })
        ∧ (x.getLsbD 12 = false → x.getLsbD 13 = false → done 12 k)
        ∧ (x.getLsbD 12 = true → x.getLsbD 13 = true → 3 < k.res → k.res ≤ 15 → done 12 k)
        ∧ (x.getLsbD 12 = true → x.getLsbD 13 = true → k.res ≤ 3 → undefined 12 { k with res := k.res + 1 })
        ∧ (x.getLsbD 12 = true → x.getLsbD 13 = false → k.res ≤ 3 → undefined 12 k)
        ∧ (x.getLsbD 12 = false → x.getLsbD 13 = true → 15 ≤ k.res → undefined 12 k)
        ∧ undefined 43 k
        ∧ (∀ i < 8, done (32 + i) (k.put (8 + 8 * ((k.cwp + 18 - k.res) % 15) + i) x))
        ∧ (k.ctx = 0 → done 40 k ∧ done 41 k ∧ done 42 k)
        ∧ (k.ctx = 1 → done 40 { k with c0 := { k.c0 with ilk := x } } ∧ done 41 { k with c0 := { k.c0 with ist := x } }
            ∧ done 42 { k with c0 := { k.c0 with irpc := BitVec.ofNat 13 x.toNat } })
        ∧ (k.ctx = 2 → done 40 { k with c1 := { k.c1 with ilk := x } } ∧ done 41 { k with c1 := { k.c1 with ist := x } }
            ∧ done 42 { k with c1 := { k.c1 with irpc := BitVec.ofNat 13 x.toNat } })
        ∧ (k.ctx = 3 → done 40 { k with ct := { k.ct with ilk := x } } ∧ done 41 { k with ct := { k.ct with ist := x } }
            ∧ done 42 { k with ct := { k.ct with irpc := BitVec.ofNat 13 x.toNat } }))

/-- O10. A load reads the word at its computed address and opens its delay: three words for the Market, a window, a byte
or the program store, two for a pocket or local data word; a load into x0 keeps nothing. The Market word must carry no
error and be no word another engine wrote in the tick. A byte load keeps bits 7 to 0. No memory word and no register
of the device changes. -/
def Obligations.LoadWords : Prop :=
  ∀ (h : Hdr) (s : State) (rd xa : BitVec 5) (bk : BitVec 2) (d8 : BitVec 8) (d10 : BitVec 10) (w : WinRef),
    Ready s.dev h → Passes s.dev h →
    let k := here s.dev h
    let pc := isPc h.core.val
    let a := (Tab.get 0 k.bk bk.toNat).toNat * 65536 + (k.x xa + d8.signExtend 24).toNat % 65536
    let e := (k.x xa + d10.signExtend 24).toNat
    let p := e % (if pc then 65536 else 16384)
    let key := if pc then localKey (h.core.val - 17) p else pktKey (posOf s.dev h.core.val) p
    let b := fld s.dev F.PC_GLENEX_BANK (h.core.val - 17) * 65536 + e % 65536
    let wa := winAddr s.dev (w.num k) (w.off k)
    let gkey := progKey (h.core.val - 17) ((k.x xa + d8.signExtend 24).toNat % 131072 / 2)
    let after (n : Nat) (v : W24) : Core := (k.issue (k.phys rd) n v (!h.late)).follow
    (Readable s.dev h a →
      WordGives (.ld h 0 rd xa bk d8) h s (after 3 (Tab.get 0 s.dev.mkt a)) (MarketRead s.dev))
    ∧ ((pc = true → h.upset = 0 ∧ Tab.get 0 s.dev.gecc gkey = 0) →
        WordDone (.ld h 1 rd xa 0 d8) h s (after 3 (progHalf s.dev h.core.val (k.x xa + d8.signExtend 24).toNat)))
    ∧ (h.upset = 0 → Tab.get 0 s.dev.pecc key = 0 →
        WordGives (.ldp h rd xa d10) h s (after 2 (Tab.get 0 s.dev.pkt key)) fun d =>
          SameTab 0 s.dev.pecc d.pecc
            ∧ { d with cores := s.dev.cores, pecc := s.dev.pecc } = s.dev)
    ∧ (pc = true → fld s.dev F.PC_GLENEX_EN (h.core.val - 17) = 1 → Readable s.dev h b →
        WordGives (.ldb h rd xa d10) h s (after 3 (Tab.get 0 s.dev.mkt b &&& 0xFF)) (MarketRead s.dev))
    ∧ (Readable s.dev h wa →
        WordGives (.ldw h rd w) h s (after 3 (Tab.get 0 s.dev.mkt wa)) (MarketRead s.dev))

/-- O11. A store writes its source to the word at its computed address, with valid check bits, in the Market, a pocket,
local data, the byte space (bits 7 to 0, the rest cleared) or through a window. Every other word of every memory reads
as before, and no register of the device changes. -/
def Obligations.StoreWords : Prop :=
  ∀ (h : Hdr) (s : State) (rs xa : BitVec 5) (bk : BitVec 2) (d8 : BitVec 8) (d10 : BitVec 10) (w : WinRef),
    Ready s.dev h → Passes s.dev h →
    let k := here s.dev h
    let pc := isPc h.core.val
    let a := (Tab.get 0 k.bk bk.toNat).toNat * 65536 + (k.x xa + d8.signExtend 24).toNat % 65536
    let e := (k.x xa + d10.signExtend 24).toNat
    let p := e % (if pc then 65536 else 16384)
    let key := if pc then localKey (h.core.val - 17) p else pktKey (posOf s.dev h.core.val) p
    let b := fld s.dev F.PC_GLENEX_BANK (h.core.val - 17) * 65536 + e % 65536
    let wa := winAddr s.dev (w.num k) (w.off k)
    WordGives (.st h 0 rs xa bk d8) h s k.follow (fun d => MarketWritten s.dev d a (k.x rs))
    ∧ WordGives (.stp h rs xa d10) h s k.follow (fun d =>
        Tab.get 0 d.pkt key = k.x rs ∧ Tab.get 0 d.pecc key = 0 ∧ OnlyAt 0 key s.dev.pkt d.pkt
          ∧ OnlyAt 0 key s.dev.pecc d.pecc
          ∧ { d with cores := s.dev.cores, pkt := s.dev.pkt, pecc := s.dev.pecc } = s.dev)
    ∧ (pc = true → fld s.dev F.PC_GLENEX_EN (h.core.val - 17) = 1 →
        WordGives (.stb h rs xa d10) h s k.follow fun d =>
          MarketWritten s.dev d b (BitVec.ofNat 24 ((k.x rs).toNat % 256)))
    ∧ WordGives (.stw h rs w) h s k.follow (fun d => MarketWritten s.dev d wa (k.x rs))

/-- O12. On a local bit BSET, BCLR, BTGL and BPUT act at once; BTST sets Z to the complement of a local bit, or of a Board
bit as at the last posting, and BMOV copies it into a predicate; PAND, POR and PXOR combine two predicates, each
inverted where its bit says so. Nothing else changes. -/
def Obligations.LocalBitWords : Prop :=
  ∀ (h : Hdr) (s : State) (b : BitRef) (a : Nat) (p pa pb : BitVec 3) (na nb : Bool), Ready s.dev h → Passes s.dev h →
    b.bad = false →
    let k := here s.dev h
    let bit := Tab.get false k.loc a
    let put (v : Bool) : Core := { k with loc := Tab.set false k.loc a v }.follow
    let pred (i : BitVec 3) (v : Bool) : Core :=
      { k with preds := if v then k.preds ||| (1#8 <<< i.toNat) else k.preds &&& ~~~(1#8 <<< i.toNat) }.follow
    let x := k.preds.getLsbD pa.toNat != na
    let y := k.preds.getLsbD pb.toNat != nb
    (b.at k = .localBit a →
      WordDone (.bset h b) h s (put true) ∧ WordDone (.bclr h b) h s (put false) ∧ WordDone (.btgl h b) h s (put (!bit))
      ∧ WordDone (.bput h p b) h s (put (k.preds.getLsbD p.toNat))
      ∧ WordDone (.btst h b) h s (k.flagged { z := some (!bit) }).follow
      ∧ WordDone (.bmov h p b) h s (pred p bit))
    ∧ (b.at k = .board a →
      WordDone (.btst h b) h s (k.flagged { z := some (!Tab.get false s.dev.brd (a % 65536)) }).follow
      ∧ WordDone (.bmov h p b) h s (pred p (Tab.get false s.dev.brd (a % 65536))))
    ∧ WordDone (.pand h p pa pb na nb) h s (pred p (x && y))
    ∧ WordDone (.por h p pa pb na nb) h s (pred p (x || y))
    ∧ WordDone (.pxor h p pa pb na nb) h s (pred p (x != y))

/-- O13. While tick edges arrive and the core's posting queue has room, a write of a Board bit joins the end of the core's
queue and no Board bit changes; with the queue full the core holds the word and issues nothing. While no tick edges
arrive the write is applied at once. No other queue, Board bit, register or memory changes. -/
def Obligations.BoardBitWords : Prop :=
  ∀ (h : Hdr) (s : State) (b : BitRef) (a : Nat) (p : BitVec 3), Ready s.dev h → Passes s.dev h → b.bad = false →
    b.at (here s.dev h) = .board a →
    let k := here s.dev h
    let q := if isPc h.core.val then h.core.val + 3 else posOf s.dev h.core.val
    let bit := Tab.get false s.dev.brd (a % 65536)
    let queued (i : Instr) (op : Nat) (v : Bool) : Prop :=
      (s.dev.ticking = false → WordGives i h s k.follow fun d =>
          Tab.get false d.brd (a % 65536) = v ∧ OnlyAt false (a % 65536) s.dev.brd d.brd
            ∧ { d with cores := s.dev.cores, brd := s.dev.brd } = s.dev)
      ∧ (s.dev.ticking = true → boardRoom s.dev q = true →
        WordGives i h s k.follow fun d =>
          Tab.get [] d.bq q = Tab.get [] s.dev.bq q ++ [{ op := op, base := a, mask := 1 }]
            ∧ OnlyAt [] q s.dev.bq d.bq ∧ { d with cores := s.dev.cores, bq := s.dev.bq } = s.dev)
      ∧ (boardRoom s.dev q = false →
        WordDone i h s { (core s.dev h.core.val).begin with hold := .board })
    queued (.bset h b) 1 true ∧ queued (.bclr h b) 2 false ∧ queued (.btgl h b) 3 (!bit)
      ∧ queued (.bput h p b) (if k.preds.getLsbD p.toNat then 1 else 2) (k.preds.getLsbD p.toNat)

/-- O14. BRA goes to the address its offset names, modulo the program store; CALL and CALLR also write lk with the
following word and slide the window forward, RET slides it back and goes to lk. Any repeat ends and the loop stack
stays. CALL needs fewer than 15 resident frames on an engine and fewer than 14 on a prompter, RET more than three.
Nothing else changes. -/
def Obligations.BranchWords : Prop :=
  ∀ (h : Hdr) (s : State) (off : BitVec 15) (xs : BitVec 5), Ready s.dev h → Passes s.dev h →
    let k := here s.dev h
    let size := storeSize h.core.val
    let rel := (((k.pc.toNat : Int) + off.toInt) % (size : Int)).toNat
    let called (t : Nat) : Core :=
      { k.goes t with
        lk := BitVec.ofNat 24 ((k.pc.toNat + 1) % size), cwp := (k.cwp + 1) % 15, res := k.res + 1 }
    WordDone (.bra h off) h s (k.goes rel)
    ∧ ((if isPc h.core.val then k.res < 14 else k.res ≠ 15) →
        WordDone (.call h off) h s (called rel) ∧ WordDone (.callr h xs) h s (called ((k.x xs).toNat % size)))
    ∧ (3 < k.res →
        WordDone (.ret h) h s { k.goes (k.lk.toNat % size) with cwp := (k.cwp + 14) % 15, res := k.res - 1 })

/-- O15. A LOOP or LOOPR whose end lies after it pushes a level with the following word, the end and the count, or, with
four levels held, sets LOV, whose first sticky setting on an engine is posted; with a count of 0 it continues behind
the end. An end that does not lie after it sets UND and nothing is pushed. LEAVE pops the top level before the end
check and sets UND where there is none. REP and REPR of 1 to 4096 latch the count and go to the following word, more
than 4096 count as 4096 with UND, and a count of 0 skips that word, whose end check still runs; a prefix that is
repeated or stands at the end of the top level is a NOP with UND. Nothing else changes. That a LOOP of count 0 makes
no end check at its own address, and that a prefix at the end of a lower level alone latches its count, are choices of
the model (notes/assumptions/7). -/
def Obligations.LoopWords : Prop :=
  ∀ (h : Hdr) (s : State) (count : BitVec 12) (e8 : BitVec 8) (xc : BitVec 5) (e15 : BitVec 15) (n : BitVec 13),
    Ready s.dev h → Passes s.dev h →
    let k := here s.dev h
    let pc := k.pc.toNat
    let size := storeSize h.core.val
    let le (e : Int) : Nat := (((pc : Int) + e) % (size : Int)).toNat
    let pos := posOf s.dev h.core.val
    let full : Core := { k with st := k.st ||| 0x80 }
    let looped (i : Instr) (c le : Nat) : Prop :=
      (le ≤ pc → UndDone i h s k.undefined.follow 4 pc)
      ∧ (pc < le →
        (c = 0 → le + 1 < size → WordDone i h s (k.goes (le + 1)))
        ∧ (0 < c → k.loops.length < 4 → pc + 1 < size →
            WordDone i h s
              { k with
                loops := { ls := BitVec.ofNat 24 (pc + 1), le := BitVec.ofNat 24 le, lc := BitVec.ofNat 24 c } :: k.loops
              }.follow)
        ∧ (0 < c → 4 ≤ k.loops.length →
            (isPc h.core.val = true → WordDone i h s full.follow)
            ∧ (isPc h.core.val = false → WordGives i h s full.follow fun d =>
                RegsBecome [(F.SE_STICKY_LOV, pos, 1)] s.dev d
                  ∧ { d with cores := s.dev.cores, ctl := s.dev.ctl }
                    = (if fld s.dev F.SE_STICKY_LOV pos = 0 then post s.dev 0x12 pos pc 0 else s.dev))))
    let latched (n : Nat) : Core :=
      { k.counted with rpc := BitVec.ofNat 13 n, prefixed := true, pc := BitVec.ofNat 16 (pc + 1) }
    let repeated (i : Instr) (c : Nat) : Prop :=
      ((core s.dev h.core.val).rpc ≠ 0 ∨ (∃ l ∈ k.loops.take 1, l.le.toNat = pc) →
        UndDone i h s { k.undefined.follow with prefixed := true } 4 pc)
      ∧ ((core s.dev h.core.val).rpc = 0 → (∀ l ∈ k.loops.take 1, l.le.toNat ≠ pc) → pc + 1 < size →
        (0 < c → c ≤ 4096 → WordDone i h s (latched c))
        ∧ (4096 < c → UndDone i h s (latched 4096).undefined 4 pc)
        ∧ (c = 0 → (endCheck (pc + 1) k.loops (pc + 2)).2.1 < size →
            WordDone i h s
              { k.counted with
                loops := (endCheck (pc + 1) k.loops (pc + 2)).1, prefixed := true
                pc := BitVec.ofNat 16 (endCheck (pc + 1) k.loops (pc + 2)).2.1 }))
    looped (.loop h count e8) count.toNat (le e8.toInt)
    ∧ looped (.loopr h xc e15) (k.x xc).toNat (le e15.toInt)
    ∧ (k.loops ≠ [] → (endCheck pc k.loops.tail (pc + 1)).2.1 < size →
        WordDone (.leave h) h s { k with loops := k.loops.tail }.follow)
    ∧ (k.loops = [] → UndDone (.leave h) h s k.undefined.follow 4 pc)
    ∧ repeated (.rep h n) n.toNat
    ∧ repeated (.repr h xc) (k.x xc).toNat

/-- O16. END ends the engine's run, discards loads in flight, and leaves the engine's slack: the time from END to the cut-
off. On a prompter TRAP enters trap context at 0040h with TCAUSE code 4 and its number, saving the word's own address,
ST and the remaining repetitions, completing loads and sliding the window; RETI restores the context's copy of PC, ST
(but SEC) and RPC and slides the window back; WAIT ends in sequence and stops the core until an interrupt is pending.
That RETI keeps SEC and restores zeros in the background, that RES = 15 stays at an entry, and that a TRAP's entry
clears RPC are choices of the model (notes/assumptions/7). -/
def Obligations.EndAndContextWords : Prop :=
  ∀ (h : Hdr) (s : State) (num : BitVec 4), Ready s.dev h → Passes s.dev h →
    let k := here s.dev h
    (isPc h.core.val = false →
      WordGives (.endProg h) h s { k.counted with run := .ended, loads := [], hold := .free, rpc := 0 } fun d =>
        fld d F.SE_SLACK_LAST (posOf s.dev h.core.val)
            = fld s.dev F.TICK_CUTOFF_EFF_EFF 0 - h.ns.toNat
          ∧ fld d F.SE_SLACK_OVR (posOf s.dev h.core.val) = 0)
    ∧ (isPc h.core.val = true →
        (k.ctx ≠ 3 →
          WordDone (.trap h num) h s
            { k.counted.finishLoads with
              ct := { ilk := BitVec.ofNat 24 k.pc.toNat, ist := k.stWord, irpc := (core s.dev h.core.val).rpc }
              cwp := (k.cwp + 1) % 15, res := satTo 15 (k.res + 1), rpc := 0
              st := (k.st &&& ~~~0x3C00) ||| 0x3000, pc := 0x40
              tcause := BitVec.ofNat 24 (4 * 2 ^ 20 + num.toNat) })
        ∧ (3 < k.res →
            WordDone (.reti h) h s
              { k.counted with
                rpc := k.saved.irpc, st := (k.saved.ist &&& 0x3FFF) ||| (k.st &&& 0x4000)
                cwp := (k.cwp + 14) % 15, res := k.res - 1, pc := BitVec.ofNat 16 k.saved.ilk.toNat })
        ∧ WordDone (.wait h) h s { k.follow with run := .waiting })

/-- O17. On a prompter a CALL or CALLR that would take the frame held back traps to 0020h with code 2 and WST, and a RET
or RETI with three resident frames to 0030h with code 3, before either does anything: the saved PC is the word's own.
On an engine a CALL or CALLR with 15 resident frames ends the run as an overrun that OVR_STAT counts with cause WOV:
lk and the window stay, WOV and its sticky copy are set. On an engine a RET with three resident frames ends the
program as END does and sets UND, and so does a word that passes the last word of the store, UND_PC naming 16,383; a
prompter's PC wraps to 0 with UND. That RETI with RES = 3 underflows as a RET does is the model's choice
(notes/assumptions/7). -/
def Obligations.WindowTraps : Prop :=
  ∀ (h : Hdr) (s : State) (off : BitVec 15) (xs : BitVec 5), Passes s.dev h →
    let k := here s.dev h
    let pos := posOf s.dev h.core.val
    let slack := fld s.dev F.TICK_CUTOFF_EFF_EFF 0 - h.ns.toNat
    let past := endCheck k.pc.toNat k.loops (k.pc.toNat + 1)
    let trapped (code : Nat) : Core :=
      { k.counted.finishLoads with
        ct := { ilk := BitVec.ofNat 24 k.pc.toNat, ist := k.stWord, irpc := (core s.dev h.core.val).rpc }
        cwp := (k.cwp + 1) % 15, res := satTo 15 (k.res + 1), rpc := 0
        st := (k.st &&& ~~~0x3C00) ||| 0x3000, pc := BitVec.ofNat 16 (code * 16)
        tcause := BitVec.ofNat 24 (code * 2 ^ 20) ||| (k.wst &&& 0xFFFFF) }
    (Ready s.dev h → isPc h.core.val = true → k.ctx ≠ 3 →
      (14 ≤ k.res → WordDone (.call h off) h s (trapped 2) ∧ WordDone (.callr h xs) h s (trapped 2))
      ∧ (k.res ≤ 3 → WordDone (.ret h) h s (trapped 3) ∧ WordDone (.reti h) h s (trapped 3)))
    ∧ (Ready s.dev h → isPc h.core.val = false → k.res = 15 →
        ∀ i ∈ [Instr.call h off, Instr.callr h xs], Gives i s fun t =>
          (core t.dev h.core.val).run ≠ .on ∧ (core t.dev h.core.val).lk = k.lk ∧ (core t.dev h.core.val).cwp = k.cwp
            ∧ (core t.dev h.core.val).res = k.res ∧ (core t.dev h.core.val).st.getLsbD 8 = true
            ∧ fld t.dev F.SE_STICKY_WOV pos = 1 ∧ fld t.dev F.SE_OVR_STAT_LAST_CAUSE pos = 2
            ∧ fld t.dev F.SE_OVR_STAT_COUNT pos = min 65535 (fld s.dev F.SE_OVR_STAT_COUNT pos + 1)
            ∧ fld t.dev F.SE_SLACK_OVR pos = 1 ∧ fld t.dev F.SE_SLACK_LAST pos = 0
            ∧ (Tab.get {} t.dev.ovr pos : Overrun).now = 2)
    ∧ (Ready s.dev h → isPc h.core.val = false → k.res ≤ 3 → Gives (.ret h) s fun t =>
          core t.dev h.core.val = { k.counted.undefined with run := .ended, loads := [], hold := .free, rpc := 0 }
            ∧ fld t.dev F.SE_STICKY_UND pos = 1 ∧ fld t.dev F.SE_UND_PC_VALID pos = 1 ∧ fld t.dev F.SE_UND_PC_CAUSE pos = 4
            ∧ fld t.dev F.SE_UND_PC_PC pos = k.pc.toNat % 16384
            ∧ fld t.dev F.SE_SLACK_OVR pos = 0 ∧ fld t.dev F.SE_SLACK_LAST pos = slack
            ∧ rd t.dev (F.SE_OVR_STAT_COUNT.addr pos) = rd s.dev (F.SE_OVR_STAT_COUNT.addr pos))
    ∧ (Able s.dev h → h.rsv = 0 → k.rpc = 0 → past.2.1 = storeSize h.core.val →
        (isPc h.core.val = true → WordDone (.nop h) h s { k.counted.undefined with loops := past.1, pc := 0 })
        ∧ (isPc h.core.val = false → Gives (.nop h) s fun t =>
            core t.dev h.core.val
                = { k.counted.undefined with loops := past.1, run := .ended, loads := [], hold := .free, rpc := 0 }
              ∧ fld t.dev F.SE_STICKY_UND pos = 1 ∧ fld t.dev F.SE_UND_PC_VALID pos = 1
              ∧ fld t.dev F.SE_UND_PC_CAUSE pos = 4 ∧ fld t.dev F.SE_UND_PC_PC pos = 16383
              ∧ fld t.dev F.SE_SLACK_OVR pos = 0 ∧ fld t.dev F.SE_SLACK_LAST pos = slack
              ∧ rd t.dev (F.SE_OVR_STAT_COUNT.addr pos) = rd s.dev (F.SE_OVR_STAT_COUNT.addr pos)))

/-- O18. These hold of every Ikimal word. On a core that does not run, or that is held, it executes nothing at all. Where
its condition fails, and no case of R130 is the word's, it writes no register, flag, predicate or memory and issues
nothing: it counts as one executed word and the program goes on. With an unassigned condition, or with an unassigned
value in one of the fields listed, it is suppressed and sets UND by case 2; with reserved bits set it sets UND by case
5, whether its condition holds or fails; STC on an engine sets UND by case 3. UND sets an engine's sticky copy, posts
it where that was clear, and records the case and the stage word. On an engine an unassigned opcode sets UND by case 1
and is skipped, or with UDTRAP = 1 ends the program for the tick as END does, no overrun; on a prompter it is skipped
with UND or traps to 0010h with the operand bits. A prompter that fetches a poisoned word stops, and PC_FAULT is
posted with its number and the PC. That the cases of R130 hold of a word whose condition fails is read from R132
(notes/assumptions/6); which fetches meet an uncorrectable word comes with the command (notes/assumptions/44). -/
def Obligations.WordsNotRun : Prop :=
  ∀ (h : Hdr) (s : State) (i : Instr) (op : BitVec 7) (opd : BitVec 20) (rs xa oa ob : BitVec 5) (d10 : BitVec 10)
    (bk ad : BitVec 2) (d8 : BitVec 8) (sat : Bool) (fa fb : BitVec 9),
    let k := here s.dev h
    let pos := posOf s.dev h.core.val
    let c := h.core.val
    let pc := k.pc.toNat
    let case (i : Instr) (n : Nat) : Prop := UndDone i h s k.undefined.follow n pc
    let holds := condHolds (condOf h i) k.st k.preds
    let key := progKey (c - 17) (core s.dev c).pc.toNat
    (i.hdr = some h →
      ((core s.dev c).run ≠ .on ∨ (core s.dev c).hold ≠ .free → Gives i s fun t => t = s)
      ∧ (regularWord s.dev h i = true →
          (Ready s.dev h → condOf h i = 15 → case i 2)
          ∧ (Ready s.dev h → condOf h i ≠ 15 → holds = false → WordDone i h s { k.follow with prefixed := isPrefix i })
          ∧ (Able s.dev h → h.rsv ≠ 0 → i.wf = true → condOf h i ≠ 15 →
              (holds = false → Stays s.dev h → UndDone i h s { k.undefined.follow with prefixed := isPrefix i } 5 pc)
              ∧ (holds = true → isPc c = false → Gives i s fun t => (core t.dev c).hold = .free →
                  fld t.dev F.SE_UND_PC_VALID pos = 1 ∧ fld t.dev F.SE_STICKY_UND pos = 1
                    ∧ (Stays s.dev h → fld t.dev F.SE_UND_PC_CAUSE pos = 5 ∧ fld t.dev F.SE_UND_PC_PC pos = pc % 16384))))
      ∧ (h.poison = true ∨ poisoned (Tab.get 0 s.dev.gecc key) = true → isPc c = true → (core s.dev c).run = .on →
          (core s.dev c).hold = .free → Gives i s fun t =>
            t.dev = post (setCore { s.dev with gecc := Tab.set 0 s.dev.gecc key poisonMark } c
                { core s.dev c with run := .stopped }) 0x19 (c - 17) (c - 17) (core s.dev c).pc.toNat
              ∧ t.sec = s.sec ∧ t.pending = s.pending))
    ∧ (Ready s.dev h → h.cond.toNat < 15 →
        (∀ i ∈ [Instr.mova h rs ad 3 sat, .mfs h rs 63, .mts h rs 63, .ld h 2 rs xa bk d8, .st h 3 rs xa bk d8], case i 2)
        ∧ (isPc c = false → case (.stc h rs xa d10) 3))
    ∧ (Ready s.dev h → h.cond.toNat < 7 → oa.toNat ≤ 10 → ob.toNat ≤ 10 →
        (slotPlain oa.toNat fa && slotPlain ob.toNat fb) = false →
        condHolds (condOf h (Instr.duet h oa fa ob fb)) k.st k.preds = false → case (.duet h oa fa ob fb) 5)
    ∧ (Ready s.dev h → isPc c = false →
        ((core s.dev c).udtrap = false → case (.unassigned h op opd) 1)
        ∧ ((core s.dev c).udtrap = true → Gives (.unassigned h op opd) s fun t =>
            core t.dev c = { k.counted.undefined with run := .ended, loads := [], hold := .free, rpc := 0 }
              ∧ (∀ j, j ≠ c → core t.dev j = core s.dev j)
              ∧ fld t.dev F.SE_UND_PC_VALID pos = 1 ∧ fld t.dev F.SE_UND_PC_CAUSE pos = 1
              ∧ fld t.dev F.SE_UND_PC_PC pos = pc % 16384 ∧ fld t.dev F.SE_STICKY_UND pos = 1
              ∧ fld t.dev F.SE_SLACK_OVR pos = 0 ∧ fld t.dev F.SE_OVR_STAT_COUNT pos = fld s.dev F.SE_OVR_STAT_COUNT pos
              ∧ t.dev.mkt = s.dev.mkt ∧ t.dev.pkt = s.dev.pkt ∧ t.dev.brd = s.dev.brd))
    ∧ (Ready s.dev h → isPc c = true →
        (fld s.dev F.PC_CTRL_UDTRAP (c - 17) = 0 → case (.unassigned h op opd) 1)
        ∧ (fld s.dev F.PC_CTRL_UDTRAP (c - 17) = 1 → k.ctx ≠ 3 →
          WordDone (.unassigned h op opd) h s
            { k.counted.finishLoads with
              ct := { ilk := BitVec.ofNat 24 pc, ist := k.stWord, irpc := (core s.dev c).rpc }
              cwp := (k.cwp + 1) % 15, res := satTo 15 (k.res + 1), rpc := 0
              st := (k.st &&& ~~~0x3C00) ||| 0x3000, pc := 0x10
              tcause := BitVec.ofNat 24 (2 ^ 20 + opd.toNat) }))

/-- O19. A duet's two slots read what stood before the word and write in turn, slot B later: NOP, MAC, MPY, ADD, SUB, MOV,
BSET and BCLR in every pair, with the sticky AV of a sum past 56 bits and a count where both slots write the same;
LDP, LDW and STP beside each of these in either slot, where the two do not write one register, with their delays and
the word stored. Under a duet condition that fails the word does neither and counts as one word. Nothing else changes.
Without a condition, ADD, SUB and MOV are also stated beside each other register by register. -/
def Obligations.DuetWord : Prop :=
  ∀ (h : Hdr) (s : State) (ra rb rc sa sb sc : BitVec 3) (oa ob : BitVec 5) (fa fb : BitVec 9), Ready s.dev h → h.cond.toNat < 7 →
    let k := here s.dev h
    let pc := isPc h.core.val
    let fields (x y z : BitVec 3) : BitVec 9 := x ++ y ++ z
    let both (va vb : W24) : Core := ((k.put (k.phys (short ra)) va).put (k.phys (short sa)) vb).follow
    let holds := condHolds ([0, 1, 2, 3, 4, 11, 12].getD h.cond.toNat 15) k.st k.preds
    let runs (oa ob : BitVec 5) (va vb : W24) : Prop :=
      ra ≠ sa → WordDone (.duet h oa (fields ra rb rc) ob (fields sa sb sc)) h s (if holds then both va vb else k.follow)
    let first := slotCore k oa.toNat fa k
    let second := slotCore k ob.toNat fb first.1
    let sticky (av : Bool) (d : Dev) : Dev := if av && !pc then setf d F.SE_STICKY_AV (posOf s.dev h.core.val) 1 else d
    let counted (d : Dev) : Dev :=
      if slotTarget oa.toNat fa = none ∨ slotTarget oa.toNat fa ≠ slotTarget ob.toNat fb then d
      else if pc then inc d F.PC_DUET_CLASH_COUNT (h.core.val - 17)
      else inc d F.SE_DUET_CLASH_COUNT (posOf s.dev h.core.val)
    let p (o : BitVec 9) := ((k.x (short (o.extractLsb' 3 3))).toNat + (o.extractLsb' 0 3).toNat) % (if pc then 65536 else 16384)
    let key (o : BitVec 9) := if pc then localKey (h.core.val - 17) (p o) else pktKey (posOf s.dev h.core.val) (p o)
    let wa := winAddr s.dev ((k.x (short (fa.extractLsb' 3 3))).toNat % 4096) (k.x (short (fa.extractLsb' 0 3))).toInt
    let loaded (n : Nat) (v : W24) : Core := k.issue (k.phys (short (fa.extractLsb' 6 3))) n v (!h.late)
    let beside (c : Core) : Core := (slotCore k ob.toNat fb c).1.follow
    let alone := slotCore k ob.toNat fb k
    runs 3 3 (k.x (short rb) + k.x (short rc)) (k.x (short sb) + k.x (short sc))
    ∧ runs 3 4 (k.x (short rb) + k.x (short rc)) (k.x (short sb) - k.x (short sc))
    ∧ runs 4 3 (k.x (short rb) - k.x (short rc)) (k.x (short sb) + k.x (short sc))
    ∧ (sc = 0 → runs 3 5 (k.x (short rb) + k.x (short rc)) (k.x (short sb)))
    ∧ (rc = 0 → runs 5 4 (k.x (short rb)) (k.x (short sb) - k.x (short sc)))
    ∧ (oa.toNat ∈ [0, 1, 2, 3, 4, 5, 9, 10] → ob.toNat ∈ [0, 1, 2, 3, 4, 5, 9, 10] → slotPlain oa.toNat fa = true →
        slotPlain ob.toNat fb = true →
        Gives (.duet h oa fa ob fb) s fun t =>
          core t.dev h.core.val = (if holds then second.1 else k).follow
            ∧ (∀ j, j ≠ h.core.val → core t.dev j = core s.dev j)
            ∧ { t.dev with cores := s.dev.cores }
              = (if holds then counted (sticky second.2 (sticky first.2 s.dev)) else s.dev)
            ∧ t.sec = s.sec ∧ t.pending = s.pending)
    ∧ (holds = true → ob.toNat ∈ [0, 1, 2, 3, 4, 5, 9, 10] → slotPlain ob.toNat fb = true →
        slotTarget ob.toNat fb ≠ some (0, (fa.extractLsb' 6 3).toNat) →
        (h.upset = 0 → Tab.get 0 s.dev.pecc (key fa) = 0 →
          ∀ i ∈ [Instr.duet h 6 fa ob fb, Instr.duet h ob fb 6 fa],
            WordGives i h s (beside (loaded 2 (Tab.get 0 s.dev.pkt (key fa)))) fun d =>
              SameTab 0 s.dev.pecc d.pecc ∧ { d with cores := s.dev.cores, pecc := s.dev.pecc } = sticky alone.2 s.dev)
        ∧ (Readable s.dev h wa →
          ∀ i ∈ [Instr.duet h 7 fa ob fb, Instr.duet h ob fb 7 fa],
            WordGives i h s (beside (loaded 3 (Tab.get 0 s.dev.mkt wa))) (MarketRead (sticky alone.2 s.dev)))
        ∧ (∀ i ∈ [Instr.duet h 8 fa ob fb, Instr.duet h ob fb 8 fa], WordGives i h s (beside k) fun d =>
            Tab.get 0 d.pkt (key fa) = k.x (short (fa.extractLsb' 6 3)) ∧ Tab.get 0 d.pecc (key fa) = 0
              ∧ OnlyAt 0 (key fa) s.dev.pkt d.pkt ∧ OnlyAt 0 (key fa) s.dev.pecc d.pecc
              ∧ { d with cores := s.dev.cores, pkt := s.dev.pkt, pecc := s.dev.pecc } = sticky alone.2 s.dev))

/-- O20. LDC reads the register its address names, as the core's own identity, and opens a load delay of three words;
where the read has no effect of its own nothing else changes. STC on a prompter ends in sequence and the register is
written as any write of that prompter would write it; where that ends the tick edges, what waited behind a held Board
write goes on. A core is held while a busy register makes it wait, or while an earlier access of the same master is
held. -/
def Obligations.ControlAccessWords : Prop :=
  ∀ (h : Hdr) (s : State) (r xa : BitVec 5) (d10 : BitVec 10), Ready s.dev h → Passes s.dev h →
    let k := here s.dev h
    let a := (k.x xa + d10.signExtend 24).toNat
    let read := readAny (if h.core.val = 16 then posOf s.dev 16 else h.core.val) a s
    (read.2 = s → ctlHold s h.core.val a false = none →
      WordDone (.ldc h r xa d10) h s (k.issue (k.phys r) 3 read.1 (!h.late)).follow)
    ∧ (isPc h.core.val = true → ctlHold s h.core.val a true = none → (a < 0x42000 ∨ 0x44000 ≤ a) →
        ∃ d, OnlyCore h.core.val s.dev d ∧ core d h.core.val = k.follow
          ∧ exec (.stc h r xa d10) s = .next (boardGo (writeAny (BitVec.ofNat 6 h.core.val) a (k.x r) { s with dev := d })))
    ∧ (∀ x ∈ [Hold.busy, Hold.board],
        (ctlHold s h.core.val a false = some x →
          WordDone (.ldc h r xa d10) h s { (core s.dev h.core.val).begin with hold := x })
        ∧ (isPc h.core.val = true → ctlHold s h.core.val a true = some x →
          WordDone (.stc h r xa d10) h s { (core s.dev h.core.val).begin with hold := x }))
    ∧ (busyAt s.dev a false = true → ctlHold s h.core.val a false = some .busy)
    ∧ (heldByPb s h.core.val = false → heldByWlive s h.core.val = false → heldByBoard s h.core.val = true →
        busyAt s.dev a false = false → ctlHold s h.core.val a false = some .board)

/-- O21. Each of these writes acts on its register's fields by their types; with CLR = 1 it then zeroes the counters or
the record it clears, and with CLR = 0 nothing more happens. OVR_STAT's REOPEN ends the curtain cause at the next
edge. No other bit of any register and nothing else changes. LEDG.CNTCLR clears every code's count, or the ledger's
status counters, or the count of one code; STRM.CLR clears the counters of one stream. -/
def Obligations.ClearRows : Prop :=
  ∀ (s : State) (w : BitVec 6) (v : W24) (n : Fin 16) (p : Fin 18) (q : Fin 17) (k : Fin 129) (u : Fin 2) (x : Fin 4) (r : Fin 8)
    (m : Fin 2) (t : Fin 64), s.takes w →
    let clears (i : Instr) (clr : Fld) (j : Nat) (l : List (Fld × Nat × Nat)) : Prop :=
      Does i s (regWrite s.dev w.toNat (clr.addr j) v) (if clr.of v = 1 then l else []) id
    let whole (a : Nat) : Fld := { base := a, stride := 0, hi := 23, lo := 0 }
    let reopened (d : Dev) : Dev :=
      if F.SE_OVR_STAT_REOPEN.of v = 1 then
        { d with ovr := Tab.set {} d.ovr n { (Tab.get {} d.ovr n : Overrun) with reopen := true } }
      else d
    let word (a : Nat) : Fld × Nat × Nat := (whole a, 0, 0)
    let stream := F.STRM_CLR_STREAM.of v
    (∀ i ∈ [Instr.ovrStatReopen w n v, Instr.ovrStatClr w n v],
      Does i s (regWrite s.dev w.toNat (F.SE_OVR_STAT_CLR.addr n) v)
        (if F.SE_OVR_STAT_CLR.of v = 1 then [(F.SE_OVR_STAT_COUNT, n.val, 0)] else []) reopened)
    ∧ clears (.duetClashClr w p v) (if p.val < 16 then F.SE_DUET_CLASH_CLR else F.PC_DUET_CLASH_CLR) (p.val % 16)
        [(if p.val < 16 then F.SE_DUET_CLASH_COUNT else F.PC_DUET_CLASH_COUNT, p.val % 16, 0)]
    ∧ clears (.undPcClr w n v) F.SE_UND_PC_CLR n.val [(whole (F.SE_UND_PC_CLR.addr n.val), 0, 0)]
    ∧ clears (.stickyClr w n v) F.SE_STICKY_CLR n.val [(F.SE_STICKY_MISMATCH, n.val, 0)]
    ∧ clears (.pktEccClr w q v) (if q.val < 16 then F.SE_PKT_ECC_CLR else F.SU_PKT_ECC_CLR) (q.val % 16)
        (if q.val < 16 then [(F.SE_PKT_ECC_UECNT, q.val, 0), (F.SE_PKT_ECC_CECNT, q.val, 0)]
         else [(F.SU_PKT_ECC_UECNT, 0, 0), (F.SU_PKT_ECC_CECNT, 0, 0)])
    ∧ clears (.mmlogClr w v) F.SU_MMLOG_CLR 0 [(whole A.SU_MMLOG, 0, 0)]
    ∧ clears (.mktsClr w k v) F.MKTS_CLR_CLR k.val [(F.MKTS_CE_COUNT, k.val, 0), (F.MKTS_UE_COUNT, k.val, 0)]
    ∧ clears (.ueLogClr w v) F.MKT_UE_LOG1_CLR 0 [(whole A.MKT_UE_LOG0, 0, 0), (whole A.MKT_UE_LOG1, 0, 0)]
    ∧ clears (.wclampClr w v) F.MKT_WCLAMP_CLR 0 [(F.MKT_WCLAMP_COUNT, 0, 0)]
    ∧ clears (.tuCntClr w u v) F.TU_CNT_CLR u.val
        [(F.TU_CNT_REFUSED, u.val, 0), (F.TU_CNT_DONE, u.val, 0), (F.TU_STAT_BADDESC, u.val, 0)]
    ∧ clears (.rampStatClr w v) F.RAMP_STAT_CLR 0 [(F.RAMP_STAT_REFUSED, 0, 0)]
    ∧ clears (.collStatClr w v) F.COLL_STAT_CLR 0 [(F.COLL_STAT_DROPPED, 0, 0), (F.COLL_STAT_LATE, 0, 0)]
    ∧ clears (.duStatClr w x v) F.DU_STAT_CLR x.val [(F.DU_STAT_MAXCALLS, x.val, 0), (F.DU_STAT_REFUSED, x.val, 0)]
    ∧ clears (.portCntclr w x v) F.PORT_CNTCLR_CLR x.val
        ((List.range 11).map fun i => word (F.PORT_RXFRAMES_COUNT.addr x.val + i))
    ∧ clears (.ringClr w r v) F.RING_DISC_CLR r.val [(F.RING_DISC_DISCARD, r.val, 0)]
    ∧ clears (.strmClr w v) F.STRM_CLR_GO 0
        (if F.STRM_CLR_TX.of v = 1 then [(F.TXS_SLIP_SLIP, stream, 0)]
         else [(F.RXS_MISS_MISS, stream, 0), word (F.RXS_LEGA_GAP.addr stream), word (F.RXS_LEGB_GAP.addr stream)])
    ∧ clears (.tdmStatClr w n v) F.TDM_STAT_CLR n.val [(F.TDM_STAT_SLIPS, n.val, 0)]
    ∧ clears (.aesiStatClr w r v) F.AESI_STAT_CLR r.val [(F.AESI_STAT_SLIPS, r.val, 0)]
    ∧ clears (.madiStatClr w m v) F.MADI_STAT_CLR m.val [(F.MADI_STAT_SLIPS, m.val, 0)]
    ∧ clears (.hostStatClr w v) F.HOST_STAT_CLR 0 [(F.HOST_STAT_PARTIAL, 0, 0), (F.HOST_STAT_DENIED, 0, 0)]
    ∧ clears (.ptClr w x v) F.PT_FAILS_CLR x.val [(F.PT_FAILS_FAILS, x.val, 0)]
    ∧ clears (.tallyClr w t v) F.TL_LOST_CLR t.val [(F.TL_LOST_LOST, t.val, 0)]
    ∧ (F.LEDG_CNTCLR_STATCLR.of v = 0 → F.LEDG_CNTCLR_ALL.of v = 1 →
        clears (.ledgCntclrAll w v) F.LEDG_CNTCLR_ALL 0 ((List.range 256).map fun c => (F.LEDG_CNT_COUNT, c, 0)))
    ∧ (F.LEDG_CNTCLR_ALL.of v = 0 → F.LEDG_CNTCLR_STATCLR.of v = 1 →
        clears (.ledgStatclr w v) F.LEDG_CNTCLR_STATCLR 0 [word A.LEDG_DROPS, word A.LEDG_OVWR, word A.LEDG_SUPP, word A.LEDG_PSTAT])
    ∧ (F.LEDG_CNTCLR_ALL.of v = 0 → F.LEDG_CNTCLR_STATCLR.of v = 0 →
        Does (.ledgCntclrCode w v) s (regWrite s.dev w.toNat A.LEDG_CNTCLR v) [(F.LEDG_CNT_COUNT, F.LEDG_CNTCLR_CODE.of v, 0)] id)

/-- O22. A COLLECT to a bus in force whose Collector runs enters its source FIFO; with the Collector not running it is
dropped and counted; with the FIFO full the engine holds the word. A DYN opens a delay of five words, marks its
channel CALLED and waits for its unit; a unit that does not run refuses it, and the sample itself is the result. A
TUCMD with room in its unit joins that unit's queue. Nothing else changes. -/
def Obligations.SignalWords : Prop :=
  ∀ (h : Hdr) (s : State) (a u bk : BitVec 2) (idle : Bool) (bus : BitVec 9) (rd rs xa : BitVec 5) (c : ChRef)
    (d8 : BitVec 8), Ready s.dev h → Passes s.dev h → isPc h.core.val = false →
    let k := here s.dev h
    let pos := posOf s.dev h.core.val
    let b := bus.toNat
    let f := 4 * pos + b % 4
    let q : Contrib := { acc := k.a a, bus := b, active := !idle, pos := pos }
    let old : BusSum := Tab.get {} s.dev.col.sums b
    let fifo : List Contrib := Tab.get [] s.dev.col.fifo f
    let ch := c.num k
    let du : Du := Tab.get {} s.dev.dus (ch / 512)
    let due := (core s.dev h.core.val).words + 5
    let call : DynCall := { pos := pos, core := h.core.val, reg := k.phys rd, due := due, ch := ch, x := k.x rs }
    let most := fld s.dev F.DU_STAT_MAXCALLS (ch / 512)
    let desc := (k.mktAddr bk xa d8) % 67108864 / 8 * 8
    let unit : Tu := Tab.get {} s.dev.tus u.toNat
    (fld s.dev F.COLL_CTRL_STATUS 0 = 1 → fld s.dev F.COLLN_CFG_EN b = 1 → (b < 256 ∨ fld s.dev F.TICK_RATE_RATE 0 < 2) →
        old.total < 8192 →
        (fifo.length < 8 → WordGives (.collect h a idle bus) h s k.follow fun d =>
          Tab.get [] d.col.fifo f = fifo ++ [q] ∧ OnlyAt [] f s.dev.col.fifo d.col.fifo
            ∧ { d.col with fifo := s.dev.col.fifo, sums := s.dev.col.sums } = s.dev.col
            ∧ Tab.get {} d.col.sums b
              = { old with total := old.total + 1, from_ := Tab.set 0 old.from_ pos (Tab.get 0 old.from_ pos + 1) }
            ∧ OnlyAt {} b s.dev.col.sums d.col.sums ∧ { d with cores := s.dev.cores, col := s.dev.col } = s.dev)
        ∧ (8 ≤ fifo.length →
            WordDone (.collect h a idle bus) h s { (core s.dev h.core.val).begin with hold := .fifo }))
    ∧ (fld s.dev F.COLL_CTRL_STATUS 0 ≠ 1 → WordGives (.collect h a idle bus) h s k.follow fun d =>
        d.col.dropNow = s.dev.col.dropNow + 1
          ∧ d.col.dropBus = (if s.dev.col.dropNow = 0 then b else s.dev.col.dropBus)
          ∧ { d.col with dropNow := s.dev.col.dropNow, dropBus := s.dev.col.dropBus } = s.dev.col
          ∧ RegsBecome [(F.COLL_STAT_DROPPED, 0, min (F.COLL_STAT_DROPPED.size - 1) (fld s.dev F.COLL_STAT_DROPPED 0 + 1))]
              s.dev d
          ∧ { d with cores := s.dev.cores, col := s.dev.col, ctl := s.dev.ctl } = s.dev)
    ∧ (fld s.dev F.DU_CTRL_STATUS (ch / 512) = 1 →
        WordGives (.dyn h rd rs c) h s (k.issue (k.phys rd) 5 0 false).follow fun d =>
          Tab.get {} d.dus (ch / 512) = { du with calls := du.calls ++ [call], count := du.count + 1 }
            ∧ OnlyAt {} (ch / 512) s.dev.dus d.dus
            ∧ RegsBecome ((F.DCH7_CALLED, ch, 1)
                :: if most < du.count + 1 then [(F.DU_STAT_MAXCALLS, ch / 512, min 2047 (du.count + 1))] else []) s.dev d
            ∧ Tab.get {} d.dyns ch = { (Tab.get {} s.dev.dyns ch : Dyn) with called := true }
            ∧ OnlyAt {} ch s.dev.dyns d.dyns
            ∧ { d with cores := s.dev.cores, dus := s.dev.dus, dyns := s.dev.dyns, ctl := s.dev.ctl } = s.dev)
    ∧ (fld s.dev F.DU_CTRL_STATUS (ch / 512) ≠ 1 → rd ≠ 0 → (∀ l ∈ k.loads, l.due ≠ due) → h.late = false →
        WordGives (.dyn h rd rs c) h s (k.issue (k.phys rd) 5 (k.x rs) true).follow fun d =>
          fld d F.DU_STAT_REFUSED (ch / 512)
            = min (F.DU_STAT_REFUSED.size - 1) (fld s.dev F.DU_STAT_REFUSED (ch / 512) + 1)
            ∧ fld d F.DCH7_CALLED ch = 1 ∧ fld d F.DCH7_GR ch = fld s.dev F.DCH7_GR ch
            ∧ SameRegs [F.DU_STAT_REFUSED.addr (ch / 512), F.DCH7_CALLED.addr ch] s.dev d
            ∧ { d with cores := s.dev.cores, dus := s.dev.dus, dyns := s.dev.dyns, tallies := s.dev.tallies, ctl := s.dev.ctl }
              = s.dev)
    ∧ (u.toNat < 2 → fld s.dev F.TU_CTRL_STATUS u.toNat = 1 →
        unit.queue.length + (if unit.running.isSome then 1 else 0) < 16 →
        WordGives (.tucmd h u bk xa d8) h s k.follow fun d =>
          Tab.get {} d.tus u.toNat
              = { unit with queue := unit.queue ++ [{ addr := desc, fresh := true }], refusing := false }
            ∧ OnlyAt {} u.toNat s.dev.tus d.tus
            ∧ RegsBecome
                [(F.TU_STAT_QLEN, u.toNat, unit.queue.length + 1 + (if unit.running.isSome then 1 else 0)),
                 (F.TU_STAT_BUSY, u.toNat, if unit.running.isSome then 1 else 0)] s.dev d
            ∧ { d with cores := s.dev.cores, tus := s.dev.tus, ctl := s.dev.ctl } = s.dev)

/-- O23. The engine run starts the core of every position that runs in the tick and no other; while no test is due nothing
else changes. At the cut-off point a core still running on its position stops, its loads in flight discarded; its
overrun is counted with cause CUTOFF and its slack reads 0 with OVR; a position that has ended stays as it is. Late
data reaches the oldest load of its register that waits, and the core held on that register goes on. Room in a source
FIFO lets the engine held on it go on. -/
def Obligations.EngineRunRows : Prop :=
  ∀ (s : State) (c : Fin 19) (e : Fin 17) (p : Fin 16) (r : BitVec 7) (pre post : List Load) (l : Load), s.up →
    let mode := fld s.dev F.SU_STAT_MODE 0
    let partner := fld s.dev F.SU_STAT_PARTNER 0
    let ran (q : Nat) : Bool := (Tab.get {} s.dev.ovr q : Overrun).ran
    let runner (q : Nat) : Nat := if mode = 4 ∧ partner = q then 16 else q
    let k := core s.dev p
    ((mode ≠ 2 ∨ s.dev.su.kat = 0) → Gives .engineRun s fun t =>
      (∀ j < 19, core t.dev j
        = if (List.range 16).any (fun q => ran q && runner q == j) then { core s.dev j with run := .on } else core s.dev j)
      ∧ { t.dev with cores := s.dev.cores } = s.dev ∧ t.sec = s.sec ∧ t.pending = s.pending)
    ∧ (mode ≠ 4 → Gives .cutOffPoint s fun t =>
        (if ran p = true ∧ k.run = .on then
          core t.dev p = { k with run := .cutoff, loads := [], hold := .free, rpc := 0 }
          ∧ fld t.dev F.SE_OVR_STAT_COUNT p = min (F.SE_OVR_STAT_COUNT.size - 1) (fld s.dev F.SE_OVR_STAT_COUNT p + 1)
          ∧ fld t.dev F.SE_OVR_STAT_LAST_CAUSE p = 1 ∧ fld t.dev F.SE_SLACK_LAST p = 0 ∧ fld t.dev F.SE_SLACK_OVR p = 1
          ∧ (Tab.get {} t.dev.ovr p : Overrun).now = 1
        else
          core t.dev p = k ∧ rd t.dev (F.SE_OVR_STAT_COUNT.addr p) = rd s.dev (F.SE_OVR_STAT_COUNT.addr p)
          ∧ rd t.dev (F.SE_SLACK_LAST.addr p) = rd s.dev (F.SE_SLACK_LAST.addr p))
        ∧ core t.dev 17 = core s.dev 17 ∧ core t.dev 18 = core s.dev 18
        ∧ t.dev.mkt = s.dev.mkt ∧ t.dev.pkt = s.dev.pkt ∧ t.dev.brd = s.dev.brd ∧ t.dev.bq = s.dev.bq
        ∧ t.sec = s.sec ∧ t.pending = s.pending)
    ∧ ((core s.dev c).loads = pre ++ l :: post → l.reg = r.toNat → l.arrived = false →
        (∀ m ∈ pre, m.reg = r.toNat → m.arrived = true) → s.dev.dus = [] →
        Gives (.loadDataArrival c r) s fun t =>
          core t.dev c
              = { core s.dev c with
                  loads := pre ++ { l with arrived := true } :: post
                  hold := if (core s.dev c).hold = .load r.toNat then .free else (core s.dev c).hold }
            ∧ OnlyCore c s.dev t.dev ∧ t.sec = s.sec ∧ t.pending = s.pending)
    ∧ Gives (.collectFifoRoom e) s fun t =>
        core t.dev e = { core s.dev e with hold := if (core s.dev e).hold = .fifo then .free else (core s.dev e).hold }
          ∧ OnlyCore e s.dev t.dev ∧ t.sec = s.sec ∧ t.pending = s.pending

/-- O24. A test that reached END with the right signature, no UND and no poisoned word read passes: the signature is kept,
KATRUNS rises, SU is idle, and a test after a mismatch leads to the retest; otherwise FAULT is due at the next edge.
TAKEOVER answers BUSY, FAULT or OFF where it must, ENG as it was, and else OK, with the takeover due at the next edge
and a test under way dropped. RELEASE in TAKEOVER and CLRFAULT in FAULT are put down for the next edge and do nothing
in other modes. ENABLE runs or drains SU; cleared while no ticks run and no takeover is in force it makes SU OFF at
once, and a test of CLRFAULT not yet judged leaves FAULT. No other bit of any register and nothing else changes.
KATRUNS counted at the judgement, MODE idle from it on, a FAULT due at the edge that a takeover drops, ENG kept by a
refused TAKEOVER, and ENABLE = 0 followed by RELEASE without a retest are choices of the model (notes/assumptions/13). -/
def Obligations.UnderstudyRows : Prop :=
  ∀ (s : State) (w : BitVec 6) (v : W24), s.takes w →
    let k := core s.dev 16
    let su := s.dev.su
    let mode := fld s.dev F.SU_STAT_MODE 0
    let status := fld s.dev F.SU_CTRL_STATUS 0
    let base := regWrite s.dev w.toNat A.SU_CMD v
    let refused := regWrite s.dev w.toNat A.SU_CMD (F.SU_CMD_ENG.put v (fld s.dev F.SU_CMD_ENG 0))
    let take := F.SU_CMD_TAKEOVER.of v = 1
    let release := F.SU_CMD_RELEASE.of v = 1
    let clear := F.SU_CMD_CLRFAULT.of v = 1
    let busy := mode = 4 ∨ su.take.isSome = true ∨ (su.confirmed.isSome = true ∧ fld s.dev F.HOUSE_POLICY_TAKEOVER 0 = 1)
    let testing := mode = 2 ∨ mode = 3 ∨ su.retest.isSome = true ∨ su.kat ≠ 0 ∨ su.fail.isSome = true
    let runs := fld s.dev F.SU_STAT_KATRUNS 0 + 1
    let kept : Fld × Nat × Nat := ({ base := A.SU_KAT_LAST, stride := 0, hi := 23, lo := 0 }, 0, k.crc.toNat)
    let idle (d : Dev) : Dev := updCore d 16 fun k => { k with run := .off }
    (inKat s.dev 16 = true → k.run = .ended → k.und = false → k.spoilt = false → k.crc.toNat = fld s.dev F.SU_KAT_SIG_SIG 0 →
        Does .suKatEnd s s.dev [kept, (F.SU_STAT_KATRES, 0, 1), (F.SU_STAT_KATRUNS, 0, runs), (F.SU_STAT_MODE, 0, 0)]
          fun d => { idle d with
            su := { su with
              katNow := 0, retest := if su.katNow = 1 ∨ su.katNow = 4 then su.first.map (·.1) else su.retest } })
    ∧ (inKat s.dev 16 = true → k.run = .ended → (k.und = true ∨ k.spoilt = true ∨ k.crc.toNat ≠ fld s.dev F.SU_KAT_SIG_SIG 0) →
        Does .suKatEnd s s.dev
          [kept, (F.SU_STAT_KATRES, 0, 2), (F.SU_STAT_KATRUNS, 0, runs), (F.SU_STAT_MODE, 0, 0)]
          fun d => { idle d with su := { su with katNow := 0, first := none, retest := none, kat := 0, fail := some 2 } })
    ∧ (take → ¬release → ¬clear → busy → Does (.suTakeoverCmd w v) s refused [(F.SU_CMD_RESULT, 0, 2)] id)
    ∧ (take → ¬release → ¬clear → ¬busy → mode = 5 → Does (.suTakeoverCmd w v) s refused [(F.SU_CMD_RESULT, 0, 3)] id)
    ∧ (take → ¬release → ¬clear → ¬busy → mode ≠ 5 → status ≠ 1 →
        Does (.suTakeoverCmd w v) s refused [(F.SU_CMD_RESULT, 0, 4)] id)
    ∧ (take → ¬release → ¬clear → ¬busy → mode ≠ 5 → status = 1 →
        Does (.suTakeoverCmd w v) s base
          ((F.SU_CMD_RESULT, 0, 1) :: if testing then [(F.SU_STAT_MODE, 0, 0)] else [])
          fun d =>
            if testing then
              { (if mode = 2 then idle d else d) with
                su := { take := some (F.SU_CMD_ENG.of v, false), met := su.met, confirmed := su.confirmed
                        release := su.release, releaseRetest := su.releaseRetest, memFault := su.memFault
                        clrFault := su.clrFault } }
            else { d with su := { su with take := some (F.SU_CMD_ENG.of v, false) } })
    ∧ (¬take → release → ¬clear → Does (.suRelease w v) s base [] fun d =>
        { d with su := if mode = 4 then { su with release := true, releaseRetest := !su.release || su.releaseRetest } else su })
    ∧ (¬take → ¬release → clear → Does (.suClrfault w v) s base [] fun d =>
        { d with su := if mode = 5 then { su with clrFault := true } else su })
    ∧ (F.SU_CTRL_ENABLE.of v = 1 →
        Does (.suEnableWrite w v) s (regWrite s.dev w.toNat A.SU_CTRL v) [(F.SU_CTRL_STATUS, 0, 1)] id)
    ∧ (F.SU_CTRL_ENABLE.of v = 0 → status = 1 → s.dev.ticking = true ∨ mode = 4 →
        Does (.suEnableWrite w v) s (regWrite s.dev w.toNat A.SU_CTRL v) [(F.SU_CTRL_STATUS, 0, 2)] fun d =>
            { d with su := if mode = 4 then { su with release := true, releaseRetest := false } else su })
    ∧ (F.SU_CTRL_ENABLE.of v = 0 → status = 1 → s.dev.ticking = false → mode ≠ 4 →
        Does (.suEnableWrite w v) s (regWrite s.dev w.toNat A.SU_CTRL v)
          ((F.SU_CTRL_STATUS, 0, 0) :: if su.kat = 3 ∨ su.katNow = 3 then [(F.SU_STAT_MODE, 0, 5)] else []) fun d =>
            { d with su := { su with first := none, retest := none, kat := 0, katNow := 0, confirmed := none, take := none } })
    ∧ (F.SU_CTRL_ENABLE.of v = 0 → status ≠ 1 →
        Does (.suEnableWrite w v) s (regWrite s.dev w.toNat A.SU_CTRL v) [] id)

/-- O25. A write of a unit's CTRL register acts on its fields by their types. ENABLE = 1 makes STATUS RUN, on a transform
unit not while HUSH gates it; ENABLE = 0 makes a running unit DRAINING while work of it remains and OFF where none
does. A write of ENG_CTRL takes effect at the next tick edge (R134): ENABLE = 1 changes no STATUS at the write, and
ENABLE = 0 on a running engine shows DRAINING while ticks run, OFF where none runs. An engine that failed a memory
test takes no ENABLE. No other bit of any register and nothing else changes. -/
def Obligations.EnableRows : Prop :=
  ∀ (s : State) (w : BitVec 6) (v : W24) (n : Fin 16) (u : Fin 4) (t : Fin 2), s.takes w →
    let d := s.dev
    let drains (i : Instr) (a : Nat) (en st : Fld) (j : Nat) (work : Bool) : Prop :=
      Does i s (regWrite d w.toNat a v)
        (if en.of v = 1 then [(st, j, 1)] else if fld d st j = 1 then [(st, j, if work then 2 else 0)] else []) id
    let unit : Tu := Tab.get {} d.tus t
    let v' : W24 := if (fld d F.HOUSE_MEMFAIL_POS 0).testBit n then v &&& 0x7FFFFF else v
    let st := fld d F.SE_ENG_CTRL_STATUS n
    drains (.rampEnableWrite w v) A.RAMP_CTRL F.RAMP_CTRL_ENABLE F.RAMP_CTRL_STATUS 0 (d.ramps.any fun r => r.2.active)
    ∧ drains (.collEnableWrite w v) A.COLL_CTRL F.COLL_CTRL_ENABLE F.COLL_CTRL_STATUS 0
        (!(d.col.fifo.isEmpty && d.col.lane.isEmpty))
    ∧ drains (.duEnableWrite w u v) (F.DU_CTRL_ENABLE.addr u) F.DU_CTRL_ENABLE F.DU_CTRL_STATUS u
        (!(Tab.get {} d.dus u : Du).calls.isEmpty)
    ∧ (d.house.gated = false ∨ F.TU_CTRL_ENABLE.of v = 0 →
        drains (.tuEnableWrite w t v) (F.TU_CTRL_ENABLE.addr t) F.TU_CTRL_ENABLE F.TU_CTRL_STATUS t
          (unit.running.isSome || !unit.queue.isEmpty))
    ∧ (d.house.gated = true → F.TU_CTRL_ENABLE.of v = 1 →
        Does (.tuEnableWrite w t v) s (regWrite d w.toNat (F.TU_CTRL_ENABLE.addr t) v) [] id)
    ∧ Does (.cueEnableWrite w v) s (regWrite d w.toNat A.CUE_CTRL v)
        [(F.CUE_CTRL_STATUS, 0,
          if F.CUE_CTRL_ENABLE.of v = 1 then 1
          else if (List.range 64).any fun e => fld d F.CUEN_STATE_STATE e == 3 then 2 else 0)] id
    ∧ Does (.seEnableWrite w n v) s (regWrite d w.toNat (F.SE_ENG_CTRL_ENABLE.addr n) v')
        (if F.SE_ENG_CTRL_ENABLE.of v' = 0 ∧ st = 1 then
          [(F.SE_ENG_CTRL_STATUS, n.val, if d.ticking then 2 else 0)] else []) id

/-- O26. A drain of a lane whose FIFOs are empty adds the oldest entry of its queue exactly into its bus's sum. The output
stage gives every bus in force its sum and N of the tick before, or keeps them for a late bus, and shows them in its
STAT; a bus in force at unity gain with an open curtain and no cause puts out its sum rounded at bit 24 and saturated.
In HUSH the stage does nothing. CURT_CMD closes or opens the SW cause of one channel; both bits at once are posted as
REG_RSVD. -/
def Obligations.CollectorRows : Prop :=
  ∀ (s : State) (w : BitVec 6) (v : W24) (lane : Fin 4) (ns : BitVec 15) (q : Contrib) (rest : List Contrib) (b : Fin 512), s.takes w →
    let d := s.dev
    let ch := F.COLL_CURT_CMD_CH.of v
    let close := F.COLL_CURT_CMD_CLOSE.of v = 1
    let opens := F.COLL_CURT_CMD_OPEN.of v = 1
    let sw (i : Instr) (x : Bool) : Prop :=
      Does i s d [] fun d => { d with col := { d.col with sw := if ch ≤ 8851 then Tab.set false d.col.sw ch x else d.col.sw } }
    let old : BusSum := Tab.get {} d.col.sums q.bus
    let new : BusSum := { old with sum := old.sum + q.acc.signExtend 70, n := if q.active then min 4095 (old.n + 1) else old.n }
    let x : Bus := Tab.get {} d.buses b
    let done : BusSum := Tab.get {} d.col.done b
    let late := d.col.late.contains b.val
    let r := Real.rndEven (done.sum.toInt * 8388608) (2 ^ 47)
    (Tab.get [] d.col.lane lane = q :: rest → (∀ p < 16, Tab.get [] d.col.fifo (4 * p + lane) = []) →
        fld d F.COLL_CTRL_STATUS 0 ≠ 2 →
        Does (.collectorDrain lane ns) s d [] fun d =>
          { d with
            col := { d.col with
              lane := Tab.set [] d.col.lane lane rest, sums := Tab.set {} d.col.sums q.bus new
              drainNs := max d.col.drainNs ns.toNat } })
    ∧ (close → ¬opens → sw (.curtClose w v) true)
    ∧ (opens → ¬close → sw (.curtOpen w v) false)
    ∧ (close → opens → Does (.curtClose w v) s (post d 0x01 w.toNat A.COLL_CURT_CMD v.toNat) [] id)
    ∧ (d.house.engStop = true → Does .busOutputStage s d [] id)
    ∧ (d.house.engStop = false → d.ovr = [] → (b.val < 256 ∨ fld d F.TICK_RATE_RATE 0 < 2) →
        Gives .busOutputStage s fun t =>
          (Tab.get {} t.dev.buses b : Bus).sample = (if late then x.sample else done.sum)
          ∧ (Tab.get {} t.dev.buses b : Bus).n = (if late then x.n else done.n)
          ∧ fld t.dev F.COLLN_STAT_NLAST b = (if late then x.n else done.n) % F.COLLN_STAT_NLAST.size
          ∧ fld t.dev F.COLLN_STAT_LATE b = (if late then 1 else 0)
          ∧ (fld d F.COLLN_CFG_EN b = 1 → fld d F.COLLN_CFG_SCALE b = 0 → late = false → x.on = true → x.g = 8388608 →
              x.target = 8388608 → x.cz = 0 → x.curtain.state = 0 → x.curtain.pos = 0 →
              (Tab.get {} t.dev.buses b : Bus).out
                = if 8388607 < r then 0x7FFFFF else if r < -8388608 then 0x800000 else BitVec.ofInt 24 r)
          ∧ SameRegs ((List.range 512).map F.COLLN_STAT_NLAST.addr) d t.dev
          ∧ { t.dev with buses := d.buses, tallies := d.tallies, ctl := d.ctl } = d ∧ t.sec = s.sec ∧ t.pending = s.pending)

/-- O27. GO makes the slot's next copies live; with EN = 1 and the unit running the slot starts over LEN ticks at step 0
toward its target, with EN = 0 it stops where it stands, and with the unit not running the start is refused and
counted. The phase steps every active slot in ascending order, none in HUSH; a slot's step writes its Market word: the
target at the last step, before it start + (target - start) x i / LEN to nearest on a linear ramp, the start being the
word as read where none is held; a value past the range is a free value (the model's choice, notes/assumptions/57). A
dynamics unit, idle in HUSH, serves its oldest call: it gives a call on a channel with EN = 0 its own sample back and
one on a channel with EN = 1 the sample under the gain computed; it leaves GR and CALLED, and is OFF once a drain is
over. -/
def Obligations.RampAndDynamicsRows : Prop :=
  ∀ (s : State) (w : BitVec 6) (v : W24) (n : BitVec 12) (r : Ramp) (s0 : Int) (u : Fin 4) (q : DynCall) (rest : List DynCall), s.takes w →
    let d := s.dev
    let j := n.toNat
    let base := regWrite d w.toNat (F.RAMPN_GO_GO.addr j) v
    let word (f : Fld) : Fld × Nat × Nat := ({ base := f.addr j, stride := 0, hi := 23, lo := 0 }, 0, (nrd d (f.addr j)).toNat)
    let live := [word F.RAMPN_ADDR_ADDR_LO, word F.RAMPN_CFG_EN, word F.RAMPN_TARGET_TARGET]
    let cfg := nrd d (F.RAMPN_CFG_EN.addr j)
    let target := (nrd d (F.RAMPN_TARGET_TARGET.addr j)).toInt
    let len := max 1 (F.RAMPN_CFG_LEN.of cfg)
    let addr := F.RAMPN_CFG_ADDR_HI.of cfg * 2 ^ 24 + (nrd d (F.RAMPN_ADDR_ADDR_LO.addr j)).toNat
    let old : Ramp := Tab.get {} d.ramps j
    let i := r.step + 1
    let a := r.addr % 67108864
    let from_ : Int := r.start.getD (Tab.get 0 d.mkt a).toInt
    let linear := r.db = false ∨ (from_ < 0 ∧ 0 < r.target) ∨ (0 < from_ ∧ r.target < 0)
    let value : Int :=
      if i = r.len then r.target
      else if linear then from_ + Real.rndAway ((r.target - from_) * i) r.len
      else rampValue true from_ r.target i r.len
    let fits := -8388608 ≤ value ∧ value ≤ 8388607
    let put : Int := if fits then value else (Config.freeWord d.fresh).toInt
    let c := q.ch
    let unit : Du := Tab.get {} d.dus u
    let env := dynEnv (rateHz d) (fld d F.DCH0_DET c == 1) (max 1 (min 4000 (fld d F.DCH2_ATT c)))
      (max 5 (min 5000 (fld d F.DCH3_REL c))) (Tab.get {} d.dyns c : Dyn).env q.x.toInt
    let excess := 5 * dynLevel (fld d F.DCH0_DET c == 1) env + 128 * min 600 (fld d F.DCH0_THR c)
    let gr := dynGain (fld d F.DCH0_TYPE c) (fld d F.DCH1_RATIO c) (min 90 (fld d F.DCH6_RANGE c)) excess
      (128 * min 240 (fld d F.DCH1_KNEE c))
    let served (t : State) (y : W24) : Prop :=
      core t.dev q.core = (if q.live then deliver (core d q.core) q.reg q.due y else core d q.core)
        ∧ (∀ c, c ≠ q.core → core t.dev c = core d c)
        ∧ Tab.get {} t.dev.dus u = { unit with calls := rest } ∧ OnlyAt {} u.val d.dus t.dev.dus
        ∧ fld t.dev F.DCH7_CALLED c = 1
        ∧ fld t.dev F.DU_CTRL_STATUS u = (if fld d F.DU_CTRL_STATUS u = 2 ∧ rest = [] then 0 else fld d F.DU_CTRL_STATUS u)
        ∧ t.sec = s.sec ∧ t.pending = s.pending
    (F.RAMPN_GO_GO.of v = 1 → F.RAMPN_CFG_EN.of cfg = 1 → fld d F.RAMP_CTRL_STATUS 0 = 1 →
        Gives (.rampGo w n v) s fun t =>
          Tab.get {} t.dev.ramps j
              = { active := true, addr := addr, len := len, target := target, db := F.RAMPN_CFG_SHAPE.of cfg == 1, step := 0
                  start := if old.active ∧ old.addr = addr then (if old.wrote then some old.last else old.start) else none
                  last := old.last, wrote := false }
            ∧ OnlyAt {} j d.ramps t.dev.ramps
            ∧ RegsBecome (live ++ [(F.RAMPN_GO_ACTIVE, j, 1), (F.RAMPN_GO_REMAIN, j, len),
                (F.RAMP_STAT_ACTIVE, 0, (t.dev.ramps.filter fun r => r.2.active).length)]) base t.dev
            ∧ { t.dev with ramps := d.ramps, ctl := base.ctl } = base ∧ t.sec = s.sec ∧ t.pending = s.pending)
    ∧ (F.RAMPN_GO_GO.of v = 1 → F.RAMPN_CFG_EN.of cfg = 1 → fld d F.RAMP_CTRL_STATUS 0 ≠ 1 →
        Does (.rampGo w n v) s base
          (live ++ [(F.RAMP_STAT_REFUSED, 0, min (F.RAMP_STAT_REFUSED.size - 1) (fld d F.RAMP_STAT_REFUSED 0 + 1))]) id)
    ∧ (F.RAMPN_GO_GO.of v = 0 → Does (.rampGo w n v) s base [] id)
    ∧ (F.RAMPN_GO_GO.of v = 1 → F.RAMPN_CFG_EN.of cfg = 0 → Gives (.rampGo w n v) s fun t =>
        Tab.get {} t.dev.ramps j = { old with active := false } ∧ OnlyAt {} j d.ramps t.dev.ramps
          ∧ { t.dev with ramps := d.ramps, ctl := base.ctl } = base ∧ t.sec = s.sec ∧ t.pending = s.pending)
    ∧ exec .rampPhase s
        = .next { s with dev := if d.house.engStop then d else ((d.ramps.filter (·.2.active)).map (·.1)).foldl rampStep d }
    ∧ (d.house.engStop = false → d.ramps = [(j, r)] → r.active = true → i ≤ r.len →
        (r.start = none → Tab.get 0 d.ecc a = 0) → fits ∨ d.tallies = [] → Gives .rampPhase s fun t =>
          Tab.get 0 t.dev.mkt a = BitVec.ofInt 24 put ∧ Tab.get 0 t.dev.ecc a = 0
            ∧ OnlyAt 0 a d.mkt t.dev.mkt ∧ OnlyAt 0 a d.ecc t.dev.ecc
            ∧ Tab.get {} t.dev.ramps j
              = { r with start := some from_, last := put, wrote := true, step := i, active := decide (i < r.len) }
            ∧ fld t.dev F.RAMPN_GO_ACTIVE j = (if i < r.len then 1 else 0)
            ∧ fld t.dev F.RAMPN_GO_REMAIN j = (r.len - i) % F.RAMPN_GO_REMAIN.size
            ∧ SameRegs [F.RAMPN_GO_ACTIVE.addr j, A.RAMP_STAT, A.RAMP_CTRL] d t.dev
            ∧ { t.dev with ramps := d.ramps, mkt := d.mkt, ecc := d.ecc, past := d.past, stalls := d.stalls, ctl := d.ctl
                           tallies := d.tallies, fresh := d.fresh } = d
            ∧ t.sec = s.sec ∧ t.pending = s.pending)
    ∧ (unit.calls = [] ∨ d.house.engStop = true → Gives (.dynService u) s (· = s))
    ∧ (unit.calls = q :: rest → c < 2048 → d.house.engStop = false →
        (fld d F.DCH0_EN c = 0 → Gives (.dynService u) s fun t =>
          served t q.x ∧ fld t.dev F.DCH7_GR c = fld d F.DCH7_GR c
            ∧ SameRegs [F.DCH7_CALLED.addr c, F.DU_CTRL_STATUS.addr u] d t.dev
            ∧ { t.dev with cores := d.cores, dus := d.dus, tallies := d.tallies, ctl := d.ctl } = d)
        ∧ (fld d F.DCH0_EN c = 1 → fld d F.DCH0_KEYEN c = 0 → fld d F.DCH4_LA c = 0 → dynLink d c = 0 →
            Gives (.dynService u) s fun t =>
              served t (dynOut q.x.toInt gr (min 400 (fld d F.DCH3_MAKEUP c)))
                ∧ fld t.dev F.DCH7_GR c = (gr % 65536).toNat
                ∧ Tab.get {} t.dev.dyns c = { (Tab.get {} d.dyns c : Dyn) with env := env }
                ∧ OnlyAt {} c d.dyns t.dev.dyns
                ∧ SameRegs [F.DCH7_CALLED.addr c, F.DU_CTRL_STATUS.addr u] d t.dev
                ∧ { t.dev with cores := d.cores, dus := d.dus, dyns := d.dyns, tallies := d.tallies, ctl := d.ctl } = d)
        ∧ ∃ y, Gives (.dynService u) s fun t => served t y)

/-- O28. A write makes the word what was written with valid check bits. A read of a clean word changes nothing; a single
flipped bit is corrected, counted at the stall, posted once a second and put down for a scrub write; two flipped bits
poison the word, count, log and post it and mark the reader; a poisoned word is logged and marks the reader again. A
scrub write clears the flipped bits of the oldest word that waits at its stall. BAR2, open from step 4 of bring-up on
but in D3hot, writes the bytes its enables name, nothing with none; its merge may be the first to detect two flipped
bits, and over a poisoned word the write is dropped, no reader marked. Every other word and register stays, and the
Market keeps its canonical form, so equal Markets are equal data. The model's choices: which bits have flipped comes
with the command (notes/assumptions/8), and R443's closed host, and one in D3hot, reaches no BAR2
(notes/assumptions/46 and 58). -/
def Obligations.MarketAccessRows : Prop :=
  ∀ (s : State) (m : BitVec 6) (a : BitVec 26) (v : W24) (v32 : W32) (be : BitVec 4) (flips : BitVec 30) (wait : W24)
    (i j : Fin 30) (k : Fin 129) (rest : List Nat), s.up →
    let d := s.dev
    let n := a.toNat
    let stall := servingStall d (n % 128)
    let e := Tab.get 0 d.ecc n
    let done (i : Instr) (Q : Dev → Prop) : Prop := Gives i s fun t => Q t.dev ∧ t.sec = s.sec ∧ t.pending = s.pending
    let counts (f : Fld) : Fld × Nat × Nat := (f, stall, min (f.size - 1) (fld d f stall + 1))
    let marked : List (Fld × Nat × Nat) :=
      [(F.MKT_RDERR_ERR, 0, (fld d F.MKT_RDERR_ERR 0) ||| 2 ^ m.toNat)]
    let log (m : Nat) (first : Nat) : List (Fld × Nat × Nat) :=
      [({ base := A.MKT_UE_LOG0, stride := 0, hi := 23, lo := 0 }, 0, n),
       ({ base := A.MKT_UE_LOG1, stride := 0, hi := 23, lo := 0 }, 0,
        2 ^ 23 + first * 2 ^ 22 + m * 2 ^ 8 + n / 2 ^ 24)]
    let posted (m : Nat) (first : Nat) : Dev := post d 0x21 stall n (first * 2 ^ 23 + m * 2 ^ 8 + n / 2 ^ 24)
    let ecc (d' : Dev) (x : BitVec 31) : Prop := Tab.get 0 d'.ecc n = x ∧ OnlyAt 0 n d.ecc d'.ecc
    let wf (d : Dev) : Prop := Memory.wf 0 d.mkt = true ∧ Memory.wf 0 d.ecc = true
    let byte (b : Nat) : Nat := if be.getLsbD b then v32.toNat / 256 ^ b % 256 else (Tab.get 0 d.mkt n).toNat / 256 ^ b % 256
    done (.marketAccess m a (some v) flips wait) (fun d' => MarketWritten d d' n v)
    ∧ (wf d → ∀ i ∈ [Instr.marketAccess m a none flips wait, .marketAccess m a (some v) flips wait, .scrubWrite k,
        .bar2Write a { be := be, flips := flips } v32], Gives i s fun t => wf t.dev)
    ∧ (e = 0 → flips = 0 → done (.marketAccess m a none flips wait) fun d' => ecc d' 0 ∧ { d' with ecc := d.ecc, tallies := d.tallies } = d)
    ∧ (e = 0 → flips = BitVec.ofNat 30 (2 ^ i.val) → d.led.postSec.contains (0x20, stall) = true →
        fld d F.MKT_CTRL_SCRUB 0 = 1 → n ∉ d.stalls.scrubs → done (.marketAccess m a none flips wait) fun d' =>
          ecc d' (flips.zeroExtend 31) ∧ RegsBecome [counts F.MKTS_CE_COUNT] d d'
            ∧ { d' with ecc := d.ecc, ctl := d.ctl, tallies := d.tallies }
              = { d with stalls := { d.stalls with scrubs := d.stalls.scrubs ++ [n] } })
    ∧ (e = 0 → i ≠ j → flips = BitVec.ofNat 30 (2 ^ i.val + 2 ^ j.val) → m.toNat < 16 → fld d F.MKT_CTRL_AUTOSPARE 0 = 0 →
        done (.marketAccess m a none flips wait) fun d' =>
          ecc d' (1 <<< 30) ∧ RegsBecome (counts F.MKTS_UE_COUNT :: log m.toNat 1 ++ marked) d d'
            ∧ { d' with ecc := d.ecc, ctl := d.ctl, tallies := d.tallies }
              = { posted m.toNat 1 with stalls := { d.stalls with scrubs := d.stalls.scrubs.filter (· != n) } })
    ∧ (e.getLsbD 30 = true → m.toNat < 16 → done (.marketAccess m a none flips wait) fun d' =>
          ecc d' (1 <<< 30) ∧ RegsBecome (log m.toNat 0 ++ marked) d d'
            ∧ { d' with ecc := d.ecc, ctl := d.ctl, tallies := d.tallies } = posted m.toNat 0)
    ∧ (d.stalls.scrubs = n :: rest → servingStall d (n % 128) = k → e.getLsbD 30 = false →
        done (.scrubWrite k) fun d' => ecc d' 0
          ∧ { d' with ecc := d.ecc, past := d.past } = { d with stalls := { d.stalls with scrubs := (n :: rest).filter (· != n) } })
    ∧ (d.house.boot < 2 ∨ d.pcie.d3hot = true → done (.bar2Write a { be := be, flips := flips } v32) fun d' => d' = d)
    ∧ (2 ≤ d.house.boot → d.pcie.d3hot = false →
      (be.toNat % 8 = 0 → done (.bar2Write a { be := be, flips := flips } v32) fun d' => d' = d)
      ∧ (be.toNat % 8 = 7 ∨ (be.toNat % 8 ≠ 0 ∧ e = 0 ∧ flips = 0) →
          done (.bar2Write a { be := be, flips := flips } v32) fun d' =>
            MarketWritten d d' n (BitVec.ofNat 24 (byte 0 + byte 1 * 256 + byte 2 * 65536)))
      ∧ (be.toNat % 8 ≠ 0 → be.toNat % 8 ≠ 7 → e = 0 → i ≠ j → flips = BitVec.ofNat 30 (2 ^ i.val + 2 ^ j.val) →
          fld d F.MKT_CTRL_AUTOSPARE 0 = 0 → done (.bar2Write a { be := be, flips := flips } v32) fun d' =>
            ecc d' (1 <<< 30) ∧ RegsBecome (counts F.MKTS_UE_COUNT :: log 32 1) d d'
              ∧ { d' with ecc := d.ecc, ctl := d.ctl, tallies := d.tallies, fresh := d.fresh }
                = { posted 32 1 with stalls := { d.stalls with scrubs := d.stalls.scrubs.filter (· != n) } })
      ∧ (be.toNat % 8 ≠ 0 → be.toNat % 8 ≠ 7 → e.getLsbD 30 = true →
          done (.bar2Write a { be := be, flips := flips } v32) fun d' =>
            ecc d' (1 <<< 30) ∧ RegsBecome (log 32 0) d d'
              ∧ { d' with ecc := d.ecc, ctl := d.ctl, tallies := d.tallies, fresh := d.fresh } = posted 32 0))

/-- O29. GO in IDLE with STU free starts the sparing of STALL unless it is retired, and elsewhere does nothing more; the
redirect retires the stall onto STU, posts MKT_SPARED and ends rehearsal's copies. A slot, none while the memory test
of bring-up runs, copies out the stall whose turn it is, or tests STU; the copy done, STU serves the stall under test;
the test passed, the stall is copied back; the copy done, the stall is in service and the turn passes on, BEHIND being
open. EN runs rehearsal and starts a slot, or lets the slot in progress finish. With no error and no sparing waiting
nothing else changes. The model's choices: a completed copy leaves the destination with valid check bits, so that no
scrub waits there (notes/assumptions/45), and BEHIND is a free value (notes/assumptions/2). -/
def Obligations.SparingRows : Prop :=
  ∀ (s : State) (w : BitVec 6) (v : W24) (k c : Nat), s.takes w → s.dev.ecc = [] → s.dev.stalls.wanted = [] → k < 128 →
    let d := s.dev
    let step := fld d F.REH_STAT_STEP 0
    let stall := fld d F.REH_STAT_STALL 0
    let next := d.stalls.next
    let spare := fld d F.MKT_SPARE_STATUS 0
    let base := regWrite d w.toNat A.MKT_SPARE v
    let wanted := fld base F.MKT_SPARE_STALL 0
    let rehBase := regWrite d w.toNat A.REH_CTRL v
    let copied (k : Nat) (st : Stalls) : Stalls := { st with scrubs := st.scrubs.filter fun a => a % 128 ≠ k }
    let state (k x : Nat) : Fld × Nat × Nat := (F.MKTS_STATE_STATE, k, x)
    let partner (k x : Nat) : Fld × Nat × Nat := (F.MKTS_STATE_PARTNER, k, x)
    let at_ (x : Nat) : Fld × Nat × Nat := (F.REH_STAT_STEP, 0, x)
    let started : List (Fld × Nat × Nat) :=
      (F.REH_STAT_STALL, 0, next) ::
        (if next = 128 then [at_ 4, state 128 2] else [at_ 2, state next 1, partner next 128])
    let ended : List (Fld × Nat × Nat) :=
      [at_ 0, (F.REH_STAT_BEHIND, 0, (Config.freeWord d.fresh).toNat % 2)]
        ++ (if stall = 128 then [(F.REH_STAT_ROTATIONS, 0, fld d F.REH_STAT_ROTATIONS 0 + 1)] else [])
        ++ (if fld d F.REH_CTRL_STATUS 0 = 2 then [(F.REH_CTRL_STATUS, 0, 0)] else [])
    let turn (st : Stalls) : Stalls := { st with next := (stall + 1) % 129, wanted := [] }
    (F.MKT_SPARE_GO.of v = 1 → spare = 0 → wanted < 128 → d.stalls.copying = none → step = 0 →
        fld d F.MKTS_STATE_STATE wanted ≠ 4 →
        Does (.spareGo w v) s base [state wanted 1, partner wanted 128, (F.MKT_SPARE_STATUS, 0, 1)]
          fun d => { d with stalls := { d.stalls with copying := some (wanted, 3) } })
    ∧ (F.MKT_SPARE_GO.of v = 0 ∨ spare ≠ 0 → Does (.spareGo w v) s base [] id)
    ∧ (d.stalls.copying = some (k, c) → Does .sparingRedirect s (post d 0x22 k k c)
        ([state k 4, partner k 128, state 128 6, partner 128 k, (F.MKT_SPARE_STATUS, 0, 2)]
          ++ if fld d F.REH_CTRL_STATUS 0 = 1 then [(F.REH_CTRL_STATUS, 0, 3)] else [])
        fun d => { d with stalls := { copied k d.stalls with standin := some k, copying := none, wanted := [] } })
    ∧ (d.house.boot ≠ 1 → fld d F.REH_CTRL_EN 0 = 1 → step = 0 → d.stalls.copying = none → spare < 2 → next ≤ 128 →
        Does .rehearsalSlotStart s d started id)
    ∧ (step = 2 → stall < 128 → Does .rehearsalCopyOutDone s d [at_ 4, state stall 2]
        fun d => { d with stalls := copied stall d.stalls })
    ∧ (step = 4 → stall < 128 → Does (.rehearsalTestDone false) s d [at_ 6, state stall 3] id)
    ∧ (step = 4 → stall = 128 → Does (.rehearsalTestDone false) s d (state 128 0 :: ended)
        fun d => { d with fresh := d.fresh + 1, stalls := turn d.stalls })
    ∧ (step = 6 → stall < 128 → Does .rehearsalCopyBackDone s d (state stall 0 :: partner stall 0 :: ended)
        fun d => { d with fresh := d.fresh + 1, stalls := turn (copied stall d.stalls) })
    ∧ (d.house.boot = 1 → Does .rehearsalSlotStart s d [] id)
    ∧ (d.house.boot ≠ 1 → F.REH_CTRL_EN.of v = 1 → step = 0 → d.stalls.copying = none → spare < 2 → next ≤ 128 →
        Does (.rehEnableWrite w v) s rehBase ((F.REH_CTRL_STATUS, 0, 1) :: started) id)
    ∧ (F.REH_CTRL_EN.of v = 0 → step = 0 ∨ 2 < step →
        Does (.rehEnableWrite w v) s rehBase [(F.REH_CTRL_STATUS, 0, if step = 0 then 0 else 2)] id)

/-- O30. The window phase adds STEP to every HEAD modulo the live length, and changes nothing else. A write of HEAD takes
the value modulo the length. LOAD and APPLY make the live port busy and act when they are done: LOAD fills the staging
registers from the live copy, APPLY installs them as the live and next copies of window SEL; a write to a busy port,
or behind a held one of its master, is held, and made again in its turn when the port is done; both bits at once are
posted as REG_RSVD. A Board view write is one operation in its master's posting queue, or acts at once while no tick
edges arrive. The model's choices: LOAD and APPLY act when they are done (notes/assumptions/19), and what waits behind
a held access of its master (notes/assumptions/46). -/
def Obligations.WindowAndBoardRows : Prop :=
  ∀ (s : State) (w : BitVec 6) (n idx : BitVec 12) (v : W24) (b : Nat) (m' : BitVec 6) (a a' v' : W24), s.takes w →
    let d := s.dev
    let len (j : Nat) : Nat := fld d F.WIN_LEN_LENM1 j + 1
    let sel := fld d F.MKT_WLIVE_SEL_WIN 0
    let busy := fld d F.MKT_WLIVE_CMD_BUSY 0 = 1
    let load := F.MKT_WLIVE_CMD_LOAD.of v = 1
    let apply := F.MKT_WLIVE_CMD_APPLY.of v = 1
    let first := inOrder s w.toNat = true
    let write (m : BitVec 6) (a v : W24) : Instr := .registerWrite m a { word := v, whole := true }
    let later : State := { s with dev := { d with wliveHeld := [(w.toNat, a.toNat, some v), (m'.toNat, a'.toNat, some v')] } }
    let calm := busy ∧ d.wliveHeld = [] ∧ d.boardHeld = [] ∧ ∀ c < 19, (core d c).hold ≠ .busy
    let starts (i : Instr) (x : Bool) : Prop :=
      Does i s d [(F.MKT_WLIVE_CMD_BUSY, 0, 1)] fun d => { d with wliveApply := x }
    let pairs : List (Fld × Fld) :=
      [(F.MKT_WLIVE_BASE_BASE_LO, F.WIN_BASE_BASE_LO), (F.MKT_WLIVE_CFG_STEP, F.WIN_CFG_STEP),
       (F.MKT_WLIVE_CFG_BASE_HI, F.WIN_CFG_BASE_HI), (F.MKT_WLIVE_LEN_LENM1, F.WIN_LEN_LENM1)]
    let q := if w = 17 then 20 else if w = 18 then 21 else 22
    let op (o : Nat) : BoardOp :=
      { op := o, base := 16 * idx.toNat, mask := BitVec.ofNat 32 (v.toNat % 65536), own := w.toNat }
    let view (i : Instr) (o : Nat) : Prop :=
      (v.toNat % 65536 = 0 → Does i s d [] id)
      ∧ (v.toNat % 65536 ≠ 0 → d.ticking = true → (Tab.get [] d.bheld q).isEmpty = true →
          (Tab.get [] d.bdue q).length + (Tab.get [] d.bq q).length < 64 →
          Does i s d [] fun d => { d with bq := Tab.set [] d.bq q (Tab.get [] d.bq q ++ [op o]) })
      ∧ (v.toNat % 65536 ≠ 0 → d.ticking = false → b < 65536 → Gives i s fun t =>
          Tab.get false t.dev.brd b
              = (if 16 * idx.toNat ≤ b ∧ b < 16 * idx.toNat + 16 ∧ v.getLsbD (b - 16 * idx.toNat) = true then o == 1
                 else Tab.get false d.brd b)
            ∧ { t.dev with brd := d.brd } = d ∧ t.sec = s.sec ∧ t.pending = s.pending)
    (Gives .windowHeadAdvance s fun t =>
        fld t.dev F.WIN_HEAD_HEAD n.toNat = (fld d F.WIN_HEAD_HEAD n.toNat + fld d F.WIN_CFG_STEP n.toNat) % len n.toNat
          ∧ SameRegs ((List.range 4096).map F.WIN_HEAD_HEAD.addr) d t.dev
          ∧ { t.dev with ctl := d.ctl } = d ∧ t.sec = s.sec ∧ t.pending = s.pending)
    ∧ Does (.winHeadWrite w n v) s d [(F.WIN_HEAD_HEAD, n.toNat, v.toNat % len n.toNat)] id
    ∧ (first → ¬busy → load → ¬apply → starts (.wliveLoad w v) false)
    ∧ (first → ¬busy → apply → ¬load → starts (.wliveApply w v) true)
    ∧ (first → ¬busy → load → apply → Does (.wliveLoad w v) s (post d 0x01 w.toNat A.MKT_WLIVE_CMD v.toNat) [] id)
    ∧ (busy ∨ heldByWlive s w.toNat = true → heldByPb s w.toNat = false →
        ∀ i ∈ [Instr.wliveLoad w v, Instr.wliveApply w v], Does i s d [] fun d =>
          { d with wliveHeld := d.wliveHeld ++ [(w.toNat, A.MKT_WLIVE_CMD, some v)] })
    ∧ (calm → d.wliveApply = false →
        Does .wliveDone s d ((F.MKT_WLIVE_CMD_BUSY, 0, 0) :: pairs.map fun p => (p.1, 0, fld d p.2 sel)) id)
    ∧ (calm → w ≠ 32 → m' ≠ 32 → ∀ c ∈ [Instr.wliveDone],
        ∃ t t', exec c s = .next t ∧ exec (write w a v) t = .next t' ∧ exec c later = exec (write m' a' v') t')
    ∧ (calm → d.wliveApply = true →
        fld d F.WIN_HEAD_HEAD sel ≤ fld d F.MKT_WLIVE_LEN_LENM1 0 →
        Gives .wliveDone s fun t =>
          RegsBecome ((F.MKT_WLIVE_CMD_BUSY, 0, 0) :: pairs.map fun p => (p.2, sel, fld d p.1 0)) d t.dev
            ∧ (∀ p ∈ pairs, nfld t.dev p.2 sel = fld d p.1 0)
            ∧ { t.dev with ctl := d.ctl, nxt := d.nxt } = d ∧ t.sec = s.sec ∧ t.pending = s.pending)
    ∧ view (.boardViewSet w idx v) 1 ∧ view (.boardViewClr w idx v) 2

/-- O31. A QPUSH with room joins its unit's queue; without room the descriptor's word 6 says REFUSED, the refusal is
counted, the completion bit goes to the Board, and TU_REFUSED is posted unless the last submission was refused too. A
unit that is free and holds no Board write reads its oldest descriptor and runs it, or ends it as BADDESC; otherwise a
start does nothing. At the end the destination holds the transform of what was read, word 6 the result and exponent,
the completion bit joins the unit's Board queue, and DONE rises; where no word of the source carries an error or has
changed since the start, what was read is the source, and nothing else changes. -/
def Obligations.TransformRows : Prop :=
  ∀ (s : State) (w : BitVec 6) (u : Fin 2) (v : W24) (q : TuDesc) (rest : List TuDesc) (r : TuRun), s.takes w →
    let d := s.dev
    let t : Tu := Tab.get {} d.tus u
    let base := regWrite d w.toNat (F.TU_QPUSH_DESC.addr u) v
    let a := F.TU_QPUSH_DESC.of v * 8 % 67108864 / 8 * 8
    let len := t.queue.length + (if t.running.isSome then 1 else 0)
    let status := fld d F.TU_CTRL_STATUS u
    let free := (Tab.get [] d.bheld (16 + u.val)).isEmpty = true
    let shows (n : Nat) (run : Bool) : List (Fld × Nat × Nat) := [(F.TU_STAT_QLEN, u.val, n), (F.TU_STAT_BUSY, u.val, if run then 1 else 0)]
    let off (n : Nat) : List (Fld × Nat × Nat) := if status = 2 ∧ n = 0 then [(F.TU_CTRL_STATUS, u.val, 0)] else []
    let word (a : Nat) : Nat := (Tab.get 0 d.mkt (a % 67108864)).toNat
    let bit (a : Nat) : Option Nat := if word (a + 5) / 2 ^ 23 % 2 = 1 then some (word (a + 5) % 65536) else none
    let marks (b : Option Nat) (x : Dev) : Dev :=
      match b with
      | some b => boardIssue x (16 + u.val) { op := 1, base := b, mask := 1 }
      | none => x
    let logn := word q.addr / 4096 % 16
    let op := word q.addr / 256 % 4
    let src := word (q.addr + 1) % 1024 * 65536 + word (q.addr + 2) % 65536
    let dst := word (q.addr + 3) % 1024 * 65536 + word (q.addr + 4) % 65536
    let n := 2 ^ (logn + 1)
    let runs := 6 ≤ logn ∧ logn ≤ 13 ∧ op < 2 ∧ src + n ≤ 67108864 ∧ dst + n ≤ 67108864
    let clean := ∀ i < 6, Tab.get 0 d.ecc ((q.addr + i) % 67108864) = 0
    let alike (x y : Dev) : Prop :=
      { x with
        tus := d.tus, mkt := d.mkt, ecc := d.ecc, past := d.past, stalls := d.stalls, tallies := d.tallies, fresh := d.fresh
        ctl := d.ctl } = { y with ctl := d.ctl }
    let out (data : List W24) := transform r.inverse r.logn r.expIn (toPoints data)
    let points (data : List W24) := (out data).1.flatMap fun c => [BitVec.ofInt 24 c.1, BitVec.ofInt 24 c.2]
    let ends (data : List W24) (bad : Bool) (x : State) : Prop :=
      (∀ i < (points data).length, r.dst + i ≠ r.addr + 6 →
        Tab.get 0 x.dev.mkt (r.dst + i) = (points data).getD i 0 ∧ Tab.get 0 x.dev.ecc (r.dst + i) = 0)
      ∧ Tab.get 0 x.dev.mkt (r.addr + 6) = BitVec.ofNat 24 ((if bad then 2 else 1) * 2 ^ 21 + (out data).2 % 256)
      ∧ (∀ b, b < r.dst ∨ r.dst + (points data).length ≤ b → b ≠ r.addr + 6 → Tab.get 0 x.dev.mkt b = Tab.get 0 d.mkt b)
      ∧ (Tab.get {} x.dev.tus u : Tu) = { t with running := none } ∧ OnlyAt {} u.val d.tus x.dev.tus
      ∧ fld x.dev F.TU_CNT_DONE u = (fld d F.TU_CNT_DONE u + 1) % F.TU_CNT_DONE.size
      ∧ x.dev.bq = (marks r.done d).bq ∧ x.dev.bheld = (marks r.done d).bheld ∧ x.dev.brd = (marks r.done d).brd
      ∧ x.sec = s.sec ∧ x.pending = s.pending
    (len < 16 → status = 1 →
        Does (.tuQpush w u v) s base (shows (len + 1) t.running.isSome) fun d =>
          { d with tus := Tab.set {} d.tus u { t with queue := t.queue ++ [{ addr := a, fresh := false }], refusing := false } })
    ∧ (len ≥ 16 ∨ status ≠ 1 → ¬free → Does (.tuQpush w u v) s base (shows len t.running.isSome) fun d =>
        let waits : Tu := { t with refusing := true, waiting := t.waiting ++ [(a, !t.refusing)] }
        { d with tus := Tab.set {} (Tab.set {} d.tus u { t with refusing := true }) u waits })
    ∧ (len ≥ 16 ∨ status ≠ 1 → free → Tab.get 0 d.ecc (a + 5) = 0 → Gives (.tuQpush w u v) s fun x =>
        Tab.get 0 x.dev.mkt (a + 6) = 0x600000 ∧ Tab.get 0 x.dev.ecc (a + 6) = 0
          ∧ OnlyAt 0 (a + 6) d.mkt x.dev.mkt ∧ OnlyAt 0 (a + 6) d.ecc x.dev.ecc
          ∧ (Tab.get {} x.dev.tus u : Tu) = { t with refusing := true } ∧ OnlyAt {} u.val d.tus x.dev.tus
          ∧ RegsBecome ((F.TU_CNT_REFUSED, u.val, min (F.TU_CNT_REFUSED.size - 1) (fld d F.TU_CNT_REFUSED u + 1))
              :: shows len t.running.isSome) base x.dev
          ∧ alike x.dev (if t.refusing then marks (bit a) base else post (marks (bit a) base) 0x37 u.val a (a / 2 ^ 24))
          ∧ x.sec = s.sec ∧ x.pending = s.pending)
    ∧ (t.running ≠ none ∨ t.queue = [] ∨ ¬free → Gives (.tuDescriptorStart u) s (· = s))
    ∧ (t.running = none → t.queue = q :: rest → free → clean →
        (runs → Gives (.tuDescriptorStart u) s fun x =>
          (Tab.get {} x.dev.tus u : Tu) = { t with
              queue := rest
              running := some
                { addr := q.addr, logn := logn, inverse := op = 1, expIn := word q.addr % 256, src := src, dst := dst
                  done := bit q.addr, fresh := q.fresh, dirty := q.dirty } }
            ∧ OnlyAt {} u.val d.tus x.dev.tus ∧ RegsBecome (shows (rest.length + 1) true) d x.dev
            ∧ x.dev.mkt = d.mkt ∧ SameTab 0 d.ecc x.dev.ecc ∧ alike x.dev d ∧ x.sec = s.sec ∧ x.pending = s.pending)
        ∧ (¬runs → Gives (.tuDescriptorStart u) s fun x =>
          Tab.get 0 x.dev.mkt ((q.addr + 6) % 67108864) = 0x800000 ∧ OnlyAt 0 ((q.addr + 6) % 67108864) d.mkt x.dev.mkt
            ∧ (Tab.get {} x.dev.tus u : Tu) = { t with queue := rest } ∧ OnlyAt {} u.val d.tus x.dev.tus
            ∧ RegsBecome
                ((F.TU_STAT_BADDESC, u.val, min (F.TU_STAT_BADDESC.size - 1) (fld d F.TU_STAT_BADDESC u + 1))
                  :: shows rest.length false ++ off rest.length) d x.dev
            ∧ alike x.dev (post (marks (bit q.addr) d) 0x36 u.val q.addr (q.addr / 2 ^ 24))
            ∧ x.sec = s.sec ∧ x.pending = s.pending))
    ∧ (t.running = none → t.queue = q :: rest → free → (Tab.get 0 d.ecc (q.addr % 67108864)).getLsbD 30 = true →
        Gives (.tuDescriptorStart u) s fun x =>
          Tab.get 0 x.dev.mkt ((q.addr + 6) % 67108864) = 0x800000 ∧ (Tab.get {} x.dev.tus u : Tu) = { t with queue := rest })
    ∧ (d.boardHeld = [] → d.house.trans ≠ 2 → t.running = none ∨ ¬free → Gives (.tuDescriptorEnd u) s (· = s))
    ∧ (d.boardHeld = [] → d.house.trans ≠ 2 → t.running = some r → free → r.dst + 2 ^ (r.logn + 1) ≤ 67108864 → r.addr + 8 ≤ 67108864 →
        (∃ data bad, data.length = 2 ^ (r.logn + 1) ∧ Gives (.tuDescriptorEnd u) s (ends data bad))
        ∧ (r.fresh = false ∨ d.wrote = [] → r.fresh = true ∨ r.dirty = [] → (d.past.filter fun e => e.1 = u.val) = [] →
            (∀ j < 2 ^ (r.logn + 1), Tab.get 0 d.ecc (r.src + j) = 0) → Gives (.tuDescriptorEnd u) s fun x =>
              ends ((List.range (2 ^ (r.logn + 1))).map fun j => Tab.get 0 d.mkt (r.src + j)) false x
                ∧ RegsBecome ((F.TU_CNT_DONE, u.val, fld d F.TU_CNT_DONE u + 1) :: shows t.queue.length false
                    ++ off t.queue.length) d x.dev
                ∧ alike x.dev (marks r.done d)))

/-- O32. A valid submission keeps its word and its time, that of a NOW entry being TIME at its submission with its place
among the NOW submissions; with MODE 0 it stands ARMED where it heads the sheet and the wings hold its slot and else
PENDING, with MODE 1 also where its crossfade fails CANCELLED with cause 4; an invalid time, or a final slot that is
the slot, is CANCELLED with cause 5. Cancelling a waiting entry makes it CANCELLED with cause 1, posted as CUE_CANCEL.
The head is the entry STAT names. AUTOLOAD starts a load of the pending head's slot the wings do not hold, and
otherwise does nothing. Engines, memories and secure storage stay. -/
def Obligations.CueSheetRows : Prop :=
  ∀ (s : State) (w : BitVec 6) (v : W24) (n : Fin 64), s.takes w →
    let d := s.dev
    let st := fld d F.CUEN_STATE_STATE n
    let sec := fld d F.CUEN_SEC_HI_SEC n * 2 ^ 24 + fld d F.CUEN_SEC_LO_SEC n
    let ns := fld d F.CUEN_NS_HI_NS n * 2 ^ 24 + fld d F.CUEN_NS_LO_NS n
    let now := F.CUEN_CTL_NOW.of v = 1
    let holds (slot : Nat) : Prop := fld d F.CUE_WINGS_VALID 0 = 1 ∧ fld d F.CUE_WINGS_SLOT 0 = slot
    let alone : Prop := F.CUEN_CTL_FSLOT.of v = F.CUEN_CTL_SLOT.of v
    let stays (t : State) : Prop :=
      t.dev.cores = d.cores ∧ t.dev.mkt = d.mkt ∧ t.dev.pkt = d.pkt ∧ t.dev.brd = d.brd ∧ t.dev.stage = d.stage
        ∧ t.dev.wings = d.wings ∧ t.sec = s.sec ∧ t.pending = s.pending
    let shown (t : State) : Prop :=
      fld t.dev F.CUE_STAT_HEADV 0 = (if (cueHead t.dev).isSome then 1 else 0)
        ∧ (∀ m, cueHead t.dev = some m → fld t.dev F.CUE_STAT_HEAD 0 = m)
    let kept (t : State) : Prop :=
      (Tab.get {} t.dev.cue.entries n : CueEntry)
          = { ctl := v, sec := if now then t.dev.time.sec else sec, ns := if now then t.dev.time.frac / 2 ^ 32 else ns
              seq := if now then d.cue.subs + 1 else 0 }
        ∧ OnlyAt {} n.val d.cue.entries t.dev.cue.entries
    (st ≠ 3 → F.CUEN_CTL_VALID.of v = 1 → (now ∨ ns < 1000000000) → F.CUEN_CTL_MODE.of v = 0 →
        Gives (.cueSubmit w n v) s fun t =>
          fld t.dev F.CUEN_STATE_STATE n = (if holds (F.CUEN_CTL_SLOT.of v) ∧ cueHead t.dev = some n.val then 2 else 1)
            ∧ fld t.dev F.CUEN_CTL_VALID n = 1 ∧ fld t.dev F.CUEN_STATE_LATEFLAG n = 0 ∧ fld t.dev F.CUEN_STATE_CAUSE n = 0
            ∧ kept t ∧ shown t ∧ stays t)
    ∧ (st ≠ 3 → F.CUEN_CTL_VALID.of v = 1 → (now ∨ ns < 1000000000) → F.CUEN_CTL_MODE.of v = 1 → ¬alone →
        Gives (.cueSubmit w n v) s fun t =>
          ((fld t.dev F.CUEN_STATE_STATE n = 5 ∧ fld t.dev F.CUEN_STATE_CAUSE n = 4)
            ∨ (fld t.dev F.CUEN_STATE_CAUSE n = 0 ∧ fld t.dev F.CUEN_CTL_VALID n = 1
              ∧ fld t.dev F.CUEN_STATE_STATE n = (if holds (F.CUEN_CTL_SLOT.of v) ∧ cueHead t.dev = some n.val then 2 else 1)))
            ∧ kept t ∧ shown t ∧ stays t)
    ∧ (st ≠ 3 → F.CUEN_CTL_VALID.of v = 1 → (¬now ∧ 1000000000 ≤ ns) ∨ (F.CUEN_CTL_MODE.of v = 1 ∧ alone) →
        Gives (.cueSubmit w n v) s fun t =>
        fld t.dev F.CUEN_STATE_STATE n = 5 ∧ fld t.dev F.CUEN_STATE_CAUSE n = 5 ∧ fld t.dev F.CUEN_CTL_VALID n = 0
          ∧ ⟨0x34, n.val, BitVec.ofNat 24 n, 5⟩ ∈ t.dev.led.arriving ∧ t.dev.cue = d.cue ∧ shown t ∧ stays t)
    ∧ (1 ≤ st → st ≤ 3 → F.CUEN_CTL_VALID.of v = 0 → (RegMap.lookup (F.CUEN_CTL_VALID.addr n)).isSome = true →
        Gives (.cueEntryCancel w n v) s fun t =>
        fld t.dev F.CUEN_STATE_STATE n = 5 ∧ fld t.dev F.CUEN_STATE_CAUSE n = 1 ∧ fld t.dev F.CUEN_CTL_VALID n = 0
          ∧ ⟨0x34, n.val, BitVec.ofNat 24 n, 1⟩ ∈ t.dev.led.arriving ∧ t.dev.cue = d.cue ∧ shown t ∧ stays t)
    ∧ (fld d F.CUE_CTRL_AUTOLOAD 0 = 1 → d.cue.job = none → cueHead d = some n.val → st = 1 →
        ¬holds (F.CUEN_CTL_SLOT.of (Tab.get {} d.cue.entries n : CueEntry).ctl) → Gives .autoload s fun t =>
          fld t.dev F.CUE_LOAD_BUSY 0 = 1
            ∧ (t.dev.cue.job.map fun j => (j.slot, j.verify, j.entry, j.follow))
              = some (F.CUEN_CTL_SLOT.of (Tab.get {} d.cue.entries n : CueEntry).ctl, false, some n.val, none)
            ∧ (d.ecc = [] → SameRegs [A.CUE_LOAD] d t.dev) ∧ stays t)
    ∧ (fld d F.CUE_CTRL_AUTOLOAD 0 = 0 ∨ d.cue.job ≠ none ∨ cueHead d = none → Gives .autoload s (· = s))

/-- O33. A GO while a load runs or AUTOLOAD = 1 is refused and changes nothing else; otherwise a load or verify of SLOT is
in progress, its check waiting while its porter has a descriptor. A load that failed its check ends with its result,
the wings invalid and CUE_LOADFAIL posted; one that passed runs its write pass, and where every section read again
carries its CRC the wings are valid and name the slot, the rate and the ID of its header, and where one does not it
ends as BADSECT with that section; with no section it empties the wings' stores but for the built-in test program. A
slot's base takes a write at once, or after a load of that slot, and the wings that hold the slot are no longer valid.
A wings word takes a write, and the wings are no longer valid. Engines, the stage and secure storage stay. The model's
choices: a refused CUE.LOAD sets RESULT alone (notes/assumptions/17), and the check pass is made at the start, the
write pass at the end (notes/assumptions/8 and 18). -/
def Obligations.CueLoadRows : Prop :=
  ∀ (s : State) (w : BitVec 6) (v : W24) (v32 : W32) (n : Fin 16) (hi : Bool) (p : Fin 17) (a : BitVec 14) (j : LoadJob) (i : Nat)
    (got : List (Section × List Byte)) (d2 : Dev), s.takes w →
    let d := s.dev
    let go := F.CUE_LOAD_GO.of v = 1
    let refused := fld d F.CUE_LOAD_BUSY 0 = 1 ∨ fld d F.CUE_CTRL_AUTOLOAD 0 = 1
    let leaves (t : State) : Prop :=
      t.dev.cores = d.cores ∧ t.dev.brd = d.brd ∧ t.dev.stage = d.stage ∧ t.sec = s.sec ∧ t.pending = s.pending
    let stays (t : State) : Prop := t.dev.mkt = d.mkt ∧ t.dev.pkt = d.pkt ∧ leaves t
    let addr := A.CUE_SLOT_LO + 2 * n.val + (if hi then 1 else 0)
    let free (x : Nat) : Prop := fld d F.CUE_WINGS_VALID 0 = 0 ∨ fld d F.CUE_WINGS_SLOT 0 ≠ x
    let key := p.val * 16384 + a.toNat
    let empty := ∀ m < 64, fld d F.CUEN_STATE_STATE m = 0 ∨ 4 ≤ fld d F.CUEN_STATE_STATE m
    let ended := setf { d with cue := { d.cue with job := none, slotWrites := [] } } F.CUE_LOAD_BUSY 0 0
    let pass := writeSections j.master j.base j.verify (sectionsOf j.table (hdrCount j.head)) 0 [] ended
    let ended (t : State) (result sect : Nat) : Prop :=
      t.dev.cue.job = none ∧ fld t.dev F.CUE_LOAD_BUSY 0 = 0 ∧ fld t.dev F.CUE_LOAD_RESULT 0 = result % F.CUE_LOAD_RESULT.size
        ∧ fld t.dev F.CUE_LOAD_SECT 0 = sect % F.CUE_LOAD_SECT.size
    let failed (t : State) (result : Nat) : Prop :=
      fld t.dev F.CUE_WINGS_VALID 0 = 0
        ∧ ⟨0x35, j.slot % 4096, BitVec.ofNat 24 j.slot, BitVec.ofNat 24 result⟩ ∈ t.dev.led.arriving
    let ready := d.cue.job = some j ∧ j.begun = true ∧ d.cue.slotWrites = [] ∧ d.cue.followLoad = none
    (∀ row ∈ [Instr.cueLoad w v, Instr.cueVerify w v],
      (go → refused → Does row s d [(F.CUE_LOAD_RESULT, 0, LoadResult.refused.code), (F.CUE_LOAD_SECT, 0, 0)] id)
      ∧ (go → ¬refused → Gives row s fun t =>
          fld t.dev F.CUE_LOAD_BUSY 0 = 1
            ∧ (t.dev.cue.job.map fun j => (j.slot, j.verify, j.entry, j.follow))
              = some (F.CUE_LOAD_SLOT.of v, F.CUE_LOAD_MODE.of v == 1, none, none)
            ∧ (t.dev.cue.job.map (·.begun)) = some (Tab.get none d.moves (fld d F.CUE_CTRL_LPORT 0)).isNone
            ∧ (d.ecc = [] → SameRegs [A.CUE_LOAD] d t.dev) ∧ t.dev.wings = d.wings ∧ stays t))
    ∧ (ready → j.result ≠ 1 → Gives .cueLoadDone s fun t =>
        ended t j.result j.sect ∧ failed t j.result ∧ t.dev.wings = d.wings ∧ stays t)
    ∧ (ready → j.result = 1 → pass = (some i, got, d2) → Gives .cueLoadDone s fun t =>
        ended t LoadResult.badSect.code i ∧ failed t LoadResult.badSect.code ∧ t.dev.wings = d2.wings ∧ leaves t)
    ∧ (ready → j.result = 1 → pass = (none, got, d2) → Gives .cueLoadDone s fun t =>
        ended t 1 0 ∧ fld t.dev F.CUE_WINGS_VALID 0 = 1 ∧ fld t.dev F.CUE_WINGS_SLOT 0 = j.slot % F.CUE_WINGS_SLOT.size
          ∧ fld t.dev F.CUE_WINGS_RATE 0 = leAt j.head 12 1 % F.CUE_WINGS_RATE.size
          ∧ fld t.dev F.CUE_WINGS_ID_ID_LO 0 = hdrId j.head % F.CUE_WINGS_ID_ID_LO.size
          ∧ fld t.dev F.CUE_WINGS_ID_HI 0 = hdrId j.head / 2 ^ 24 % F.CUE_WINGS_ID_HI.size
          ∧ t.dev.mkt = d2.mkt ∧ t.dev.pkt = d2.pkt ∧ t.dev.nxt = (emptyRest d2 (sectionsOf j.table (hdrCount j.head))).nxt
          ∧ t.dev.wings = (emptyRest d2 (sectionsOf j.table (hdrCount j.head))).wings
          ∧ t.dev.cue.headz = headzOf got ∧ t.dev.cue.wings.paths = pathsOf got ∧ leaves t)
    ∧ (ready → j.result = 1 → hdrCount j.head = 0 → j.slot < 16 → Gives .cueLoadDone s fun t =>
        ended t 1 0 ∧ fld t.dev F.CUE_WINGS_VALID 0 = 1 ∧ fld t.dev F.CUE_WINGS_SLOT 0 = j.slot
          ∧ (i < 262144 → Tab.get 0x07900000 t.dev.wings i = 0x07900000) ∧ stays t)
    ∧ (d.cue.job = none ∨ (d.cue.job = some j ∧ j.begun = false ∧ (Tab.get none d.moves (j.master - 28)).isSome = true) →
        Gives .cueLoadDone s (· = s))
    ∧ (d.cue.job = some j → j.begun = false → Tab.get none d.moves (j.master - 28) = none →
        exec .cueLoadDone s = .next { s with dev := loadDone (loadCheck d j) })
    ∧ (d.cue.job.isSome = false ∨ (d.cue.job.map (·.slot)) ≠ some n.val →
        (free n.val → Does (.cueSlotWrite w n hi v) s (regWrite d w.toNat addr v) [] id)
        ∧ (¬free n.val → Gives (.cueSlotWrite w n hi v) s fun t =>
            rd t.dev addr = rd (regWrite d w.toNat addr v) addr ∧ fld t.dev F.CUE_WINGS_VALID 0 = 0
              ∧ t.dev.wings = d.wings ∧ stays t))
    ∧ ((d.cue.job.map (·.slot)) = some n.val → Does (.cueSlotWrite w n hi v) s d [] fun d =>
        { d with cue := { d.cue with slotWrites := d.cue.slotWrites ++ [(w, addr, v)] } })
    ∧ Gives (.wingsWrite p a v32) s fun t =>
        Tab.get 0x07900000 t.dev.wings key = v32 ∧ OnlyAt 0x07900000 key d.wings t.dev.wings
          ∧ fld t.dev F.CUE_WINGS_VALID 0 = 0
          ∧ (empty → SameRegs [F.CUE_WINGS_VALID.addr 0, A.CUE_STAT, A.CUE_CTRL] d t.dev) ∧ stays t

/-- O34. A prompter with ST.SEC = 1 reads and writes VAULT.DATA at ADDR, which AINC advances; a word past correction posts
VAULT_UE; while the vault is wiped a read gives nothing and a write is ignored. An access of any other master to DATA,
CMD or CCMD does nothing, and posts VAULT_DENY when it is the first of its run. WRAP, UNWRAP and the crypto commands
set BUSY and keep their operands; while the unit or the vault is busy or wiped they are REFUSED. An UNWRAP checks the
header, the serial number, the key and the tag in that order; where one fails it clears the words the header counts,
ends with its reason and posts VAULT_UNWRAP_FAIL. A WRAP first draws a key where there is none; at the last count it
ends as exhausted; otherwise it writes the blob of the words with the next count, and an UNWRAP of a valid blob brings
its words back. A crypto command with no number, or whose regions leave the Market or its key the vault, ends as
BADARG; each of the others writes its output at CDST and ends as OK, BADTAG or BADSIG, and KEYGEN leaves its private
key in the vault. The vault's words change as said here and no others. The model's choices: a run of refusals ends at
the next access allowed, commands take effect at DONE, a failed UNWRAP clears its words, WRAP wins over UNWRAP and a
length in the Market is little-endian (notes/assumptions/22); how random bytes become keys and scalars
(notes/assumptions/20). -/
def Obligations.VaultRows : Prop :=
  ∀ (s : State) (w : BitVec 6) (v x : W24) (upset : BitVec 30) (j : Seal) (c : CryptoJob), s.takes w →
    let d := s.dev
    let sec := (w = 17 ∨ w = 18) ∧ (core d w.toNat).st.getLsbD 14 = true
    let a := fld d F.VAULT_ADDR_ADDR 0
    let bump : List (Fld × Nat × Nat) := if fld d F.VAULT_ADDR_AINC 0 = 1 then [(F.VAULT_ADDR_ADDR, 0, a + 1)] else []
    let ends (d : Dev) : Dev := { d with house := { d.house with vaultDeny := d.house.vaultDeny.filter (· != w.toNat) } }
    let gives (i : Instr) (base : Dev) (l : List (Fld × Nat × Nat)) (rest : Dev → Dev) (Q : Sec → Prop) : Prop :=
      Gives i s fun t => RegsBecome l base t.dev ∧ { t.dev with ctl := base.ctl } = rest base ∧ Q t.sec ∧ t.pending = s.pending
    let wiping := fld d F.VAULT_STAT_WIPING 0 = 1
    let vbusy := fld d F.VAULT_STAT_BUSY 0 = 1
    let cbusy := fld d F.VAULT_CSTAT_BUSY 0 = 1
    let cmdBase := regWrite d w.toNat A.VAULT_CMD v
    let ccmdBase := regWrite d w.toNat A.VAULT_CCMD v
    let drawn (n : Nat) := (List.range n).map (Config.randomByte s.sec.draws)
    let bytes (t : List (Nat × W24)) (a n : Nat) : List Byte :=
      (List.range n).map fun k => BitVec.ofNat 8 ((Tab.get 0 t (a + k / 3)).toNat / 256 ^ (k % 3))
    let gcm := c.cmd = 2 ∨ c.cmd = 3
    let aad := if gcm then leAt (bytes d.mkt c.src 16) 12 4 else 0
    let reads := match c.cmd with
      | 1 => c.len | 2 => 16 + aad + c.len | 3 => 32 + aad + c.len | 4 => 48 | 5 => 240 | _ => 0
    let input := bytes d.mkt c.src reads
    let iv := input.take 12
    let ad := (input.drop 16).take aad
    let text := (input.drop (16 + aad)).take c.len
    let aes := bytes s.sec.vault c.key 32
    let scalar := p384Scalar (drawn 48)
    let tagged := gcmTag aes iv ad text = input.drop (16 + aad + c.len)
    let keyWords := if gcm then 11 else if c.cmd = 4 ∨ c.cmd = 6 then 16 else 0
    let output : List Byte := match c.cmd with
      | 1 => sha384 input
      | 2 => gcmStream aes iv text ++ gcmTag aes iv ad (gcmStream aes iv text)
      | 3 => if tagged then gcmStream aes iv text else []
      | 4 => ecdsaSign (bytes s.sec.vault c.key 48) input scalar
      | 6 => ecdsaPublic (beBytes 48 scalar)
      | 7 => drawn c.len
      | _ => []
    let writes := match c.cmd with
      | 1 => 48 | 2 => c.len + 16 | 3 => c.len | 4 => 96 | 6 => 96 | 7 => c.len | _ => 0
    let within := c.src + (reads + 2) / 3 ≤ 67108864 ∧ c.dst + (writes + 2) / 3 ≤ 67108864 ∧ c.key + keyWords ≤ 65536
    let ended : Nat :=
      if c.cmd = 3 ∧ ¬tagged then 2
      else if c.cmd = 5 ∧ ecdsaVerify ((input.drop 48).take 96) (input.take 48) (input.drop 144) = false then 3
      else 1
    let key := beBytes 32 s.sec.key.toNat
    let first := s.sec.key = 0
    let newKey : BitVec 256 := if first then BitVec.ofNat 256 (beNat (drawn 32)) else s.sec.key
    let count := if first then 1 else s.sec.wraps.toNat + 1
    let draw := if first then s.sec.draws + 1 else s.sec.draws
    let nonce := leBytes 4 count ++ (List.range 8).map (Config.randomByte draw)
    let head := [0x56, 0x4B, 0x42, 0x31, 1, 0, 0, 0] ++ leBytes 8 Config.fuseSerial.toNat ++ leBytes 4 j.len ++ leBytes 4 count ++ nonce
    let plain : List Byte :=
      (List.range j.len).flatMap fun i => (List.range 3).map fun b => BitVec.ofNat 8 ((Tab.get 0 s.sec.vault i).toNat / 256 ^ b)
    let cipher := gcmStream (beBytes 32 newKey.toNat) nonce plain
    let blob (n : Nat) : List Byte :=
      (List.range n).map fun k => BitVec.ofNat 8 ((Tab.get 0 d.mkt (j.blob + k / 3)).toNat / 256 ^ (k % 3))
    let size := leAt (blob 36) 16 4
    let sealed_ := blob (52 + 3 * min 65536 size)
    let opened := gcmStream key ((sealed_.drop 24).take 12) ((sealed_.drop 36).take (3 * size))
    let result : Nat :=
      if sealed_.take 8 ≠ [0x56, 0x4B, 0x42, 0x31, 1, 0, 0, 0] ∨ size = 0 ∨ 65536 < size then 2
      else if leAt sealed_ 8 8 ≠ Config.fuseSerial.toNat then 3
      else if s.sec.key = 0 then 5
      else if gcmTag key ((sealed_.drop 24).take 12) (sealed_.take 36) ((sealed_.drop 36).take (3 * size))
          = sealed_.drop (36 + 3 * size) then 1 else 4
    let crypto : List Instr :=
      [.sha384 w v, .gcmenc w v, .gcmdec w v, .sign w v, .verify w v, .keygen w v, .random w v]
    let asked (i : Instr) (wrap : Bool) : Prop :=
      (sec → ¬vbusy → ¬wiping → gives i cmdBase [(F.VAULT_STAT_BUSY, 0, 1)] ends fun k =>
        k.sealing = some { wrap := wrap, len := F.VAULT_CMD_WLENM1.of v + 1, who := w.toNat
                           blob := fld d F.VAULT_BLOB1_HI 0 * 2 ^ 24 + fld d F.VAULT_BLOB0_LO 0 }
          ∧ { k with sealing := s.sec.sealing } = s.sec)
      ∧ (sec → vbusy ∨ wiping → gives i cmdBase [(F.VAULT_STAT_RESULT, 0, 6)] ends fun k => k = s.sec)
    let guarded : List Instr :=
      [.vaultDataAccess w (some x) upset, .vaultDataAccess w none upset, .wrap w v, .unwrap w v] ++ crypto
    let flips := Tab.get 0 s.sec.vecc a ^^^ upset
    (sec → ¬wiping → gives (.vaultDataAccess w (some x) upset) d bump ends fun k =>
        Tab.get 0 k.vault a = x ∧ OnlyAt 0 a s.sec.vault k.vault ∧ Tab.get 0 k.vecc a = 0 ∧ OnlyAt 0 a s.sec.vecc k.vecc
          ∧ { k with vault := s.sec.vault, vecc := s.sec.vecc } = s.sec)
    ∧ (sec → ¬wiping → upset = 0 → Tab.get 0 s.sec.vecc a = 0 → gives (.vaultDataAccess w none upset) d bump ends fun k =>
        SameTab 0 s.sec.vecc k.vecc ∧ { k with vecc := s.sec.vecc } = s.sec)
    ∧ (sec → ¬wiping → 1 < ones (flips.zeroExtend 31) →
        gives (.vaultDataAccess w none upset) (post d 0x27 0 a 0) bump ends fun k =>
          Tab.get 0 k.vecc a = flips ∧ OnlyAt 0 a s.sec.vecc k.vecc ∧ { k with vecc := s.sec.vecc } = s.sec)
    ∧ (sec → wiping → ∀ o ∈ [none, some x], gives (.vaultDataAccess w o upset) d bump ends fun k => k = s.sec)
    ∧ (∀ i ∈ guarded, ¬sec →
        (w.toNat ∈ d.house.vaultDeny → gives i d [] id fun k => k = s.sec)
        ∧ (w.toNat ∉ d.house.vaultDeny → gives i (post d 0x26 w.toNat w.toNat 0) []
          (fun d => { d with house := { d.house with vaultDeny := w.toNat :: d.house.vaultDeny } }) fun k => k = s.sec))
    ∧ (F.VAULT_CMD_WRAP.of v = 1 → asked (.wrap w v) true)
    ∧ (F.VAULT_CMD_WRAP.of v = 0 → F.VAULT_CMD_UNWRAP.of v = 1 → asked (.unwrap w v) false)
    ∧ Does .vaultWipeDone s d [(F.VAULT_STAT_WIPING, 0, 0)] id
    ∧ (s.sec.sealing = some j → j.wrap = true → s.sec.key ≠ 0 → s.sec.wraps = 0xFFFFFFFF →
        gives .vaultCmdDone d [(F.VAULT_STAT_BUSY, 0, 0), (F.VAULT_STAT_RESULT, 0, 7)] id fun k =>
          { k with sealing := some j } = s.sec ∧ k.sealing = none)
    ∧ (s.sec.sealing = some j → j.wrap = false → d.ecc = [] → d.tallies = [] → d.mkt = [] →
        gives .vaultCmdDone (post d 0x28 0 2 0) [(F.VAULT_STAT_BUSY, 0, 0), (F.VAULT_STAT_RESULT, 0, 2)] id fun k =>
          SameTab 0 s.sec.vault k.vault ∧ k.sealing = none ∧ k.key = s.sec.key ∧ k.wraps = s.sec.wraps)
    ∧ (s.sec.sealing = some j → j.wrap = true → first ∨ s.sec.wraps ≠ 0xFFFFFFFF → s.sec.vecc = [] →
        j.blob + (54 + 3 * j.len) / 3 ≤ 67108864 → Gives .vaultCmdDone s fun t =>
          fld t.dev F.VAULT_STAT_BUSY 0 = 0 ∧ fld t.dev F.VAULT_STAT_RESULT 0 = 1
            ∧ (first → fld t.dev F.VAULT_STAT_BKEY 0 = b1 (newKey != 0)) ∧ t.sec.key = newKey
            ∧ (∀ k < (54 + 3 * j.len) / 3, Tab.get 0 t.dev.mkt (j.blob + k)
                = (pack3 (head ++ cipher ++ gcmTag (beBytes 32 newKey.toNat) nonce head cipher)).getD k 0)
            ∧ (∀ b, b < j.blob ∨ j.blob + (54 + 3 * j.len) / 3 ≤ b → Tab.get 0 t.dev.mkt b = Tab.get 0 d.mkt b)
            ∧ t.sec.wraps = BitVec.ofNat 32 count ∧ t.sec.draws = draw + 1
            ∧ { t.sec with wraps := s.sec.wraps, draws := s.sec.draws, key := s.sec.key, sealing := some j } = s.sec ∧ t.sec.sealing = none)
    ∧ (s.sec.sealing = some j → j.wrap = false → ¬wiping → d.ecc = [] → j.blob + (54 + 3 * min 65536 size) / 3 ≤ 67108864 →
        Gives .vaultCmdDone s fun t =>
          fld t.dev F.VAULT_STAT_BUSY 0 = 0 ∧ fld t.dev F.VAULT_STAT_RESULT 0 = result
            ∧ (∀ i, Tab.get 0 t.sec.vault i
                = if i < size then (if result = 1 then BitVec.ofNat 24 (leAt opened (3 * i) 3) else 0)
                  else Tab.get 0 s.sec.vault i)
            ∧ (∀ i, Tab.get 0 t.sec.vecc i = if i < size then 0 else Tab.get 0 s.sec.vecc i)
            ∧ (result ≠ 1 → ⟨0x28, 0, BitVec.ofNat 24 result, 0⟩ ∈ t.dev.led.arriving)
            ∧ t.dev.mkt = d.mkt ∧ { t.sec with vault := s.sec.vault, vecc := s.sec.vecc, sealing := some j } = s.sec
            ∧ t.sec.sealing = none)
    ∧ (∀ i ∈ crypto, F.VAULT_CCMD_GO.of v = 1 →
        (sec → ¬cbusy → ¬vbusy → ¬wiping → gives i ccmdBase [(F.VAULT_CSTAT_BUSY, 0, 1)] ends fun k =>
          k.crypto = some
              { cmd := fld ccmdBase F.VAULT_CCMD_CMD 0, who := w.toNat, len := fld d F.VAULT_CLEN_LEN 0
                key := fld d F.VAULT_CKEY_ADDR 0
                src := fld d F.VAULT_CSRC_HI_ADDR 0 * 2 ^ 24 + fld d F.VAULT_CSRC_LO_ADDR 0
                dst := fld d F.VAULT_CDST_HI_ADDR 0 * 2 ^ 24 + fld d F.VAULT_CDST_LO_ADDR 0 }
            ∧ { k with crypto := s.sec.crypto } = s.sec)
        ∧ (sec → cbusy ∨ vbusy ∨ wiping → gives i (raise ccmdBase 22) [(F.VAULT_CSTAT_RESULT, 0, 5)] ends fun k => k = s.sec))
    ∧ (s.sec.crypto = some c → c.cmd ≤ 7 → c.cmd = 0 ∨ ¬within → (gcm → d.ecc = [] ∧ d.tallies = []) →
        gives .cryptoDone (raise d 22) [(F.VAULT_CSTAT_BUSY, 0, 0), (F.VAULT_CSTAT_RESULT, 0, 4)] id fun k =>
          { k with crypto := some c } = s.sec ∧ k.crypto = none)
    ∧ (s.sec.crypto = some c → 1 ≤ c.cmd → c.cmd ≤ 7 → within → d.ecc = [] → d.tallies = [] → s.sec.vecc = [] →
        Gives .cryptoDone s fun t =>
          fld t.dev F.VAULT_CSTAT_BUSY 0 = 0 ∧ fld t.dev F.VAULT_CSTAT_RESULT 0 = ended
            ∧ (∀ k < (output.length + 2) / 3, Tab.get 0 t.dev.mkt (c.dst + k) = (pack3 output).getD k 0)
            ∧ (∀ b, b < c.dst ∨ c.dst + (output.length + 2) / 3 ≤ b → Tab.get 0 t.dev.mkt b = Tab.get 0 d.mkt b)
            ∧ (∀ i, Tab.get 0 t.sec.vault i
                = if c.cmd = 6 ∧ ¬wiping ∧ c.key ≤ i ∧ i < c.key + 16 then (pack3 (beBytes 48 scalar)).getD (i - c.key) 0
                  else Tab.get 0 s.sec.vault i)
            ∧ t.sec.draws = s.sec.draws + (if c.cmd = 4 ∨ c.cmd = 6 ∨ c.cmd = 7 then 1 else 0) ∧ t.sec.vecc = []
            ∧ { t.sec with crypto := some c, vault := s.sec.vault, draws := s.sec.draws } = s.sec ∧ t.sec.crypto = none)

/-- O35. A permitted write stores its bytes from ADDR, sets BUSY, and AINC advances ADDR by 1 or 3; a permitted read
changes no byte. A refused access stores nothing, sets DENIED, and posts PB_DENY when it is the first of its run.
While BUSY, or behind a held one of its master, an access is held; when the write is done the accesses held are made
again in their order. No other byte, register or storage changes. The model's choices: DATA3 is refused whole, ADDR
advances after a refusal, and what waits behind a held access (notes/assumptions/46); a run of refusals ends at the
next access allowed (notes/assumptions/22). -/
def Obligations.PromptBookRows : Prop :=
  ∀ (s : State) (w : BitVec 6) (v : W24) (b : Nat) (m' : BitVec 6) (a v' : W24) (a' : W24), s.takes w →
    let d := s.dev
    let p := fld d F.PB_ADDR_ADDR 0
    let sec := (w = 17 ∨ w = 18) ∧ (core d w.toNat).st.getLsbD 14 = true
    let reads (n : Nat) : Prop := ∀ i < n, (p + i) % 0x80000 < 0x78000 ∨ sec
    let writes (n : Nat) : Prop := ∀ i < n,
      if 0x78000 ≤ (p + i) % 0x80000 then sec
      else ((p + i) % 0x80000 < 0x1000 ∨ 0x10000 ≤ (p + i) % 0x80000) ∧ (w = 17 ∨ w = 18 ∨ w = 32)
    let bump (n : Nat) : List (Fld × Nat × Nat) :=
      if fld d F.PB_ADDR_AINC 0 = 1 then [(F.PB_ADDR_ADDR, 0, p + n)] else []
    let ends (d : Dev) : Dev := { d with house := { d.house with pbDeny := d.house.pbDeny.filter (· != w.toNat) } }
    let gives (i : Instr) (base : Dev) (l : List (Fld × Nat × Nat)) (rest : Dev → Dev) (Q : Sec → Prop) : Prop :=
      Gives i s fun t => RegsBecome l base t.dev ∧ { t.dev with ctl := base.ctl } = rest base ∧ Q t.sec ∧ t.pending = s.pending
    let busy := fld d F.PB_STAT_BUSY 0 = 1
    let first := inOrder s w.toNat = true
    let write (m : BitVec 6) (a v : W24) : Instr := .registerWrite m a { word := v, whole := true }
    let later : State := { s with sec := { s.sec with pbHeld := [(w.toNat, a.toNat, some v), (m'.toNat, a'.toNat, some v')] } }
    let row (n : Nat) (x : Option W24) : Instr := if n = 1 then .pbDataAccess w x else .pbData3Access w x
    (∀ n ∈ [1, 3],
      (first → ¬busy → writes n → gives (row n (some v)) d ((F.PB_STAT_BUSY, 0, 1) :: bump n) ends fun k =>
        (b < 0x80000 → Tab.get 0 k.pb b
          = if (b + 0x80000 - p) % 0x80000 < n then BitVec.ofNat 8 (v.toNat / 256 ^ ((b + 0x80000 - p) % 0x80000))
            else Tab.get 0 s.sec.pb b)
          ∧ { k with pb := s.sec.pb } = s.sec)
      ∧ (first → ¬busy → reads n → gives (row n none) d (bump n) ends fun k => k = s.sec)
      ∧ (first → ¬busy → ¬writes n → w.toNat ∈ d.house.pbDeny →
          gives (row n (some v)) d ((F.PB_STAT_DENIED, 0, 1) :: bump n) id fun k => k = s.sec)
      ∧ (first → ¬busy → ¬writes n → w.toNat ∉ d.house.pbDeny →
          gives (row n (some v)) (post d 0x29 w.toNat w.toNat 0) ((F.PB_STAT_DENIED, 0, 1) :: bump n)
            (fun d => { d with house := { d.house with pbDeny := w.toNat :: d.house.pbDeny } }) fun k => k = s.sec)
      ∧ ((busy ∧ first) ∨ heldByPb s w.toNat = true → gives (row n (some v)) d [] id fun k =>
          k.pbHeld = s.sec.pbHeld ++ [(w.toNat, if n = 1 then A.PB_DATA else A.PB_DATA3, some v)]
            ∧ { k with pbHeld := s.sec.pbHeld } = s.sec))
    ∧ (s.sec.pbHeld = [] → d.boardHeld = [] → (∀ c < 19, (core d c).hold ≠ .busy) →
        Does .pbWriteDone s d [(F.PB_STAT_BUSY, 0, 0)] id
        ∧ (w ≠ 32 → m' ≠ 32 → ∀ c ∈ [Instr.pbWriteDone],
          ∃ t t', exec c s = .next t ∧ exec (write w a v) t = .next t' ∧ exec c later = exec (write m' a' v') t'))

/-- O36. A window without a measured slack changes nothing. One with it shows the slack; short of GUARD, or after a CUTOFF
overrun, at VMAX, the run is shown in ATMAX and AVS_LIMIT posted once, and any other window ends the run. While EN is
1 and an engine runs, a short window makes the request rise by STEP_UP to VMAX at most, once in a settle interval and
not while frozen; above GUARD + HYST for HOLDWIN windows it falls by STEP_DN to VMIN at least, once the settle
interval is over; between, it is held. A new request is written over AVSBus. A write that is acknowledged shows the
request and starts the settle interval; the fourth failure of a write or a read freezes the governor and posts it,
with the pending write kept; a write of a frozen governor that is acknowledged ends the freeze. With EN = 0, or before
a stage runs, the request that follows is VSTART. Limits with VMIN above VMAX are refused. Nothing else changes. The
model's choices (notes/assumptions/47): a request above VMAX comes down to it outside a settle interval, a step down
that the settle interval refuses sets the count to 0, a frozen attempt is a single one, a read fails as a write does
and its fourth failure posts while frozen too, and a raise outside a settle interval counts for the one its own
acknowledgement starts. -/
def Obligations.GovernorRows : Prop :=
  ∀ (s : State) (w : BitVec 6) (v : W24) (m : Nat), s.takes w →
    let d := s.dev
    let g := d.gov
    let clip (n : Nat) : Nat := max 680 (min 850 n)
    let step (f : Fld) : Nat := max 1 (min 50 (fld d f 0))
    let guard := 10 * max 1 (fld d F.PWR_GOV_CTRL_GUARD 0)
    let top := clip (fld d F.PWR_GOV_LIMITS_VMAX 0)
    let low := clip (fld d F.PWR_GOV_LIMITS_VMIN 0)
    let wants (g : Gov) (x : Nat) : Gov :=
      if g.frozen ∨ x = g.vreq then g
      else if g.busy then { g with vreq := x } else { g with vreq := x, busy := true, sent := x, tries := 0 }
    let short := g.ovr = true ∨ m < guard
    let full := short ∧ g.vreq = top
    let closed : Gov := { g with minSlack := none, ovr := false, maxRun := decide full }
    let overs := m > guard + 10 * fld d F.PWR_GOV_STEP_HYST 0
    let up := min top (g.vreq + step F.PWR_GOV_STEP_STEP_UP)
    let down := max low (g.vreq - step F.PWR_GOV_STEP_STEP_DN)
    let hold := fld d F.PWR_GOV_CTRL_HOLDWIN 0
    let ends (g' : Gov) : Prop :=
      Does .govWindowEnd s (if full ∧ g.maxRun = false then post d 0x65 0 1 0 else d)
        [(F.PWR_GOV_STAT_MINSLACK, 0, min 511 (m / 10)), (F.PWR_GOV_STAT_ATMAX, 0, if full then 1 else 0)]
        fun d => { d with gov := g' }
    let idle := d.ticking = false ∨ d.house.engStop = true ∨ ∀ p < 16, fld d F.SE_ENG_CTRL_STATUS p = 0
    let en := fld d F.PWR_GOV_CTRL_EN 0 = 1
    let measured := g.minSlack = some m
    let window := en ∧ measured ∧ ¬idle
    let vstart := clip (fld d F.PWR_GOV_START_VSTART 0)
    let starts (g : Gov) : Gov :=
      if en ∧ g.started = true then g
      else if g.frozen then { g with vreq := vstart, sent := if g.busy then g.sent else vstart }
      else wants g vstart
    let write (ok : Bool) : Instr := .avsTransactionEnd { ok := ok }
    let read (ok : Bool) : Instr := .avsTransactionEnd { write := false, ok := ok }
    let shown := fld d F.PWR_GOV_STAT_VREQ 0
    let fails (c : Instr) (g' : Gov) : Prop := Does c s (post d 0x65 0 2 0) [(F.PWR_GOV_STAT_BUSERR, 0, 1)] fun d' =>
      { d' with gov := { g' with tries := 0, readTries := 0 } }
    let freezes : Gov :=
      starts { g with busy := false, frozen := true, vreq := shown, sent := if g.busy then g.sent else shown }
    (g.minSlack = none → Does .govWindowEnd s d [] fun d => { d with gov := { g with ovr := false } })
    ∧ (measured → ¬en ∨ idle → ends closed)
    ∧ (window → short → g.vreq < up → g.raised = false → g.frozen = false →
        ends { wants { closed with above := 0 } up with raised := true })
    ∧ (window → short → up < g.vreq → g.settle = 0 → ends (wants { closed with above := 0 } up))
    ∧ (window → short → g.raised = true ∨ g.frozen = true ∨ up ≤ g.vreq → g.vreq ≤ up ∨ g.settle ≠ 0 →
        ends { closed with above := 0 })
    ∧ (window → ¬short → ¬overs → ends { closed with above := 0 })
    ∧ (window → ¬short → overs → hold = 0 ∨ g.above + 1 < hold → ends { closed with above := g.above + 1 })
    ∧ (window → ¬short → overs → hold ≠ 0 → hold ≤ g.above + 1 → g.settle = 0 →
        ends (wants { closed with above := 0 } down))
    ∧ (window → ¬short → overs → hold ≠ 0 → hold ≤ g.above + 1 → g.settle ≠ 0 → ends { closed with above := 0 })
    ∧ (g.busy = true → g.frozen = false →
        Does (write true) s d [(F.PWR_GOV_STAT_VREQ, 0, g.sent)] fun d => { d with gov :=
          { g with busy := decide (g.vreq ≠ g.sent), sent := g.vreq, tries := 0, settle := 250000 } })
    ∧ (g.busy = true → g.frozen = true →
        let freed : Gov := { g with busy := false, vreq := g.sent, tries := 0, settle := 250000, frozen := false }
        Does (write true) s d [(F.PWR_GOV_STAT_VREQ, 0, g.sent)] fun d => { d with gov := starts freed })
    ∧ (g.busy = true → g.frozen = false → g.tries < 3 →
        Does (write false) s d [] fun d => { d with gov := { g with tries := g.tries + 1 } })
    ∧ (g.busy = true → g.frozen = false → 3 ≤ g.tries → fails (write false) freezes)
    ∧ (g.busy = true → g.frozen = true → Does (write false) s d [] fun d => { d with gov := { g with busy := false } })
    ∧ (∀ ok : Bool, g.busy = false → Does (write ok) s d [] id)
    ∧ Does (read true) s d [] (fun d => { d with gov := { g with readTries := 0 } })
    ∧ (g.readTries < 3 → Does (read false) s d [] fun d => { d with gov := { g with readTries := g.readTries + 1 } })
    ∧ (3 ≤ g.readTries → fails (read false) (if g.frozen then g else freezes))
    ∧ (g.frozen = true → g.busy = false → Does .avsRetry s d [] fun d => { d with gov := { g with busy := true } })
    ∧ (g.frozen = false ∨ g.busy = true → Does .avsRetry s d [] id)
    ∧ (clip (F.PWR_GOV_LIMITS_VMAX.of v) < clip (F.PWR_GOV_LIMITS_VMIN.of v) →
        Does (.govLimitsWrite w v) s d [(F.PWR_GOV_STAT_CFGERR, 0, 1)] id)
    ∧ (clip (F.PWR_GOV_LIMITS_VMIN.of v) ≤ clip (F.PWR_GOV_LIMITS_VMAX.of v) →
        Does (.govLimitsWrite w v) s (regWrite d w.toNat A.PWR_GOV_LIMITS v) [] id)

/-- O37. A training port whose link PLL is locked comes UP, counts the step that brought it here, and starts to verify
preemption as EN and VDIS say. An UP port that falls shows the cause, discards the frame in reassembly, counts the
step and stream frames it was to send in XDROP, returns a host frame as LINKDOWN, trains at SPEED and is no healthy
twin; one that was draining is OFF. ENABLE runs a port and trains it; cleared, with nothing to send, it is OFF. A
PAUSE frame, which counts in RXFRAMES, pauses, ends a pause or is ignored, each counted; it pauses once no frame of a
paused class is on the wire; a storm is posted, ends the pause and starts the holdoff, and STORMMAX of them within 60
s turn PAUSE off. Verify mPackets are answered, a respond mPacket makes preemption active, three that go unanswered
make it fail. Nothing else changes. The model's choices (notes/assumptions/26): a PAUSE that meets a frame takes
effect at its end, a PAUSE of 0 before then counts in PAUSE_ZERO, and a change of the line's configuration retrains
the link only where the value changes. -/
def Obligations.LinkRows : Prop :=
  ∀ (s : State) (w : BitVec 6) (n : Fin 4) (v : W24) (cause : BitVec 3) (q : BitVec 16) (g : TxFrame) (k : Nat),
      s.takes w →
    let d := s.dev
    let p : Port := Tab.get {} d.ports n
    let twin : Nat := n.val ^^^ 1
    let up := fld d F.PORT_STAT_LINK n = 2
    let set (p : Port) (d : Dev) : Dev := { d with ports := Tab.set {} d.ports n p }
    let due : List (Fld × Nat × Nat) := if p.pausePend then [(F.PORT_STAT_PAUSED, n.val, 1)] else []
    let stops : Port := { p with rxOpen := none, rxCut := true }
    let given (d : Dev) : Dev :=
      let ports := Tab.set {} (set stops d).ports twin { (Tab.get {} (set stops d).ports twin : Port) with health := 0 }
      set { stops with txq := [], wire := none, open_ := none, pausePend := false } { d with ports := ports }
    let speed := fld d F.PORT_CTRL_SPEED n
    let unfed := ∀ r < 8, fld d F.RING_CFG_STATUS r ≠ 1
    let quiet := unfed ∧ p.txq = [] ∧ p.wire = none ∧ p.open_ = none
    let lost := p.wire.toList ++ p.txq
    let light := unfed ∧ p.open_ = none ∧ ∀ f ∈ lost, f.kind = 0 ∨ (f.kind = 1 ∧ fld d F.TXS_CFG_STATUS f.src ≠ 2)
    let xdrops : List (Fld × Nat × Nat) :=
      if lost = [] then [] else [(F.PORT_XDROP_COUNT, n.val, min (F.PORT_XDROP_COUNT.size - 1) (fld d F.PORT_XDROP_COUNT n + lost.length))]
    let fallen : List (Fld × Nat × Nat) := [(F.PORT_STAT_DCAUSE, n.val, cause.toNat), (F.PORT_STAT_LINK, n.val, 0),
      (F.PORT_STAT_PSTATE, n.val, 0), (F.PORT_STAT_TWIN_OK, twin, 0)]
    let retrains : List (Fld × Nat × Nat) := [(F.PORT_STAT_RATE, n.val, speed), (F.PORT_STAT_STEP, n.val, 0)]
    let base := regWrite d w.toNat (F.PORT_CTRL_ENABLE.addr n) v
    let same := ∀ f ∈ [F.PORT_CTRL_SPEED, F.PORT_CTRL_FEC25, F.PORT_CTRL_FEC10, F.PORT_CTRL_LPSEL], fld base f n = fld d f n
    let ps := fld d F.PORT_STAT_PSTATE n
    let paused := fld d F.PORT_STAT_PAUSED n = 1
    let off := fld d F.PORT_CTRL_STATUS n = 2
    let runs := up ∧ fld d F.PORT_CTRL_STATUS n = 1
    let takes := runs ∧ fld d F.PORT_PAUSE_EN n = 1 ∧ fld d F.PORT_STAT_HOLDOFF n = 0
    let counted : Fld × Nat × Nat := (F.PORT_RXFRAMES_COUNT, n.val, fld d F.PORT_RXFRAMES_COUNT n + 1)
    let more (f : Fld) : Fld × Nat × Nat := (f, n.val, min (f.size - 1) (fld d f n + 1))
    let pause (f : Fld) : List (Fld × Nat × Nat) := [more f, counted]
    let busy := ∃ f ∈ p.wire, f.kind = 3 ∨ fld d F.PORT_PAUSE_SCOPE n = 1
    let quanta := if paused ∨ p.pausePend = true then p.pauses + 1 else 1
    let storms := nowNs d :: p.storms.filter fun t => nowNs d < t + 60000000000
    let stormed : Tab Port :=
      Tab.set {} (Tab.set {} d.ports n { p with pauses := 0 }) n { p with pauses := 0, storms := storms }
    let ring : Ring := Tab.get {} d.rings g.src
    let desc := descAddr d g.src k
    let sound (j : Nat) : Prop := Tab.get 0 d.ecc (desc + j) = 0
    let verifies (k : Nat) (p : Port) : Port := { p with verifies := k, sendVerify := true }
    let pre := fld d F.PORT_PREEMPT_EN n
    let vdis := fld d F.PORT_PREEMPT_VDIS n
    let rises := fld d F.PORT_CTRL_STATUS n = 1 ∧ ¬up ∧ fld d F.LP_STAT_STATE (fld d F.PORT_CTRL_LPSEL n) = 2
    let rate := fld d F.PORT_STAT_RATE n
    let pstate := if pre = 0 then 0 else if vdis = 1 then 2 else 1
    let begun (p : Port) : Port := if pre = 0 ∨ vdis = 1 then p else verifies 1 p
    (rises → fld d F.PORT_STAT_STEP n ≠ 3 →
        Does (.linkUp n) s (post d 0x40 n rate 0) [(F.PORT_STAT_LINK, n.val, 2), (F.PORT_STAT_PSTATE, n.val, pstate)]
          (if pre = 0 ∨ vdis = 1 then id else set (begun p)))
    ∧ (rises → fld d F.PORT_STAT_STEP n = 3 →
        Does (.linkUp n) s (post (post d 0x40 n rate 0) 0x45 n rate p.stepSeq)
          [(F.PORT_STAT_LINK, n.val, 2), (F.PORT_STAT_PSTATE, n.val, pstate), (F.PORT_STAT_STEP, n.val, 0),
           more F.PORT_STEPS_COUNT]
          fun d => set { begun p with sinceStep := 0 } (if pre = 0 ∨ vdis = 1 then d else set (begun p) d))
    ∧ (¬rises → Does (.linkUp n) s d [] id)
    ∧ (up → light →
        Does (.linkDown n cause) s (post d 0x41 n cause.toNat rate)
          (fallen ++ (if cause = 5 ∧ ¬off then [] else retrains)
            ++ (if off then [(F.PORT_CTRL_STATUS, n.val, 0)] else []) ++ xdrops ++ due) given)
    ∧ (up → ¬off → unfed → p.wire = some g → g.kind = 2 → g.descs = [k] → g.tsreq = false → p.open_ = none → p.txq = [] →
        4 ≤ g.src → g.src < 8 → sound 1 → desc + 8 ≤ 67108864 →
        Gives (.linkDown n cause) s fun x =>
          Tab.get 0 x.dev.mkt (desc + 3) = BitVec.ofNat 24 (2 * 2 ^ 21 + ring.tag * 2 ^ 11)
            ∧ Tab.get 0 x.dev.mkt (desc + 1) = Tab.get 0 d.mkt (desc + 1) &&& 0x7FFFFF
            ∧ (∀ b, b ∉ [desc + 1, desc + 3] → Tab.get 0 x.dev.mkt b = Tab.get 0 d.mkt b)
            ∧ (Tab.get {} x.dev.rings g.src : Ring) = { tag := (ring.tag + 1) % 1024, busy := ring.busy - 1 }
            ∧ fld x.dev F.RING_DISC_DISCARD g.src
              = min (F.RING_DISC_DISCARD.size - 1) (fld d F.RING_DISC_DISCARD g.src + 1)
            ∧ (Tab.get {} x.dev.ports n : Port)
              = { stops with txq := [], wire := none, open_ := none, pausePend := false }
            ∧ (∀ f ∈ fallen, fld x.dev f.1 f.2.1 = f.2.2) ∧ x.sec = s.sec ∧ x.pending = s.pending)
    ∧ (¬up → Does (.linkDown n cause) s d [] id)
    ∧ (F.PORT_CTRL_ENABLE.of v = 1 → same → fld d F.PORT_CTRL_STATUS n = 0 → ¬up →
        Does (.portEnableWrite w n v) s base [(F.PORT_CTRL_STATUS, n.val, 1), (F.PORT_STAT_LINK, n.val, 1),
          (F.PORT_STAT_RATE, n.val, fld base F.PORT_CTRL_SPEED n), (F.PORT_STAT_STEP, n.val, 0)] id)
    ∧ (F.PORT_CTRL_ENABLE.of v = 0 → same → fld d F.PORT_CTRL_STATUS n ≠ 0 → ¬up → quiet → p.pausePend = false →
        Does (.portEnableWrite w n v) s base [(F.PORT_CTRL_STATUS, n.val, 0), (F.PORT_STAT_LINK, n.val, 0),
          (F.PORT_STAT_RATE, n.val, fld base F.PORT_CTRL_SPEED n), (F.PORT_STAT_STEP, n.val, 0)] (set p))
    ∧ (F.PORT_CTRL_ENABLE.of v = 0 → same → fld d F.PORT_CTRL_STATUS n ≠ 0 → up → quiet →
        Does (.portEnableWrite w n v) s (post base 0x41 n 4 rate)
          ([(F.PORT_STAT_DCAUSE, n.val, 4), (F.PORT_STAT_LINK, n.val, 0), (F.PORT_STAT_PSTATE, n.val, 0),
            (F.PORT_STAT_TWIN_OK, twin, 0), (F.PORT_STAT_RATE, n.val, speed), (F.PORT_STAT_STEP, n.val, 0),
            (F.PORT_CTRL_STATUS, n.val, 0)] ++ due)
          given)
    ∧ (F.PORT_CTRL_ENABLE.of v = 0 → same → fld d F.PORT_CTRL_STATUS n = 0 → Does (.portEnableWrite w n v) s base [] id)
    ∧ (F.PORT_CTRL_ENABLE.of v = 1 → same → fld d F.PORT_CTRL_STATUS n = 1 → Does (.portEnableWrite w n v) s base [] id)
    ∧ (F.PORT_CTRL_ENABLE.of v = 1 → same → fld d F.PORT_CTRL_STATUS n = 2 → up →
        Does (.portEnableWrite w n v) s base [(F.PORT_CTRL_STATUS, n.val, 1)] id)
    ∧ (F.PORT_CTRL_ENABLE.of v = 1 → ¬same → fld d F.PORT_CTRL_STATUS n = 1 → ¬up →
        Does (.portConfigWrite w n v) s base [(F.PORT_STAT_LINK, n.val, 1),
          (F.PORT_STAT_RATE, n.val, fld base F.PORT_CTRL_SPEED n), (F.PORT_STAT_STEP, n.val, 0)] id)
    ∧ (¬runs → Does (.pauseFrame n q) s d [] id)
    ∧ (runs → ¬takes → Does (.pauseFrame n q) s d (pause F.PORT_PAUSE_IGN_COUNT) id)
    ∧ (takes → q = 0 → ¬paused → Does (.pauseFrame n q) s d (pause F.PORT_PAUSE_ZERO_COUNT) id)
    ∧ (takes → q = 0 → paused → Does (.pauseFrame n q) s d ((F.PORT_STAT_PAUSED, n.val, 0) :: pause F.PORT_PAUSE_RX_COUNT)
        (set { p with pauses := 0 }))
    ∧ (takes → q ≠ 0 → paused → Does (.pauseFrame n q) s d (pause F.PORT_PAUSE_RX_COUNT)
        (set { p with pauses := quanta, pausePend := false }))
    ∧ (takes → q ≠ 0 → ¬paused → busy → Does (.pauseFrame n q) s d (pause F.PORT_PAUSE_RX_COUNT)
        (set { p with pauses := quanta, pausePend := true }))
    ∧ (takes → q ≠ 0 → ¬paused → ¬busy →
        Does (.pauseFrame n q) s d ((F.PORT_STAT_PAUSED, n.val, 1) :: pause F.PORT_PAUSE_RX_COUNT) fun d =>
          set { p with pauses := quanta, pausePend := false } (set { p with pauses := quanta, pausePend := true } d))
    ∧ (paused → Does (.pauseEnd n) s d [(F.PORT_STAT_PAUSED, n.val, 0)] (set { p with pauses := 0 }))
    ∧ (¬paused → ∀ i ∈ [Instr.pauseEnd n, Instr.pauseStorm n], Does i s d [] id)
    ∧ (paused → fld d F.PORT_PAUSE2_STORMMAX n = 0 →
        Does (.pauseStorm n) s (post d 0x43 n p.pauses (fld d F.PORT_PAUSE_SCOPE n))
          [(F.PORT_STAT_PAUSED, n.val, 0), (F.PORT_STAT_HOLDOFF, n.val, 1)] fun d' =>
          { d' with ports := stormed })
    ∧ (paused → fld d F.PORT_PAUSE2_STORMMAX n ≠ 0 → storms.length < fld d F.PORT_PAUSE2_STORMMAX n →
        Does (.pauseStorm n) s (post d 0x43 n p.pauses (fld d F.PORT_PAUSE_SCOPE n))
          [(F.PORT_STAT_PAUSED, n.val, 0), (F.PORT_STAT_HOLDOFF, n.val, 1)] fun d' => { d' with ports := stormed })
    ∧ (paused → fld d F.PORT_PAUSE2_STORMMAX n ≠ 0 → fld d F.PORT_PAUSE2_STORMMAX n ≤ storms.length →
        Does (.pauseStorm n) s (post (post d 0x43 n p.pauses (fld d F.PORT_PAUSE_SCOPE n)) 0x44 n 0 0)
          [(F.PORT_STAT_PAUSED, n.val, 0), (F.PORT_STAT_HOLDOFF, n.val, 1), (F.PORT_PAUSE_EN, n.val, 0)] fun d' =>
          { d' with ports := stormed })
    ∧ Does (.holdoffEnd n) s d [(F.PORT_STAT_HOLDOFF, n.val, 0)] id
    ∧ (pre = 1 → Does (.verifyMpacket n) s d [] (set { p with sendRespond := true }))
    ∧ (pre = 0 → Does (.verifyMpacket n) s d [] id)
    ∧ Does (.respondMpacket n) s d (if ps = 1 then [(F.PORT_STAT_PSTATE, n.val, 2)] else []) id
    ∧ (ps = 1 → p.verifies < 3 → Does (.verifyTimer n) s d [] (set (verifies (p.verifies + 1) p)))
    ∧ (ps = 1 → 3 ≤ p.verifies → Does (.verifyTimer n) s (post d 0x42 n 0 1) [(F.PORT_STAT_PSTATE, n.val, 3)] id)
    ∧ (ps ≠ 1 → Does (.verifyTimer n) s d [] id)

/-- O38. A port that does not run UP takes nothing, but a frame that was arriving when it stopped may still be reported as
cut short. A frame cut short is counted nowhere; its descriptors go back where it was a host's. A frame of a wrong
length is counted bad, and so is one with a wrong FCS, whose descriptors go back where it was a host's; one for
another address is passed over, and so is one with a second tag (which the model counts nowhere,
notes/assumptions/51); a MAC control frame other than PAUSE is counted, a host frame for a ring that is OFF counted
for want of a buffer, and one whose ring has no descriptor waits in the hold buffer with its stamp. A first fragment
opens a frame in reassembly with its stamp, a continuation that fits it is added, and one that does not is a fragment
error. At a boundary a port sends its owed mPackets; a frame that ends is counted, a preemptable one that a pause
holds is kept for later; then the oldest rate-step frame goes to the wire, else the oldest stream packet, or nothing
while both classes are paused. A discarded express frame is counted. Nothing else changes. The model's choices: the
form of a fragment, its counts modulo 4, and EXPRESS_DISCARD taking the oldest frame (PRESUMED, notes/assumptions/26),
and the open part of a stamp, drawn from the free values (notes/assumptions/2). -/
def Obligations.FrameRows : Prop :=
  ∀ (s : State) (n : Fin 4) (f : RxFrame) (g : TxFrame) (rest : List TxFrame) (o : RxOpen) (k : BitVec 14) (t : BitVec 16)
      (c : BitVec 2) (r : Fin 4), s.up →
    let d := s.dev
    let p : Port := Tab.get {} d.ports n
    let set (p : Port) (d : Dev) : Dev := { d with ports := Tab.set {} d.ports n p }
    let up := fld d F.PORT_STAT_LINK n = 2 ∧ fld d F.PORT_CTRL_STATUS n = 1
    let more (f : Fld) : Fld × Nat × Nat := (f, n.val, min (f.size - 1) (fld d f n + 1))
    let taken : Fld × Nat × Nat := (F.PORT_RXFRAMES_COUNT, n.val, fld d F.PORT_RXFRAMES_COUNT n + 1)
    let whole := f.part = .express ∧ f.cut = false
    let fits := 60 ≤ f.bytes.length ∧ f.bytes.length ≤ 9212
    let mine := addressed d n f.bytes = true
    let good := f.fcsOk = true ∧ fits ∧ mine ∧ doubleTagged f.bytes = false
    let plain := mine ∧ etherType f.bytes ∉ [0x8808, 0x88B5, 0x88CC, 0x88F7, 0x86DD] ∧ isIp4 f.bytes = false
    let type := beNat ((f.bytes.drop (if tagged f.bytes then 18 else 14)).take 2)
    let ring := fld d F.PORT_STEER_DEFRING n
    let stamped := stamp d n (8 * (f.bytes.length + 4)) f.lp0.toNat false
    let drawn (d : Dev) : Dev := { d with fresh := d.fresh + 1 }
    let rx (p : Port) : Port := { p with preRx := p.preRx + (f.bytes.length + 24) * 8 }
    let keep (o : RxOpen) (x : Nat) : Prop :=
      Does (.frameReceive n f) s d [] fun d => { set { rx p with rxOpen := some o } (set (rx p) d) with fresh := d.fresh + x }
    let unheld := fld d F.RING_CFG_STATUS ring ≠ 1 ∨ p.hold ≠ []
    let cut := f.cut = true ∧ f.part = .express
    let paused := fld d F.PORT_STAT_PAUSED n = 1
    let held := paused ∧ fld d F.PORT_PAUSE_SCOPE n = 1
    let mPackets (p : Port) : Port := { p with sendVerify := false, sendRespond := false }
    let ready := up ∧ p.pausePend = false
    let bound : Instr := .frameBoundary { n := n, sent := k, lp0 := t }
    (¬up → f.cut = false ∨ p.rxCut = false → Does (.frameReceive n f) s d [] id)
    ∧ (¬up → cut → 14 ≤ f.bytes.length → p.rxCut = true → plain → unheld →
        Does (.frameReceive n f) s d [] fun d => drawn (set { p with rxCut := false } d))
    ∧ (up → cut → 14 ≤ f.bytes.length → plain → unheld → Does (.frameReceive n f) s d [] drawn)
    ∧ (up → cut → f.bytes.length < 14 → Does (.frameReceive n f) s d [] id)
    ∧ (up → whole → ¬fits → Does (.frameReceive n f) s d [more F.PORT_RXBAD_COUNT] id)
    ∧ (up → whole → f.fcsOk = false → ¬mine → Does (.frameReceive n f) s d [more F.PORT_RXBAD_COUNT] id)
    ∧ (up → whole → f.fcsOk = false → fits → plain → unheld →
        Does (.frameReceive n f) s d [more F.PORT_RXBAD_COUNT] drawn)
    ∧ (up → whole → f.fcsOk = true → fits → ¬mine ∨ doubleTagged f.bytes = true → Does (.frameReceive n f) s d [] id)
    ∧ (up → whole → good → etherType f.bytes = 0x8808 →
        (type ≠ 1 → Does (.frameReceive n f) s d [taken, more F.PORT_MACCTL_COUNT] id)
        ∧ (type = 1 → fld d F.PORT_PAUSE_EN n = 0 →
          Does (.frameReceive n f) s d [taken, more F.PORT_PAUSE_IGN_COUNT] id))
    ∧ (up → whole → good → plain → fld d F.RING_CFG_STATUS ring = 0 →
        Does (.frameReceive n f) s d [taken, more F.PORT_NOBUF_COUNT] drawn)
    ∧ (up → whole → good → plain → fld d F.RING_CFG_STATUS ring ≠ 0 → fld d F.RING_CFG_EN ring = 1 → p.hold = [] →
        fld d F.RING_HEAD_HEAD ring = fld d F.RING_TAIL_TAIL ring % ringSize d ring →
        Does (.frameReceive n f) s d [taken] fun d => drawn <|
          set { p with hold := [{ ring := ring, bytes := f.bytes, sec := stamped.1.1, frac := stamped.1.2 }] }
            (set { p with hold := [{ ring := ring, bytes := f.bytes, sec := stamped.1.1, frac := stamped.1.2 }] } d))
    ∧ (up → f.cut = false → f.part = .start c true true → p.rxOpen = none → 
        keep { bytes := f.bytes, frame := c, frag := 0, stamp := stamped.1 } 1)
    ∧ (up → f.cut = false → p.rxOpen = some o → f.part = .cont o.frame o.frag true true →
        keep { o with bytes := o.bytes ++ f.bytes, frag := o.frag + 1 } 0)
    ∧ (up → f.cut = false → p.rxOpen = none → f.part = .cont c c true true → fld d F.PORT_PREEMPT_ERRLIM n = 0 →
        p.fragErrs = 0 → Does (.frameReceive n f) s d [more F.PORT_FRAGERR_COUNT] fun d =>
          set { rx p with rxOpen := none, fragErrs := 1, fragFirst := nowNs d } (set { rx p with rxOpen := none } (set (rx p) d)))
    ∧ (fld d F.PORT_STAT_LINK n ≠ 2 → Does bound s d [] id)
    ∧ (ready → p.wire = none → held → Does bound s d [] (set (mPackets p)))
    ∧ (ready → p.wire = none → ¬held → p.txq = g :: rest → g.kind = 0 ∨ (∀ f ∈ g :: rest, f.kind = 1) → g.tsreq = false →
        Does bound s d [] fun d =>
          set { mPackets p with txq := rest, wire := some g } (set { mPackets p with txq := rest } (set (mPackets p) d)))
    ∧ (ready → p.wire = some g → g.kind = 0 → held →
        Does bound s d [(F.PORT_TXFRAMES_COUNT, n.val, fld d F.PORT_TXFRAMES_COUNT n + 1)] fun d =>
          set { mPackets p with wire := none } (set (mPackets p) d))
    ∧ (ready → p.wire = some g → g.kind = 3 → held → fld d F.PORT_STAT_PSTATE n = 2 →
        64 * (fld d F.PORT_PREEMPT_ADDFRAG n + 1) ≤ k.toNat → g.gone + k.toNat + 64 ≤ g.bytes.length + 4 →
        Does bound s d [] fun d =>
          let q : Port := { mPackets p with wire := none, open_ := some { g with gone := g.gone + k.toNat } }
          set { q with preTx := p.preTx + (k.toNat + 24) * 8 } (set q (set (mPackets p) d)))
    ∧ (p.txq = g :: rest → g.kind = 0 →
        Does (.expressDiscard { n := n }) s d [more F.PORT_XDROP_COUNT] (set { p with txq := rest }))
    ∧ (p.txq = [] → Does (.expressDiscard { n := n }) s d [] id)
    ∧ (ringOffers d n (4 + r.val) true = none → Does (.expressDiscard { n := n, ring := some r }) s d [] id)

/-- O39. A port whose turn to step has come asks with a sequence number of its own and waits; a REQ it cannot follow is
answered NAK, one it can ACK with a switch time at least 5 ms away, and of two requests that cross the one from the
lower serial number stands; the ACK to its own REQ sets the switch time, a NAK or the third silence fails the step,
which is posted and not tried again for HOLD s. At the switch time an UP port trains at the other rate; the link not
UP in time fails the step and trains at SPEED. A received frame counts in RXFRAMES, and one that is not well formed in
MACCTL. PORTn.STEP refuses a FLOOR not below CEIL. Nothing else changes. The model's choices: the sequence number and
the switch time's distance are free values (notes/assumptions/2), HOLD counts TAI seconds, and 'time base locked' is
COARSE = 0 (notes/assumptions/33). -/
def Obligations.RateStepRows : Prop :=
  ∀ (s : State) (w : BitVec 6) (n : Fin 4) (v : W24) (l : List Byte) (up : Bool), s.takes w →
    let d := s.dev
    let p : Port := Tab.get {} d.ports n
    let twin : Nat := n.val ^^^ 1
    let set (p : Port) (d : Dev) : Dev := { d with ports := Tab.set {} d.ports n p }
    let at_ (off len : Nat) : Nat := beNat ((l.drop off).take len)
    let form := at_ 14 1 = 1 ∧ 1 ≤ at_ 15 1 ∧ at_ 15 1 ≤ 3 ∧ at_ 16 1 ≤ 1
    let step := fld d F.PORT_STAT_STEP n
    let runs := fld d F.PORT_STAT_LINK n = 2 ∧ fld d F.PORT_CTRL_STATUS n = 1
    let flags := fld d F.PORT_STAT_TWIN_OK n + 2 * fld d F.PORT_STEP_EN n
    let frame (type : Nat) (up : Bool) (seq sec ns : Nat) : TxFrame :=
      { bytes := [0x01, 0x80, 0xC2, 0x00, 0x00, 0x0E] ++ portMac d n ++ [0x88, 0xB5]
          ++ [1, BitVec.ofNat 8 type, if up then 1 else 0, BitVec.ofNat 8 flags] ++ beBytes 2 seq ++ beBytes 6 sec
          ++ beBytes 4 ns ++ beBytes 8 Config.fuseSerial.toNat ++ List.replicate 22 0
        kind := 0 }
    let taken : Fld × Nat × Nat := (F.PORT_RXFRAMES_COUNT, n.val, fld d F.PORT_RXFRAMES_COUNT n + 1)
    let heard : List (Fld × Nat × Nat) :=
      [taken, (F.PORT_STAT_PPERMIT, n.val, at_ 17 1 / 2 % 2), (F.PORT_STAT_PTWIN_OK, n.val, at_ 17 1 % 2)]
    let was : List (Fld × Nat × Nat) := if step = 1 then [(F.PORT_STAT_STEP, n.val, 0)] else []
    let fails (why : Nat) : Dev := post d 0x46 n (if p.stepUp then 1 else 0) why
    let wait := max 1 (min 511 (fld d F.PORT_STEP_HOLD n))
    let drawn := (Config.freeWord d.fresh).toNat
    let asked : Port := { p with stepUp := up, stepSeq := drawn % 65536, stepMine := true, stepTries := 1 }
    let due := nowNs d + 5000000 + drawn * 2 ^ 24 + (Config.freeWord (d.fresh + 1)).toNat
    let mine := step = 1 ∧ Config.fuseSerial.toNat < at_ 30 8
    let may := stepSafe (stepSee d n l) n = true ∧ (at_ 16 1 = 1 ∨ fld d F.PORT_STEP_EN n = 1) ∧ fld d F.TIME_CTRL_COARSE 0 = 0
    let pend : List (Fld × Nat × Nat) := if p.pausePend then [(F.PORT_STAT_PAUSED, n.val, 1)] else []
    let granted : Port :=
      { p with stepUp := decide (at_ 16 1 = 1), stepSeq := at_ 18 2, stepMine := false
               stepSec := due / 1000000000, stepNs := due % 1000000000 }
    let named : Port := { p with stepUp := decide (at_ 16 1 = 1), stepSeq := at_ 18 2 }
    let base := regWrite d w.toNat (F.PORT_STEP_EN.addr n) v
    let held (n : Nat) : Nat := max 1 (min 100 n)
    let quiet := (∀ r < 8, fld d F.RING_CFG_STATUS r ≠ 1) ∧ p.txq = [] ∧ p.wire = none ∧ p.open_ = none ∧ p.rxOpen = none
    (stepTurn d n = none → Does (.stepRequest n) s d [] id)
    ∧ (stepTurn d n = some up → runs → Does (.stepRequest n) s d [(F.PORT_STAT_STEP, n.val, 1)] fun d =>
        { set { asked with txq := p.txq ++ [frame 1 up (drawn % 65536) 0 0] } (set asked d) with fresh := d.fresh + 1 })
    ∧ (¬runs → ∀ i ∈ [Instr.stepReqFrame n l, Instr.stepAckFrame n l, Instr.stepNakFrame n l], Does i s d [] id)
    ∧ (¬form → runs → ∀ i ∈ [Instr.stepReqFrame n l, Instr.stepAckFrame n l, Instr.stepNakFrame n l], Does i s d
        [taken, (F.PORT_MACCTL_COUNT, n.val, min (F.PORT_MACCTL_COUNT.size - 1) (fld d F.PORT_MACCTL_COUNT n + 1))] id)
    ∧ (form → runs → mine → Does (.stepReqFrame n l) s d heard id)
    ∧ (form → runs → ¬mine → ¬may →
        Does (.stepReqFrame n l) s d (was ++ heard) fun d =>
        { set { named with txq := p.txq ++ [frame 3 named.stepUp named.stepSeq 0 0], stepUp := p.stepUp, stepSeq := p.stepSeq }
            (set { named with txq := p.txq ++ [frame 3 named.stepUp named.stepSeq 0 0] } (set named d))
          with fresh := d.fresh + 2 })
    ∧ (form → runs → ¬mine → may →
        Does (.stepReqFrame n l) s d ((F.PORT_STAT_STEP, n.val, 2) :: heard) fun d =>
          { set { granted with txq := p.txq ++ [frame 2 granted.stepUp granted.stepSeq granted.stepSec granted.stepNs] }
              (set granted d) with fresh := d.fresh + 2 })
    ∧ (form → runs → step = 1 → at_ 18 2 = p.stepSeq →
        Does (.stepAckFrame n l) s d ((F.PORT_STAT_STEP, n.val, 2) :: heard)
          (set { p with stepSec := at_ 20 6, stepNs := at_ 26 4 }))
    ∧ (form → runs → step = 1 → at_ 18 2 = p.stepSeq →
        Does (.stepNakFrame n l) s (fails 1) ((F.PORT_STAT_STEP, n.val, 0) :: heard) (set { p with stepWait := wait }))
    ∧ (form → runs → step ≠ 1 ∨ at_ 18 2 ≠ p.stepSeq →
        Does (.stepAckFrame n l) s d heard id ∧ Does (.stepNakFrame n l) s d heard id)
    ∧ (step = 1 → p.stepTries < 3 → runs → Does (.stepReqTimeout n) s d [] fun d =>
        set { p with stepTries := p.stepTries + 1, txq := p.txq ++ [frame 1 p.stepUp p.stepSeq 0 0] }
          (set { p with stepTries := p.stepTries + 1 } d))
    ∧ (step = 1 → 3 ≤ p.stepTries → Does (.stepReqTimeout n) s (fails 2) [(F.PORT_STAT_STEP, n.val, 0)]
        (set { p with stepWait := wait }))
    ∧ (step ≠ 2 ∨ nowNs d < p.stepSec * 1000000000 + p.stepNs ∨ fld d F.PORT_STAT_LINK n ≠ 2 →
        Does (.stepSwitch n) s d [] id)
    ∧ (step = 2 → p.stepSec * 1000000000 + p.stepNs ≤ nowNs d → fld d F.PORT_STAT_LINK n = 2 → quiet →
        Does (.stepSwitch n) s (post d 0x41 n 5 (fld d F.PORT_STAT_RATE n))
          ([(F.PORT_STAT_DCAUSE, n.val, 5), (F.PORT_STAT_LINK, n.val, 0), (F.PORT_STAT_PSTATE, n.val, 0),
            (F.PORT_STAT_TWIN_OK, twin, 0), (F.PORT_STAT_RATE, n.val, if p.stepUp then 0 else 1),
            (F.PORT_STAT_STEP, n.val, 3)] ++ pend)
          fun d =>
            let ports := Tab.set {} (set { p with rxCut := true } d).ports twin { (Tab.get {} d.ports twin : Port) with health := 0 }
            set { p with txq := [], wire := none, open_ := none, rxCut := true, pausePend := false } { d with ports := ports })
    ∧ (step = 3 → fld d F.PORT_STAT_LINK n ≠ 2 → Does (.stepUpTimeout n) s (fails 3)
        [(F.PORT_STAT_STEP, n.val, 0), (F.PORT_STAT_RATE, n.val, fld d F.PORT_CTRL_SPEED n)] (set { p with stepWait := wait }))
    ∧ (step ≠ 3 ∨ fld d F.PORT_STAT_LINK n = 2 → Does (.stepUpTimeout n) s d [] id)
    ∧ Does (.partnerExpiry n) s d [(F.PORT_STAT_PARTNER, n.val, 0)] id
    ∧ (held (F.PORT_STEP_FLOOR.of v) < held (F.PORT_STEP_CEIL.of v) → Does (.portStepWrite w n v) s base [] id)
    ∧ (held (F.PORT_STEP_CEIL.of v) ≤ held (F.PORT_STEP_FLOOR.of v) → Does (.portStepWrite w n v) s base
        [(F.PORT_STEP_FLOOR, n.val, fld d F.PORT_STEP_FLOOR n), (F.PORT_STEP_CEIL, n.val, fld d F.PORT_STEP_CEIL n),
         (F.PORT_STEP2_CFGERR, n.val, 1)] id)

/-- O40. TAIL gives descriptors to the port. With one owned descriptor the frame that waits in a hold buffer is moved,
three bytes to a word, into its buffer; the descriptor comes back with OK, SOF, EOF, the port, the length, the tag and
OWN = 0, HEAD moves on and the ring's source is raised. A transmit frame for a port that does not run comes back as
PORTOFF, counted in DISCARD, and where it asked for a stamp its VALID is 0. A TAIL that gives nothing, with nothing
waiting, is only written. EN runs a ring; cleared, the ring is OFF at once, or drains while frames taken from it are
not back. Every other word and register stays. The model's choices: PORTOFF for a port neither UP nor in RUN
(notes/assumptions/26), and HEAD at the take, with the interrupt sources of a ring (notes/assumptions/27). -/
def Obligations.RingRows : Prop :=
  ∀ (s : State) (w : BitVec 6) (r : Fin 8) (v : W24) (p : Port) (x : RxWait) (n : Fin 4) (i b : Nat), s.takes w →
    Tab.get {} s.dev.ports n = p → (∀ m < 4, m ≠ n.val → (Tab.get {} s.dev.ports m : Port).hold = []) →
    let d := s.dev
    let g : Ring := Tab.get {} d.rings r
    let size := ringSize d r
    let head := fld d F.RING_HEAD_HEAD r
    let next := (head + 1) % size
    let base := regWrite d w.toNat (F.RING_TAIL_TAIL.addr r) v
    let cfg := regWrite d w.toNat (F.RING_CFG_EN.addr r) v
    let status := fld d F.RING_CFG_STATUS r
    let desc := (fld d F.RING_CFG_BASE_HI r * 2 ^ 24 + fld d F.RING_BASE_LO r) / 8 * 8 + 8 * head
    let word (a : Nat) : W24 := Tab.get 0 d.mkt (a % 67108864)
    let buf := (word (desc + 1)).toNat % 4 * 2 ^ 24 + (word desc).toNat
    let sound (a : Nat) : Prop := Tab.get 0 d.ecc (a % 67108864) = 0
    let own := (word (desc + 1)).msb = true ∧ sound desc ∧ sound (desc + 1)
    let asks := (word (desc + 1)).getLsbD 18 = true
    let settles : List (Fld × Nat × Nat) :=
      [(F.RING_CFG_STATUS, r.val, if 4 ≤ r.val ∧ g.busy ≠ 0 then 2 else 0),
       (F.RING_CFG_LOG2SZ, r.val, fld d F.RING_CFG_LOG2SZ r)]
    let len := x.bytes.length
    let words := (len + 2) / 3
    let byte (j : Nat) : Nat := (x.bytes.getD j 0).toNat
    let memory (d' : Dev) : Prop :=
      { d' with ctl := d.ctl, mkt := d.mkt, ecc := d.ecc, past := d.past, stalls := d.stalls, ports := d.ports, rings := d.rings
                tallies := d.tallies, msixSent := d.msixSent, msixPba := d.msixPba } = d
    (r.val < 4 → p.hold = [x] → x.ring = r → x.placed = 0 → x.used = [] → 0 < len → len ≤ 2048 → status = 1 → own →
      F.RING_TAIL_TAIL.of v = next → desc + 8 ≤ buf → buf + words ≤ 67108864 → i < words →
      Gives (.ringTailWrite w r v) s fun t =>
        (Tab.get 0 t.dev.mkt (buf + i)).toNat = byte (3 * i) + byte (3 * i + 1) * 2 ^ 8 + byte (3 * i + 2) * 2 ^ 16
          ∧ Tab.get 0 t.dev.mkt (desc + 1) = word (desc + 1) &&& 0x7FFFFF
          ∧ Tab.get 0 t.dev.mkt (desc + 2) = BitVec.ofNat 24 (2 ^ 21 + 2 ^ 20 + 2 ^ 19 + n.val * 2 ^ 17 + len)
          ∧ Tab.get 0 t.dev.mkt (desc + 3) = BitVec.ofNat 24 (g.tag * 2 ^ 14 + len)
          ∧ Tab.get 0 t.dev.mkt (desc + 4) = BitVec.ofNat 24 x.sec
          ∧ Tab.get 0 t.dev.mkt (desc + 5) = BitVec.ofNat 24 (x.frac / 256)
          ∧ Tab.get 0 t.dev.mkt (desc + 6)
            = BitVec.ofNat 24 (x.frac / 256 / 2 ^ 24 * 2 ^ 18 + x.frac % 256 * 2 ^ 10 + 2 ^ 9)
          ∧ (b ∉ (List.range 6).map (desc + 1 + ·) → b < buf ∨ buf + words ≤ b → Tab.get 0 t.dev.mkt b = Tab.get 0 d.mkt b)
          ∧ RegsBecome [(F.RING_HEAD_HEAD, r.val, next)] (raise base r) t.dev
          ∧ t.dev.ports = Tab.set {} d.ports n { p with hold := [] }
          ∧ (Tab.get {} t.dev.rings r : Ring) = { g with tag := (g.tag + 1) % 1024 }
          ∧ memory t.dev ∧ t.sec = s.sec ∧ t.pending = s.pending)
    ∧ (4 ≤ r.val → status = 1 → own → sound (desc + 2) → (word (desc + 1)).getLsbD 22 = true → F.RING_TAIL_TAIL.of v = next →
      fld d F.PORT_CTRL_STATUS ((word (desc + 1)).toNat / 2 ^ 20 % 4) ≠ 1 → desc + 8 ≤ 67108864 →
      Gives (.ringTailWrite w r v) s fun t =>
        Tab.get 0 t.dev.mkt (desc + 3) = BitVec.ofNat 24 (4 * 2 ^ 21 + g.tag * 2 ^ 11)
          ∧ Tab.get 0 t.dev.mkt (desc + 1) = word (desc + 1) &&& 0x7FFFFF
          ∧ (asks → (Tab.get 0 t.dev.mkt (desc + 6)).getLsbD 9 = false)
          ∧ (b ∉ [desc + 1, desc + 3] → ¬asks ∨ b ∉ [desc + 4, desc + 5, desc + 6] →
              Tab.get 0 t.dev.mkt b = Tab.get 0 d.mkt b)
          ∧ RegsBecome [(F.RING_HEAD_HEAD, r.val, next),
              (F.RING_DISC_DISCARD, r.val, min (F.RING_DISC_DISCARD.size - 1) (fld d F.RING_DISC_DISCARD r + 1))]
              (raise base r) t.dev
          ∧ (Tab.get {} t.dev.rings r : Ring) = { g with tag := (g.tag + 1) % 1024 }
          ∧ t.dev.ports = d.ports ∧ memory { t.dev with fresh := d.fresh } ∧ (¬asks → t.dev.fresh = d.fresh) ∧ t.sec = s.sec ∧ t.pending = s.pending)
    ∧ (F.RING_TAIL_TAIL.of v % size = head → 4 ≤ r.val ∨ p.hold = [] → Does (.ringTailWrite w r v) s base [] id)
    ∧ (F.RING_CFG_EN.of v = 1 → p.hold = [] → head = fld d F.RING_TAIL_TAIL r % ringSize cfg r → status = 0 →
        Does (.ringEnableWrite w r v) s cfg [(F.RING_CFG_STATUS, r.val, 1)] id)
    ∧ (F.RING_CFG_EN.of v = 1 → p.hold = [] → head = fld d F.RING_TAIL_TAIL r % size → status ≠ 0 →
        Does (.ringEnableWrite w r v) s cfg
          [(F.RING_CFG_STATUS, r.val, 1), (F.RING_CFG_LOG2SZ, r.val, fld d F.RING_CFG_LOG2SZ r)] id)
    ∧ (F.RING_CFG_EN.of v = 0 → p.hold = [] → status ≠ 0 → Does (.ringEnableWrite w r v) s cfg settles id)
    ∧ (F.RING_CFG_EN.of v = 0 → status = 0 → Does (.ringEnableWrite w r v) s cfg [] id)

/-- O41. A packet at a port that runs counts in RXFRAMES. One of a running stream's leg A that passes every check, in
sequence and in time, makes the leg live and puts each sample at its place in the jitter buffer, and nothing
elsewhere; one too early, or with another payload type, is posted. Enabling checks the stream and starts it, or leaves
it OFF with the reason in CFGERR; FMT = 3, and a transmit CH out of its range, is reason 1; a stream that drains stays
as it is until the tick edge. Disabling clears EN, and the tick edge does the rest. STRM.CTRL shows what it asked for.
A LIVE timeout clears LIVE and, where a twin leg stands by, the health of that leg's port. A read of MC_HI latches MC.
Nothing else changes. The model's choices (notes/assumptions/25): an early packet leaves LIVE alone while its sequence
number counts, a receive CH and LO are held to range, LIVE_TIMEOUT alone clears LIVE, and draining begins at the next
edge. -/
def Obligations.StreamRows : Prop :=
  ∀ (s : State) (w : BitVec 6) (v : W24) (n : Fin 4) (l : List Byte) (k : BitVec 10) (tx legB : Bool) (i j b' q : Nat), s.takes w →
    let d := s.dev
    let k' := k.toNat
    let runs := fld d F.PORT_STAT_LINK n = 2 ∧ fld d F.PORT_CTRL_STATUS n = 1
    let taken : Fld × Nat × Nat := (F.PORT_RXFRAMES_COUNT, n.val, fld d F.PORT_RXFRAMES_COUNT n + 1)
    let x : Rx := Tab.get {} d.rx k'
    let r := udpData l
    let b := rtpPayload r
    let fmt := fld d F.RXS_CFG_FMT k'
    let ch := chOf d false k'
    let spp := sppAt d false k'
    let t0 := rtpTime r - BitVec.ofNat 32 (fld d F.RXS_MISS_TSOFF_HI k' * 2 ^ 24 + fld d F.RXS_TSOFF_TSOFF_LO k')
    let p := d.mc - BitVec.ofNat 32 x.lo
    let place (i : Nat) : Nat := (t0 + BitVec.ofNat 32 i).toNat % 1024
    let passes := runs ∧ strmMatch d n l = [(k', 0)] ∧ fld d F.RXS_CFG_STATUS k' = 1 ∧ d.house.gated = false ∧ ipSumOk l = true
      ∧ ipFrag l = false ∧ rtpVersion r = 2
    let a := (if tx then A.TXS_CFG else A.RXS_CFG) + 8 * k'
    let base := regWrite d w.toNat a v
    let en : Fld := if tx then F.TXS_CFG_EN else F.RXS_CFG_EN
    let st : Fld := if tx then F.TXS_CFG_STATUS else F.RXS_CFG_STATUS
    let check := enableCheck base tx k'
    let other : W24 := if tx then 0x7FFFFF else 0x7FDFFF
    let ctl := regWrite d w.toNat A.STRM_CTRL v
    let leg := if legB then 1 else 0
    let port := legPort d false k' leg ^^^ 1
    let started (d : Dev) : Dev :=
      if tx then { d with tx := Tab.set {} d.tx k' { on := true } }
      else { d with rx := Tab.set {} d.rx k' (rxSettings base k' { on := true }) }
    let fits := rtpType r = fld d F.RXS_PT_PT k' ∧ b.length = spp * ch * sampleBytes fmt
      ∧ (x.seqA = none ∨ x.seqA = some (rtpSeq r - 1))
    let last := (t0 + BitVec.ofNat 32 (spp - 1) - p).toInt
    (strmMatch d n l = [] ∨ ¬runs → Does (.streamPacket n l) s d [] id)
    ∧ (passes → rtpType r ≠ fld d F.RXS_PT_PT k' → Does (.streamPacket n l) s (post d 0x54 k' 0 3) [taken] id)
    ∧ (passes → fits → 1023 < last → Does (.streamPacket n l) s (post d 0x52 k' 0 (BitVec.ofInt 24 last).toNat) [taken]
        fun d => { d with rx := Tab.set {} d.rx k' { x with seqA := some (rtpSeq r) } })
    ∧ (passes → fits → fmt < 2 → (∀ o < spp, Tab.get none x.place (place o) ≠ some (t0 + BitVec.ofNat 32 o)) →
        0 < (t0 - p).toInt → last ≤ 1023 → i < spp → j < ch →
        bufOf d k' + ch * 1024 ≤ 67108864 →
        Gives (.streamPacket n l) s fun t =>
          Tab.get 0 t.dev.mkt (bufOf d k' + j * 1024 + place i)
              = (sampleIn fmt ((b.drop ((i * ch + j) * sampleBytes fmt)).take (sampleBytes fmt))).1
            ∧ Tab.get none (Tab.get {} t.dev.rx k' : Rx).place (place i) = some (t0 + BitVec.ofNat 32 i)
            ∧ (Tab.get {} t.dev.rx k' : Rx) = { x with seqA := some (rtpSeq r), place := (Tab.get {} t.dev.rx k' : Rx).place }
            ∧ ((∀ o < spp, ∀ c < ch, b' ≠ bufOf d k' + c * 1024 + place o) → Tab.get 0 t.dev.mkt b' = Tab.get 0 d.mkt b')
            ∧ ((∀ o < spp, q ≠ place o) →
                Tab.get none (Tab.get {} t.dev.rx k' : Rx).place q = Tab.get none x.place q)
            ∧ RegsBecome [(F.RXS_CFG_LIVEA, k', 1), taken] d t.dev
            ∧ { t.dev with mkt := d.mkt, tallies := d.tallies, ecc := d.ecc, past := d.past, stalls := d.stalls, rx := d.rx, ctl := d.ctl } = d
            ∧ t.sec = s.sec ∧ t.pending = s.pending)
    ∧ (en.of v = 1 → fld d en k' = 0 → fld d st k' = 0 → check = 0 → fld d F.STRM_CTRL_ENABLE 0 = 1 →
        (if tx then fld base F.TXS_CFG_RATE k' = fld d F.TICK_RATE_RATE 0 else fld base F.RXS_CFG_RATE k' = fld d F.TICK_RATE_RATE 0) →
        fld d F.TICK_RATE_RATE 0 < 2 →
        Does (.streamEnable w tx k v) s base ((st, k', 1) :: if tx then [(F.TXS_SEQ_SEQ, k', 0)] else []) started)
    ∧ (en.of v = 1 → fld d en k' = 0 → fld d st k' = 0 → check ≠ 0 →
        Does (.streamEnable w tx k v) s base
          [(en, k', 0), ({ base := A.STRM_CFGERR, stride := 0, hi := 23, lo := 0 }, 0,
            2 ^ 23 + (if tx then 2 ^ 22 else 0) + check * 2 ^ 16 + k')] id)
    ∧ (en.of v = 1 → fld d en k' = 0 → fld d st k' = 0 → check = 0 → fld d F.STRM_CTRL_ENABLE 0 = 0 →
        Does (.streamEnable w tx k v) s base [] id)
    ∧ (en.of v = 1 → fld d en k' = 0 → fld d st k' ≠ 0 → check = 0 → (rd base a ^^^ rd d a) &&& other = 0 →
        Does (.streamEnable w tx k v) s base [] id)
    ∧ (fld base (if tx then F.TXS_CFG_FMT else F.RXS_CFG_FMT) k' = 3 → check = 1)
    ∧ (tx = true → fld base F.TXS_CFG_CH k' = 0 ∨ 64 < fld base F.TXS_CFG_CH k' → check = 1)
    ∧ (tx = false → en.of v = 0 → (rd base a ^^^ rd d a) &&& other = 0 → Does (.rxStreamDisable w k v) s base [] id)
    ∧ (tx = true → en.of v = 0 → (rd base a ^^^ rd d a) &&& other = 0 → Does (.txStreamDisable w k v) s base [] id)
    ∧ (F.STRM_CTRL_ENABLE.of v = 0 → Does (.strmEnableWrite w v) s ctl
        [(F.STRM_CTRL_STATUS, 0, if d.rx = [] ∧ d.tx = [] then 0 else 2)] id)
    ∧ (F.STRM_CTRL_ENABLE.of v = 1 → fld d F.STRM_CTRL_ENABLE 0 = 1 ∨ (∀ o < 1024, fld d F.RXS_CFG_EN o = 0 ∧ fld d F.TXS_CFG_EN o = 0) →
        Does (.strmEnableWrite w v) s ctl [(F.STRM_CTRL_STATUS, 0, 1)] id)
    ∧ (fld d F.RXS_CFG_LEGB k' = 0 → Does (.liveTimeout k legB) s d
        [(if legB then F.RXS_CFG_LIVEB else F.RXS_CFG_LIVEA, k', 0)] id)
    ∧ (fld d F.RXS_CFG_LEGB k' = 1 → Does (.liveTimeout k legB) s d
        [(if legB then F.RXS_CFG_LIVEB else F.RXS_CFG_LIVEA, k', 0), (F.PORT_STAT_TWIN_OK, port, 0)]
        fun d => { d with ports := Tab.set {} d.ports port { (Tab.get {} d.ports port : Port) with health := 0 } })
    ∧ Does (.mcHiRead w) s d [] fun d => { d with mcLatch := some (BitVec.ofNat 24 d.mc.toNat) }

/-- O42. A command acts at an instant between two edges, to which TIME counts on at R327's rate. SNAP latches the time
base into the RD registers. SET and ADD take the WR registers and wait for the next boundary of LP0, after whatever
waited there before; together, or with nanoseconds out of range, they are refused with CFGERR. At the boundary TIME
becomes what SET says, or moves by what ADD says, modulo its range, PTP_JUMP is posted for more than a second, and a
second that changes there starts the ledger's limits of that second afresh. A TAI second counts TIME on to the first
period of its next second, starts the ledger's limits afresh, raises source 25, keeps the second for the VBAT counter
and rolls the ports' measurements; a running port that is DOWN trains again. The model's choices: the instant of a
command is free, short of the next second (notes/assumptions/43); the seconds and fifths of PTP_JUMP
(notes/assumptions/10); a port's measurements counted in TAI seconds, at which a port that fell trains again
(notes/assumptions/33). -/
def Obligations.TimeRows : Prop :=
  ∀ (s : State) (w : BitVec 6) (v : W24) (sec : BitVec 48) (frac : Nat) (add : Bool), s.takes w →
    let d := s.dev
    let base := regWrite d w.toNat A.TIME_CTRL v
    let snap := F.TIME_CTRL_SNAP.of v = 1
    let set := F.TIME_CTRL_SET.of v = 1
    let plus := F.TIME_CTRL_ADD.of v = 1
    let ns := fld d F.TIME_WR_NS_HI_NS 0 * 2 ^ 24 + fld d F.TIME_WR_NS_LO_NS 0
    let wrSec := fld d F.TIME_WR_SEC_HI_SEC 0 * 2 ^ 24 + fld d F.TIME_WR_SEC_LO_SEC 0
    let waits (add : Bool) (d : Dev) : Dev := { d with time := { d.time with
      step := some (add, wrSec, ns * 2 ^ 32 + fld s.dev F.TIME_WR_NS_HI_FRAC 0 * 2 ^ 24) } }
    let at_ := timeWithin base
    let nano := at_.time.frac / 2 ^ 32
    let U : Nat := 1000000000 * 2 ^ 32
    let K := ((2 ^ 34 : Int) + sfld d F.TIME_RATE_RATE 0).toNat
    let sane := d.time.sec < 2 ^ 48 ∧ d.time.frac < U ∧ d.time.fifth < 5 ∧ d.time.sub < 8
    let fine := fld d F.TIME_CTRL_COARSE 0 = 0
    let fifths (t : Time) : Nat := t.frac * 5 + t.fifth
    let settled (g : Gov) (n : Nat) : Gov :=
      if g.settle = 0 then g
      else if g.settle ≤ n then { g with settle := 0, raised := false } else { g with settle := g.settle - n }
    let m := min (65536 - d.time.ahead) (toSecond d)
    let n := if m = 0 then 0 else (Config.freeWord d.fresh).toNat % m
    let e := timeWithin d
    let now : Int := e.time.sec * U + e.time.frac
    let delta : Int := if add then sec.toInt * U + frac else (sec.toNat * U + frac : Nat) - now
    let upTo : Int := (now + delta) % (2 ^ 48 * U)
    let limits (l : Ledger) : Ledger := { l with codeSec := [], srcSec := [], postSec := [], persSec := 0 }
    let jump : Dev := if U < delta.natAbs then post d 0x57 0 (BitVec.ofInt 24 (delta.tdiv U)).toNat (if add then 1 else 0) else d
    let next := (d.time.sec + 1) % 2 ^ 48
    let coming := toSecond d
    let counted := if fine then coming else (d.time.sub + coming) / 8 * 8
    (sane → fine → fifths d.time + n * K < U * 5 ∧ e = { d with
        fresh := d.fresh + 1, gov := settled d.gov n
        time := { d.time with frac := (fifths d.time + n * K) / 5, fifth := (fifths d.time + n * K) % 5
                              ahead := d.time.ahead + n, sub := 0 } })
    ∧ (snap → ¬set → ¬plus → Does (.timeSnap w v) s base
        [(F.TIME_RD_SEC_HI_SEC, 0, at_.time.sec / 2 ^ 24), (F.TIME_RD_SEC_LO_SEC, 0, at_.time.sec),
         (F.TIME_RD_NS_HI_NS, 0, nano / 2 ^ 24), (F.TIME_RD_NS_LO_NS, 0, nano),
         (F.TIME_RD_NS_HI_FRAC, 0, at_.time.frac / 2 ^ 24 % 256)]
        fun d => { d with time := at_.time, gov := at_.gov, fresh := at_.fresh })
    ∧ (set → plus → ∀ i ∈ [Instr.timeSet w v, Instr.timeAdd w v], Does i s d [(F.TIME_CTRL_CFGERR, 0, 1)] id)
    ∧ (¬snap → set → ¬plus → ns < 1000000000 → Does (.timeSet w v) s (timeStepApply base) [] (waits false))
    ∧ (¬snap → plus → ¬set → ns < 1000000000 → Does (.timeAdd w v) s (timeStepApply base) [] (waits true))
    ∧ (¬snap → set → ¬plus → 1000000000 ≤ ns → Does (.timeSet w v) s base [(F.TIME_CTRL_CFGERR, 0, 1)] id)
    ∧ (¬snap → plus → ¬set → 1000000000 ≤ ns → Does (.timeAdd w v) s base [(F.TIME_CTRL_CFGERR, 0, 1)] id)
    ∧ (d.time.step = none → Does .timeStepApply s d [] id)
    ∧ (d.time.step = some (add, sec.toNat, frac) → frac < U → Does .timeStepApply s jump [] fun d' => { d' with
        time := { e.time with sec := upTo.toNat / U, frac := upTo.toNat % U, fifth := 0, step := none }
        led := if upTo.toNat / U = e.time.sec then d'.led else limits d'.led
        gov := e.gov, fresh := e.fresh })
    ∧ (sane → Gives .taiSecond s (fun t =>
        t.dev.time.sec = next ∧ fifths t.dev.time + U * 5 = fifths d.time + counted * K
          ∧ fifths t.dev.time < (if fine then 1 else 8) * K ∧ t.dev.time.fifth < 5
          ∧ t.dev.time.step = d.time.step ∧ t.dev.time.ahead = d.time.ahead + coming ∧ t.dev.time.sub = 0
          ∧ t.dev.gov = settled d.gov coming ∧ t.dev.house = { d.house with vbat := next }
          ∧ t.dev.led = limits d.led ∧ fld t.dev F.INTC_SRC_PEND 25 = 1
          ∧ (∀ n < 4,
              let p : Port := Tab.get {} d.ports n
              let q : Port := Tab.get {} t.dev.ports n
              q.avgTx = p.preTx ∧ q.avgRx = p.preRx ∧ q.preTx = 0 ∧ q.preRx = 0 ∧ q.stepWait = p.stepWait - 1
                ∧ q.sinceStep = min 255 (p.sinceStep + 1) ∧ (q.below = 0 ∨ q.below = min 511 (p.below + 1))
                ∧ (q.health = 0 ∨ q.health = min 255 (p.health + 1))
                ∧ { q with avgTx := p.avgTx, avgRx := p.avgRx, preTx := p.preTx, preRx := p.preRx, stepWait := p.stepWait
                           sinceStep := p.sinceStep, below := p.below, health := p.health } = p
                ∧ fld t.dev F.PORT_STAT_LINK n =
                    if fld d F.PORT_STAT_LINK n = 0 ∧ fld d F.PORT_CTRL_STATUS n = 1
                        ∧ (d.house.gated = false ∨ d.house.depth ≠ 3) then 1
                    else fld d F.PORT_STAT_LINK n)
          ∧ SameRegs (F.INTC_SRC_PEND.addr 25 :: (List.range 4).flatMap fun n =>
              [F.PORT_STAT_TWIN_OK.addr n, F.PORT_STAT_LINK.addr n]) d t.dev
          ∧ { t.dev with ctl := d.ctl, time := d.time, house := d.house, led := d.led, ports := d.ports, gov := d.gov
                         msixSent := d.msixSent, msixPba := d.msixPba } = d
          ∧ t.sec = s.sec ∧ t.pending = s.pending))

/-- O43. S1EN starts an acquisition with a valid reference, or ends in OFF, which abandons a realignment. A reference that
is not a register's becomes valid and not valid as it says, PTP follows PTPOK and COARSE, and AES3 input 0 its lock
and rate; a locked loop that loses it, its lock, or has SEL changed coasts at the average of its last second, posted
with the cause, a slew at the DAC it began with. A qualified reference arms the DAC step of an acquisition. Each
millisecond shows the error while the reference is valid; a tracking loop drives the code its proportional-integral
law demands, a slew the one its ramp does (away from the reference frequency at 0.5 ppm/s to 20 ppm, and back), held
within its range, the first excess posted; the loop's two gains are free values of the model (notes/assumptions/52). A
return, on leaving COAST or at a jump of SNAP, slews below SNAP or with MODE = 0, and else realigns; the slew ends in
ACQUIRE. A change of STATE raises source 18. Nothing else changes; where an access waits behind a held Board write,
RegisterWriteRow says how it goes on. The model's choices: the measured operand, the average of 1,000 LOOP_UPDATE
rows, a change of SEL ending validity, and the validity of PTP and AES3 input 0 (notes/assumptions/29); a realignment
begun where no edges come, and one abandoned (notes/assumptions/53). -/
def Obligations.StageOneRows : Prop :=
  ∀ (s : State) (w : BitVec 6) (v : W24) (dac : BitVec 20) (e : BitVec 32) (code : BitVec 24) (win : Bool), s.takes w →
    let d := s.dev
    let m := d.mcs
    let state := fld d F.MCS_STAT_STATE 0
    let sel := fld d F.MCS_REF_SEL 0
    let dacNow := fld d F.MCS_DAC_WORD 0
    let on := fld d F.MCS_CTRL_S1EN 0 = 1
    let valid := fld d F.MCS_STAT_REFVALID 0 = 1
    let ctl := regWrite d w.toNat A.MCS_CTRL v
    let ref := regWrite d w.toNat A.MCS_REF v
    let irq (x : Nat) (b : Dev) : Dev := if state = x then b else raise b 18
    let goes (x : Nat) : List (Fld × Nat × Nat) :=
      (F.MCS_STAT_STATE, 0, x) :: if x ∈ [2, 3, 5] then [] else [(F.MCS_STAT_LIMIT, 0, 0)]
    let mcs (m : Mcs) (d : Dev) : Dev := { d with mcs := m }
    let ended (m' : Mcs) (d : Dev) : Dev := { d with
      mcs := { m' with realign := 0, coastAfter := if m.realign = 0 then m'.coastAfter else false }
      col := if m.realign ≠ 0 ∧ m.change = 0 then { d.col with clk := false } else d.col }
    let begun (m : Mcs) : Mcs := { m with acq := 1, noLock := fld d F.MCS_STAT_LOCK 0 == 0, lastErr := none }
    let avg := if m.avg = [] then dacNow else m.avg.foldl (· + ·) 0 / m.avg.length
    let coasts (i : Instr) (base : Dev) (cause avg : Nat) (l : List (Fld × Nat × Nat)) (m : Mcs) : Prop :=
      Does i s (post (irq 4 base) 0x60 0 avg cause) (goes 4 ++ [(F.MCS_DAC_WORD, 0, avg)] ++ l)
        (ended { m with acq := 0, cause := cause, lastErr := none })
    let same := d.boardHeld = [] ∧ F.MCS_CTRL_S2EN.of v = fld d F.MCS_CTRL_S2EN 0 ∧ (F.MCS_CTRL_FAMILY.of v = m.family ∨ m.change ≠ 0)
    let follows (b : Dev) : Prop :=
      (fld b F.MCS_REF_SEL 0 = 0 ∧ fld b F.MCS_REF_PTPOK 0 = 1 ∧ fld d F.TIME_CTRL_COARSE 0 = 0)
        ∨ (fld b F.MCS_REF_SEL 0 = 3 ∧ fld d F.AESI_STAT_LOCK 0 = 1
          ∧ fld d F.AESI_STAT_FSIN 0 ∈ (if m.family = 0 then [3, 5] else [2, 4]))
    let comes (up : Bool) : Prop := if sel = 0 ∨ sel = 3 then follows d else up = true
    let refTold (up : Bool) : Instr := if up then .refValid else .refInvalid
    let gone : Mcs := { m with qualified := false, acq := 0, lastErr := none }
    let snap := max 1 (fld d F.MCS_RETURN_SNAP 0) * 100
    let err := if e.toInt < -(2 ^ 22) then -(2 ^ 22) else if e.toInt > 2 ^ 22 - 1 then 2 ^ 22 - 1 else e.toInt
    let wide := if e.toInt < -(2 ^ 23) then -(2 ^ 23) else if e.toInt > 2 ^ 23 - 1 then 2 ^ 23 - 1 else e.toInt
    let seen := valid ∧ m.change ≠ 3
    let shows : List (Fld × Nat × Nat) :=
      [(F.MCS_PD_WIN_ERR, 0, (err % 2 ^ 23).toNat),
       (F.MCS_PD_WIN_WIN, 0, if e.toInt.natAbs ≤ max 1 (fld d F.MCS_LOOP_LOCKWIN 0) * 10 then 1 else 0)]
    let runs := on ∧ seen ∧ m.realign = 0
    let pull := max 1 (fld d F.MCS_LOOP_PULL 0)
    let bw := fld d F.MCS_LOOP_BW 0
    let sum := m.integ + loopKi bw * e.toInt
    let law : Int := m.base + (loopKp bw * e.toInt + sum) * 2 ^ 20 / (pull * 2 ^ 32)
    let ramp (f : Int) : Int :=
      if 0 ≤ f * e.toInt ∧ 4000 * e.toInt.natAbs ≤ f.natAbs * f.natAbs then f - f.sign
      else max (-40000) (min 40000 (f + e.toInt.sign))
    let swing (f : Int) : Int := code.toInt + ramp f * 2 ^ 20 / (2000 * pull)
    let overs (x : Int) : Prop := x < 0 ∨ 0xFFFFF < x
    let held (x : Int) : Nat := (max 0 (min 0xFFFFF x)).toNat
    let limits (x : Int) (b : Dev) : Dev := if overs x ∧ fld d F.MCS_STAT_LIMIT 0 = 0 then post b 0x63 0 0 3 else b
    let drives (x : Int) : List (Fld × Nat × Nat) :=
      [(F.MCS_STAT_LIMIT, 0, if overs x then 1 else 0), (F.MCS_DAC_WORD, 0, held x)]
    let kept (x : Nat) (m : Mcs) : Dev → Dev := mcs { m with avg := (x :: m.avg).take 1000 }
    let took : Mcs := { m with lastErr := some e.toInt, refCode := code.toInt }
    let jumps := (state = 2 ∨ state = 3) ∧ ∃ l ∈ m.lastErr, snap ≤ (e.toInt - l).natAbs
    let leaves := state = 4 ∧ m.qualified = true ∧ (m.cause ≠ 4 ∨ fld d F.MCS_STAT_S2LOCK 0 = 1)
    let returns := jumps ∨ leaves
    let slews := e.toInt.natAbs < snap ∨ fld d F.MCS_RETURN_MODE 0 = 0
    let vain := ¬slews ∧ (d.ticking = false ∨ fld d F.MCS_STAT_TICKSRC 0 = 1)
    let returned (slow : Nat) : Dev := post d 0x61 0 (BitVec.ofInt 24 wide).toNat slow
    (on → F.MCS_CTRL_S1EN.of v = 0 → same → Does (.s1enWrite w v) s (irq 0 ctl) (goes 0)
        (ended { m with acq := 0, noLock := false, lastErr := none }))
    ∧ (¬on → F.MCS_CTRL_S1EN.of v = 1 → same → m.change ≠ 3 → valid →
        Does (.s1enWrite w v) s (irq 1 ctl) (goes 1) (mcs (begun m)))
    ∧ (¬on → F.MCS_CTRL_S1EN.of v = 1 → same → m.change = 3 ∨ ¬valid → Does (.s1enWrite w v) s ctl [] id)
    ∧ (F.MCS_CTRL_S1EN.of v = fld d F.MCS_CTRL_S1EN 0 → same → Does (.s1enWrite w v) s ctl [] id)
    ∧ (∀ up : Bool,
        (comes up → valid → Does (refTold up) s d [] id)
        ∧ (comes up → ¬valid → state ∉ [0, 1] ∨ (state = 1 ∧ m.acq ≠ 0) ∨ m.change = 3 ∨ ¬on →
            Does (refTold up) s d [(F.MCS_STAT_REFVALID, 0, 1)] id)
        ∧ (comes up → ¬valid → state = 0 ∨ (state = 1 ∧ m.acq = 0) → m.change ≠ 3 → on →
            Does (refTold up) s (irq 1 d) ((F.MCS_STAT_REFVALID, 0, 1) :: goes 1) (mcs (begun m)))
        ∧ (¬comes up → ¬valid → Does (refTold up) s d [] id)
        ∧ (¬comes up → valid → m.realign = 0 → state = 2 ∨ state = 3 → coasts (refTold up) d 1 avg [(F.MCS_STAT_REFVALID, 0, 0)] gone)
        ∧ (¬comes up → valid → m.realign = 0 → state = 5 → coasts (refTold up) d 1 m.startDac [(F.MCS_STAT_REFVALID, 0, 0)] gone)
        ∧ (¬comes up → valid → m.realign = 0 → state ∉ [2, 3, 5] → Does (refTold up) s d [(F.MCS_STAT_REFVALID, 0, 0)] (mcs gone))
        ∧ (¬comes up → valid → m.realign ≠ 0 →
            Does (refTold up) s d [(F.MCS_STAT_REFVALID, 0, 0)] (mcs { gone with coastAfter := true, afterDac := avg })))
    ∧ (F.MCS_REF_SEL.of v ≠ sel → fld ref F.MCS_REF_SEL 0 = F.MCS_REF_SEL.of v →
        let now : List (Fld × Nat × Nat) := [(F.MCS_STAT_REFVALID, 0, if follows ref then 1 else 0)]
        (state ∈ [2, 3, 5, 6] ∨ (m.realign ≠ 0 ∧ state ≠ 4) → coasts (.refSelWrite w v) ref 3 avg now gone)
        ∧ (state ∈ [0, 1] → m.realign = 0 → ¬follows ref ∨ m.change = 3 ∨ ¬on →
            Does (.refSelWrite w v) s ref now (mcs gone))
        ∧ (state = 4 → m.realign = 0 → Does (.refSelWrite w v) s ref now (mcs gone)))
    ∧ (F.MCS_REF_SEL.of v = sel → sel ∈ [1, 2] → Does (.refSelWrite w v) s ref [] id)
    ∧ (valid → state = 1 → m.acq = 1 → Does (.refQualified dac) s d [(F.MCS_DAC_WORD, 0, dac.toNat)]
        (mcs { m with qualified := true, acq := 3, refCode := dac.toNat }))
    ∧ (valid → state ≠ 1 ∨ m.acq ≠ 1 → Does (.refQualified dac) s d [] (mcs { m with qualified := true }))
    ∧ (¬valid → Does (.refQualified dac) s d [] id)
    ∧ (¬seen → Does (.loopUpdate e code) s d [] (kept dacNow m) ∧ Does (.mcsReturn e) s d [] id)
    ∧ (seen → ¬on → Does (.loopUpdate e code) s d shows (kept dacNow m))
    ∧ (seen → on → m.realign ≠ 0 → Does (.loopUpdate e code) s d shows (kept dacNow { m with refCode := code.toInt }))
    ∧ (seen → ¬on ∨ m.realign ≠ 0 → Does (.mcsReturn e) s d shows id)
    ∧ (runs → ¬returns → Does (.mcsReturn e) s d shows (mcs { m with lastErr := some e.toInt }))
    ∧ (runs → ¬returns → state ∉ [2, 3, 5] → Does (.loopUpdate e code) s d shows (kept dacNow took))
    ∧ (runs → ¬returns → state = 3 ∨ (state = 2 ∧ fld d F.MCS_STAT_LOCK 0 = 0) →
        Does (.loopUpdate e code) s (limits law d) (shows ++ drives law) (kept (held law) { took with integ := sum }))
    ∧ (runs → ¬returns → state = 2 → fld d F.MCS_STAT_LOCK 0 = 1 →
        Does (.loopUpdate e code) s (raise (limits law d) 18) (shows ++ drives law ++ goes 3)
          (kept (held law) { took with integ := sum }))
    ∧ (runs → state = 5 → Does (.loopUpdate e code) s (limits (swing m.slew) d) (shows ++ drives (swing m.slew))
        (kept (held (swing m.slew)) { took with slew := ramp m.slew }))
    ∧ (runs → returns → slews →
        Does (.mcsReturn e) s (raise (returned 0) 18) (shows ++ goes 5)
            (mcs { m with startDac := dacNow, lastErr := some e.toInt, slew := 0 })
          ∧ Does (.loopUpdate e code) s (limits (swing 0) (raise (returned 0) 18)) (shows ++ goes 5 ++ drives (swing 0))
            (kept (held (swing 0)) { took with startDac := dacNow, slew := ramp 0 }))
    ∧ (runs → returns → ¬slews → ¬vain →
        Does (.mcsReturn e) s (returned 1) shows (mcs { m with startDac := dacNow, realign := 1, lastErr := some e.toInt })
          ∧ Does (.loopUpdate e code) s (returned 1) shows (kept dacNow { took with startDac := dacNow, realign := 1 }))
    ∧ (runs → leaves → vain → Does (.mcsReturn e) s d shows (mcs { m with lastErr := some e.toInt })
        ∧ Does (.loopUpdate e code) s d shows (kept dacNow took))
    ∧ (runs → jumps → vain →
        let back (m : Mcs) : Mcs := { m with startDac := dacNow, realign := 0, cause := 4, coastAfter := false, lastErr := none }
        let opens (d : Dev) : Dev := if m.change = 0 then { d with col := { d.col with clk := false } } else d
        Does (.mcsReturn e) s (raise (returned 1) 18) (shows ++ goes 4) (fun d => opens (mcs (back m) d))
          ∧ Does (.loopUpdate e code) s (raise (returned 1) 18) (shows ++ goes 4) fun d => opens (kept dacNow (back took) d))
    ∧ (state = 2 → Does .lockDeclared s (raise d 18) [(F.MCS_STAT_LOCK, 0, 1), (F.MCS_STAT_STATE, 0, 3)]
        (mcs { m with noLock := false }))
    ∧ (state ≠ 2 → Does .lockDeclared s d [(F.MCS_STAT_LOCK, 0, 1)] (mcs { m with noLock := false }))
    ∧ (m.realign = 0 → state = 2 ∨ state = 3 → coasts .lockLost d 2 avg [(F.MCS_STAT_LOCK, 0, 0)] m)
    ∧ (m.realign ≠ 0 ∨ state ∉ [2, 3] → Does .lockLost s d [(F.MCS_STAT_LOCK, 0, 0)] id)
    ∧ (m.noLock = true → Does (.nolockTimeout win) s (post d 0x63 0 0 (if win then 1 else 0)) []
        (mcs { m with noLock := false }))
    ∧ (m.noLock = false → Does (.nolockTimeout win) s d [] id)
    ∧ (state = 5 → Does .slewDone s (raise d 18) (goes 2) (mcs { m with base := dacNow, integ := 0 }))
    ∧ (state ≠ 5 → Does .slewDone s d [] id)

/-- O44. S2EN cleared stops the tick edges and the MCLK outputs: what the Board has queued is applied, the understudy is
idle, and tallies that drain end. A lock attempt takes the first band that fits the temperature and the family, or is
posted once as finding none; the lock shows, and takes the tick back from the fallback at the next edge; after a
family change it also sets the rate and lets the acquisition begin. A loss falls back, is posted, and ends a
realignment; the coast it causes, or one in progress, waits for stage 2. A band measurement needs stage 2 off. A
FAMILY other than the one in force starts a change. A link PLL that locks shows its band and lets its ports train, one
that is lost or disabled is counted, the loss posted, its enable starts or ends the search, but not at HUSH depth 3,
and LP0 makes TIME coarse while it is not locked; the edges end where stage 2, LP0 and REF156 are all gone. Nothing
else changes. The model's choices (notes/assumptions/29 and 53): FAMILY at once where no ticks run, GO of S2CAL
measuring anew, a disable counted in LOSSES, REF156 told absent by LP_LOSS, and the abandoned realignment. Accesses
that wait behind a held Board write are the subject of RegisterWriteRow; the clauses of rows after which they go on
have none waiting. -/
def Obligations.StageTwoRows : Prop :=
  ∀ (s : State) (w : BitVec 6) (v : W24) (tj vt : BitVec 8) (i : Fin 16) (n : Fin 2) (band : BitVec 5) (absent : Bool), s.takes w →
    let d := s.dev
    let m := d.mcs
    let mcs (m : Mcs) (d : Dev) : Dev := { d with mcs := m }
    let ctl := regWrite d w.toNat A.MCS_CTRL v
    let s1 := fld d F.MCS_CTRL_S1EN 0 = 1
    let s2 := fld d F.MCS_CTRL_S2EN 0 = 1
    let lock := fld d F.MCS_STAT_S2LOCK 0 = 1
    let state1 := fld d F.MCS_STAT_STATE 0
    let deep := d.house.gated = true ∧ d.house.depth = 3
    let fits (k : Nat) : Bool :=
      fld d F.MCS_BAND_VALID k = 1 ∧ fld d F.MCS_BAND_FAM k = m.family ∧ sfld d F.MCS_BAND_TLO k ≤ tj.toInt
        ∧ tj.toInt ≤ sfld d F.MCS_BAND_THI k
    let quiet := d.bq = [] ∧ d.bdue = [] ∧ d.bheld = [] ∧ (∀ c < 19, (core d c).hold ≠ .board) ∧ m.realign = 0
      ∧ (∀ u < 64, fld d F.TL_CTRL_STATUS u ≠ 2) ∧ d.su.fail = none
      ∧ ∀ u < 2, (Tab.get {} d.tus u : Tu).waiting = [] ∧ (Tab.get {} d.tbs u : Tb).later = []
    let su := d.su
    let idle : Su := if fld d F.SU_STAT_MODE 0 ∈ [4, 5] then su else { su with first := none, retest := none, kat := 0, katNow := 0, fail := none }
    let suMode : List (Fld × Nat × Nat) := if fld d F.SU_STAT_MODE 0 ∈ [4, 5] then [] else [(F.SU_STAT_MODE, 0, if su.kat = 3 ∨ su.katNow = 3 then 5 else 0)]
    let stops (m : Mcs) (d : Dev) : Dev := { d with
      ticking := false, su := idle, mcs := { m with mclkOn := 0 }
      cores := if fld d F.SU_STAT_MODE 0 = 2 then Tab.set {} d.cores 16 { core d 16 with run := .off } else d.cores }
    let unheld := d.boardHeld = []
    let lp0 := fld d F.LP_STAT_STATE 0 = 2
    let fed (lock lp0 : Prop) (absent : Bool) : Prop :=
      m.change ≠ 3 ∧ ¬deep ∧ (lock ∨ (fld d F.MCS_STAT_TICKSRC 0 = 1 ∧ (lp0 ∨ absent = false)))
    let goes (lock lp0 : Prop) (absent : Bool) : Prop := unheld ∧ (d.ticking = false ∨ fed lock lp0 absent)
    let onward := unheld ∧ (d.ticking = false ∨ (m.change ≠ 3 ∧ ¬deep ∧ (lp0 ∨ m.refAbsent = false)))
    let sameS1 := F.MCS_CTRL_S1EN.of v = fld d F.MCS_CTRL_S1EN 0
    let sameFam := F.MCS_CTRL_FAMILY.of v = m.family ∨ m.change ≠ 0
    let own := fld d F.MCS_REF_SEL 0 ∈ [1, 2]
    let stopped : Mcs := { m with
      change := 3, family := F.MCS_CTRL_FAMILY.of v, target := F.MCS_CTRL_FAMILY.of v, s2Locking := false, s2None := false
      acq := 0, realign := 0, coastAfter := false, lastErr := none }
    let gone : List (Fld × Nat × Nat) := [(F.MCS_STAT_S2LOCK, 0, 0), (F.MCS_STAT_TICKSRC, 0, 0)]
    let back : List (Fld × Nat × Nat) := [(F.MCS_STAT_S2LOCK, 0, 0), (F.MCS_STAT_TICKSRC, 0, 1)]
    let rateFor (f : Nat) : Fld × Nat × Nat := (F.TICK_RATE_RATE, 0, fld d F.TICK_RATE_RATE 0 / 2 * 2 + (1 - f))
    let cal := regWrite d w.toNat A.MCS_S2CAL v
    let got : Mcs := { m with s2Locking := false, back := fld d F.MCS_STAT_TICKSRC 0 == 1 }
    let next := if fld d F.MCS_STAT_REFVALID 0 = 1 then 1 else 0
    let acquires (m : Mcs) : Mcs :=
      if next = 1 then { m with acq := 1, noLock := fld d F.MCS_STAT_LOCK 0 == 0, lastErr := none } else m
    let fell : Dev := post d 0x62 0 (fld d F.MCS_STAT_BAND 0) (BitVec.ofInt 24 tj.toInt).toNat
    let avg := if m.avg = [] then fld d F.MCS_DAC_WORD 0 else m.avg.foldl (· + ·) 0 / m.avg.length
    let ended (m' : Mcs) (d : Dev) : Dev := { d with
      mcs := { m' with back := false, realign := 0, coastAfter := if m.realign = 0 then m.coastAfter else false }
      col := if m.realign ≠ 0 ∧ m.change = 0 then { d.col with clk := false } else d.col }
    let lp := regWrite d w.toNat (F.LP_CTRL_ENABLE.addr n) v
    let pll := fld d F.LP_STAT_STATE n
    let seeks := fld d F.LP_CTRL_ENABLE n = 1 ∧ pll ≠ 2
    let steady := n = 0 → own
    let still := (∀ p < 4, fld d F.PORT_CTRL_LPSEL p = n → fld d F.PORT_STAT_LINK p ≠ 2) ∧ steady
    let trains : List (Fld × Nat × Nat) := (List.range 4).flatMap fun p =>
      if fld d F.PORT_CTRL_LPSEL p = n ∧ fld d F.PORT_CTRL_STATUS p = 1 ∧ fld d F.PORT_STAT_LINK p = 0 ∧ ¬deep then
        [(F.PORT_STAT_LINK, p, 1)] else []
    let coarse (x : Nat) : List (Fld × Nat × Nat) := if n = 0 then [(F.TIME_CTRL_COARSE, 0, x)] else []
    let state (x : Nat) : Fld × Nat × Nat := (F.LP_STAT_STATE, n.val, x)
    let counts : Fld × Nat × Nat := (F.LP_STAT_LOSSES, n.val, min (F.LP_STAT_LOSSES.size - 1) (fld d F.LP_STAT_LOSSES n + 1))
    (s2 → F.MCS_CTRL_S2EN.of v = 0 → sameS1 → sameFam → quiet → unheld →
        Does (.s2enWrite w v) s ctl ((F.TICK_CUTOFF_EFF_EFF, 0, 0) :: gone ++ suMode)
          (stops { m with back := false, s2Locking := false, s2None := false }))
    ∧ (unheld → ¬s2 → sameS1 → sameFam → Does (.s2enWrite w v) s ctl [] id)
    ∧ (unheld → F.MCS_CTRL_S2EN.of v = fld d F.MCS_CTRL_S2EN 0 → sameS1 →
        (sameFam → Does (.familyChange w v) s ctl [] id)
        ∧ (¬sameFam → d.ticking = true →
            Does (.familyChange w v) s ctl [] (mcs { m with change := 1, target := F.MCS_CTRL_FAMILY.of v }))
        ∧ (¬sameFam → d.ticking = false → own → fld d F.CUE_STAGE_LOADED 0 = 1 →
            Does (.familyChange w v) s ctl gone (mcs stopped))
        ∧ (¬sameFam → d.ticking = false → own → fld d F.CUE_STAGE_LOADED 0 = 0 →
            Does (.familyChange w v) s ctl (rateFor (F.MCS_CTRL_FAMILY.of v) :: gone) (mcs stopped)))
    ∧ (F.MCS_S2CAL_GO.of v = 1 → s2 → Does (.s2calGo w v) s d [(F.MCS_S2CAL_VTUNE, 0, 0)] id)
    ∧ (F.MCS_S2CAL_GO.of v = 1 → ¬s2 → Does (.s2calGo w v) s cal [(F.MCS_S2CAL_BUSY, 0, 1)] id)
    ∧ (F.MCS_S2CAL_GO.of v = 0 → Does (.s2calGo w v) s cal [] id)
    ∧ (fld d F.MCS_S2CAL_BUSY 0 = 1 →
        Does (.s2calDone vt) s d [(F.MCS_S2CAL_BUSY, 0, 0), (F.MCS_S2CAL_VTUNE, 0, vt.toNat)] id)
    ∧ (fld d F.MCS_S2CAL_BUSY 0 = 0 → Does (.s2calDone vt) s d [] id)
    ∧ (s2 → ¬lock → ¬deep → fits i = true → (∀ k < i.val, fits k = false) →
        Does (.s2LockAttempt tj) s d [(F.MCS_STAT_BAND, 0, fld d F.MCS_BAND_BAND i)]
          (mcs { m with s2Locking := true, s2None := false }))
    ∧ (s2 → ¬lock → ¬deep → (∀ k < 16, fits k = false) →
        Does (.s2LockAttempt tj) s (if m.s2None then d else post d 0x63 0 0 2) []
          (mcs { m with s2None := true, s2Locking := false }))
    ∧ (¬s2 ∨ lock ∨ deep → Does (.s2LockAttempt tj) s d [] id)
    ∧ (m.s2Locking = true → m.change ≠ 3 → Does .s2Locked s d [(F.MCS_STAT_S2LOCK, 0, 1)] (mcs got))
    ∧ (m.s2Locking = true → m.change = 3 → ¬s1 → m.family < 2 →
        Does .s2Locked s d [(F.MCS_STAT_S2LOCK, 0, 1), rateFor m.family] (mcs { got with change := 4 }))
    ∧ (m.s2Locking = true → m.change = 3 → s1 → m.family < 2 →
        Does .s2Locked s (if state1 = next then d else raise d 18)
          [(F.MCS_STAT_S2LOCK, 0, 1), rateFor m.family, (F.MCS_STAT_STATE, 0, next), (F.MCS_STAT_LIMIT, 0, 0)]
          (mcs (acquires { got with change := 4 })))
    ∧ (m.s2Locking = false → Does .s2Locked s d [] id)
    ∧ (lock → onward → ¬s1 ∨ (state1 = 4 ∧ m.realign = 0) →
        Does (.s2Unlock tj) s fell back (ended { m with cause := if s1 then 4 else m.cause }))
    ∧ (lock → onward → s1 → state1 ≠ 4 ∨ m.realign ≠ 0 →
        Does (.s2Unlock tj) s (post (if state1 = 4 then fell else raise fell 18) 0x60 0 avg 4)
            ([(F.MCS_STAT_STATE, 0, 4), (F.MCS_STAT_LIMIT, 0, 0), (F.MCS_DAC_WORD, 0, avg)] ++ back)
            (ended { m with acq := 0, cause := 4, lastErr := none }))
    ∧ (¬lock → unheld → Does (.s2Unlock tj) s d [] id)
    ∧ (seeks → ¬deep → Does (.lpLockAttempt n band false) s d [state 1] (mcs { m with refAbsent := false }))
    ∧ (seeks → ¬deep → steady → Does (.lpLockAttempt n band true) s d
        (state 2 :: (F.LP_STAT_BAND, n.val, band.toNat) :: coarse 0 ++ trains) (mcs { m with refAbsent := false }))
    ∧ (¬seeks ∨ deep → Does (.lpLockAttempt n band absent) s d [] id)
    ∧ (pll = 2 → still → goes lock (n ≠ 0 ∧ lp0) absent → Does (.lpLoss n absent) s (post d 0x64 n (fld d F.LP_STAT_BAND n) (if absent then 2 else 1))
        (state 1 :: counts :: coarse 1) (mcs { m with refAbsent := absent }))
    ∧ (pll ≠ 2 → goes lock lp0 absent → Does (.lpLoss n absent) s d [] (mcs { m with refAbsent := absent }))
    ∧ (pll ≠ 2 → d.ticking = true → ¬fed lock lp0 absent → quiet → unheld →
        Does (.lpLoss n absent) s d ((F.TICK_CUTOFF_EFF_EFF, 0, 0) :: suMode) (stops { m with refAbsent := absent }))
    ∧ (unheld → fld d F.LP_CTRL_ENABLE n = 0 → F.LP_CTRL_ENABLE.of v = 1 →
        Does (.lpEnableWrite w n v) s lp (if deep then [] else [state 1]) id)
    ∧ (fld d F.LP_CTRL_ENABLE n = 1 → F.LP_CTRL_ENABLE.of v = 0 → still → goes lock (n ≠ 0 ∧ lp0) m.refAbsent →
        Does (.lpEnableWrite w n v) s lp (state 0 :: if pll = 2 then counts :: coarse 1 else []) id)
    ∧ (unheld → fld d F.LP_CTRL_ENABLE n = F.LP_CTRL_ENABLE.of v → Does (.lpEnableWrite w n v) s lp [] id)

/-- O45. A slave port that is not OFF takes the frame that starts in its window, a TDM port also shows its phase and sends
what was latched, and 0 in the channels its frame does not carry; one in the guard is only noted, one of the wrong
length is no frame. An ASRC input keeps its frame and the block start it brings. An input that gains or loses lock
shows it with its code, the code of the nearest of seven rates or the channels of its frame, is posted, and its ASRC
has to settle again; it settles only where there is one at work. ENABLE starts a port at the next edge; cleared, a
running port drains. A TDM port's configuration is written only while it is OFF. Nothing else changes. The model's
choices (notes/assumptions/31): LOC_LOCK has detail 2 = 0 at a loss, the numbering of the ports, rates compared in Hz,
and a block start kept for the next house sample. -/
def Obligations.LocalRows : Prop :=
  ∀ (s : State) (w : BitVec 6) (p : Fin 26) (q : Fin 34) (a : Fin 8) (v : W24) (guard wrong locked : Bool) (phase : BitVec 11)
    (code : BitVec 18) (samples : List LocSample) (c : Nat), s.takes w →
    let d := s.dev
    let x : Loc := Tab.get {} d.locs p
    let y : Loc := Tab.get {} d.locs q
    let set (n : Nat) (x : Loc) (d : Dev) : Dev := { d with locs := Tab.set {} d.locs n x }
    let ctl (n : Nat) : Nat :=
      if n < 16 then 0x50000 + 16 * n else if n < 24 then F.AESI_CTRL_ENABLE.addr (n - 16)
      else if n < 26 then F.MADI_CTRL_ENABLE.addr (n - 24) else F.AESO_CTRL_ENABLE.addr (n - 26)
    let status (n : Nat) : Fld := { base := ctl n, stride := 0, hi := 22, lo := 21 }
    let enable (n : Nat) : Fld := { base := ctl n, stride := 0, hi := 23, lo := 23 }
    let takes := fld d (status p) 0 ≠ 0 ∧
      (if p.val < 16 then fld d F.TDM_CTRL_MASTER p = 0
       else if p.val < 24 then fld d F.AESI_CTRL_MODE (p.val - 16) = 1 else True)
    let asrc := 16 ≤ p.val ∧ p.val < 24 ∧ fld d (status p) 0 ≠ 0 ∧ fld d F.AESI_CTRL_MODE (p.val - 16) = 0
    let shows : List (Fld × Nat × Nat) := if p.val < 16 then [(F.TDM_STAT_PHASE, p.val, phase.toNat)] else []
    let width := if fld d F.TDM_CTRL_FMT p = 2 then
        min (if 2 ≤ fld d F.TICK_RATE_RATE 0 then 16 else 32) (2 ^ (fld d F.TDM_CTRL_SLOTS p + 1)) else 2
    let lockF : Fld := if p.val < 24 then F.AESI_STAT_LOCK else F.MADI_STAT_LOCK
    let codeF : Fld := if p.val < 24 then F.AESI_STAT_FSIN else F.MADI_STAT_RXCH
    let k := if p.val < 24 then p.val - 16 else p.val - 24
    let now (b : Bool) : Nat := if b then 1 else 0
    let near (hz : Nat) : Prop := (code.toNat - hz + (hz - code.toNat)) * 200 ≤ hz
    let rate := if near 32000 then 1 else if near 44100 then 2 else if near 48000 then 3 else if near 88200 then 4
      else if near 96000 then 5 else if near 176400 then 6 else if near 192000 then 7 else 15
    let shown := if locked = false then 0 else if p.val < 24 then rate else code.toNat % 128
    let apart := p.val = 16 → fld d F.MCS_REF_SEL 0 ∈ [1, 2]
    let word : W24 := if q.val < 16 ∧ fld d (status q) 0 ≠ 0 then (v &&& 0xE007FF) ||| (rd d (ctl q) &&& 0x1FF800) else v
    let base := regWrite d w.toNat (ctl q) word
    (¬takes → ¬asrc → Does (.slaveFrame p guard wrong phase samples) s d [] id)
    ∧ (asrc → Does (.slaveFrame p guard wrong phase samples) s d []
        (set p { x with cur := samples, blockStart := x.blockStart || samples.any fun e => e.fl.getLsbD 3 }))
    ∧ (takes → wrong = true → Does (.slaveFrame p guard wrong phase samples) s d shows id)
    ∧ (takes → wrong = false → guard = true →
        Does (.slaveFrame p guard wrong phase samples) s d shows (set p { x with inGuard := true }))
    ∧ (takes → wrong = false → guard = false → Gives (.slaveFrame p guard wrong phase samples) s fun t =>
        Tab.get 0 t.dev.locOut c
            = (if p.val < 16 ∧ 8192 + 32 * p.val ≤ c ∧ c < 8192 + 32 * p.val + 32 then
                 (if c < 8192 + 32 * p.val + width then Tab.get 0 d.latched c else 0)
               else Tab.get 0 d.locOut c)
          ∧ RegsBecome shows d t.dev
          ∧ { t.dev with ctl := d.ctl, locOut := d.locOut } = set p { x with frames := x.frames + 1, cur := samples } d
          ∧ t.sec = s.sec ∧ t.pending = s.pending)
    ∧ (16 ≤ p.val → apart → fld d lockF k = now locked → Does (.inputLockChange p locked code) s d [(codeF, k, shown)] id)
    ∧ (16 ≤ p.val → apart → fld d lockF k = now (!locked) →
        Does (.inputLockChange p locked code) s (post d 0x72 p.val (now locked) shown)
          [(lockF, k, now locked), (codeF, k, shown)] (set p { x with settled := false }))
    ∧ (16 ≤ p.val → Gives (.inputLockChange p locked code) s fun t =>
        fld t.dev lockF k = now locked ∧ fld t.dev codeF k = shown
          ∧ (fld d lockF k = now (!locked) → (Tab.get {} t.dev.locs p : Loc) = { x with settled := false })
          ∧ OnlyAt {} p.val d.locs t.dev.locs ∧ t.sec = s.sec ∧ t.pending = s.pending)
    ∧ (p.val < 16 → Does (.inputLockChange p locked code) s d [] id)
    ∧ (let z : Loc := Tab.get {} d.locs (16 + a.val)
       Does (.asrcSettled a) s d [] (if fld d F.AESI_STAT_LOCK a = 1 ∧ fld d F.AESI_CTRL_MODE a = 0 then
         set (16 + a.val) { z with settled := true } else id))
    ∧ (fld d (enable q) 0 = 0 → fld base (enable q) 0 = 1 → Does (.locPortEnableWrite w q v) s base [] (set q { y with starting := true }))
    ∧ (fld d (enable q) 0 = 1 → fld base (enable q) 0 = 0 → fld base (status q) 0 = 1 →
        Does (.locPortEnableWrite w q v) s base [(status q, 0, 2)] fun d =>
          set q { y with starting := false, drain := 1 } (set q { y with starting := false } d))
    ∧ (fld d (enable q) 0 = 1 → fld base (enable q) 0 = 0 → fld base (status q) 0 ≠ 1 →
        Does (.locPortEnableWrite w q v) s base [] (set q { y with starting := false }))
    ∧ (fld d (enable q) 0 = fld base (enable q) 0 → Does (.locPortEnableWrite w q v) s base [] id)

/-- O46. With room in the Board queue, from step 7 of bring-up on: a plug that goes in is measured, and its TYPE is the
first row of R370 that fits, the bias coming on for a headset and a fault for a short; taken out it ends everything.
Buttons by their resistance, long holds, releases and current limits each change the detection state, queue their
events with their time (a full queue only sets OVF), show the oldest, raise the port's source, are posted where R373
says so, and send the changed bits to the Board as one group; a press in another band is the release of the one before
and then a press. An amplifier that is switched off puts out nothing. A remeasure has no event. The microphone is live
20 ms after the bias and after a button's release. Clearing ENABLE clears the state but OVF. A read of EVT takes the
oldest event away. Nothing else changes. The model's choices (notes/assumptions/32): the bits of one change are one
entry, event 8 follows UNPLUG, a press in another band is a release and a press, on means from step 7 of bring-up, and
the two mutes. -/
def Obligations.TalkbackRows : Prop :=
  ∀ (s : State) (w : BitVec 6) (t : Fin 2) (v : W24) (z : Accessory) (ohm : BitVec 10) (ms : BitVec 16) (i : Fin 4) (ch : Nat), s.takes w →
    let d := s.dev
    let x : Tb := Tab.get {} d.tbs t
    let q := 18 + t.val
    let f (g : Fld) : Nat := fld d g t
    let shown (plug type btn long bias fault : Nat) : BitVec 32 :=
      BitVec.ofNat 32 (plug + 2 * type + 16 * (if type ≠ 0 ∧ type ≠ 6 then 1 else 0) + 32 * btn + 512 * long + 8192 * bias
        + 16384 * fault)
    let plug := f F.TB_STAT_PLUG
    let type := f F.TB_STAT_TYPE
    let btn := f F.TB_STAT_BTN
    let long := f F.TB_STAT_LONG
    let bias := f F.TB_STAT_BIAS
    let fault := f F.TB_STAT_FAULT
    let old := shown plug type btn long bias fault
    let group (b : Nat) (mask val : BitVec 32) (d : Dev) : Dev :=
      { d with bq := Tab.set [] d.bq q (Tab.get [] d.bq q ++ [{ op := 4, base := b * 32, mask := mask, val := val }]) }
    let evt : Fld := { base := F.TB_EVT_VALID.addr t, stride := 0, hi := 23, lo := 0 }
    let event (code arg : Nat) : W24 := BitVec.ofNat 24 (2 ^ 23 + code * 2 ^ 19 + arg % 8 * 2 ^ 16 + ms.toNat)
    let room := d.ticking = true ∧ Tab.get [] d.bheld q = [] ∧ (Tab.get [] d.bdue q).length + (Tab.get [] d.bq q).length < 64
    let on := f F.TB_CTRL_ENABLE = 1 ∧ d.house.boot = 3
    let set (g : Fld) (n : Nat) : Fld × Nat × Nat := (g, t.val, n)
    let becomes (c : Instr) (base : Dev) (l : List (Fld × Nat × Nat)) (low : Bool) (y : Tb) (new : BitVec 32) : Prop :=
      old ≠ new → Gives c s fun r =>
        RegsBecome l base r.dev ∧ (Tab.get {} r.dev.tbs t : Tb) = y ∧ OnlyAt {} t.val d.tbs r.dev.tbs
          ∧ Tab.get 0 r.dev.locOut ch
            = (if low ∧ (ch = 8848 + 2 * t.val ∨ ch = 8849 + 2 * t.val) then 0 else Tab.get 0 d.locOut ch)
          ∧ { r.dev with ctl := base.ctl, tbs := d.tbs, locOut := d.locOut } = group (f F.TB_BOARD_BASE) (old ^^^ new) new base
          ∧ r.sec = s.sec ∧ r.pending = s.pending
    let tells (c : Instr) (evs : List (Nat × Nat)) (type' : Nat) (l : List (Fld × Nat × Nat)) (low : Bool) (y : Tb)
        (new : BitVec 32) : Prop :=
      let es := evs.foldl (fun es e => if es.length < 16 then es ++ [event e.1 e.2] else es) x.events
      becomes c
        (evs.foldl (fun b e => let b := raise b (14 + t.val); if e.1 ≤ 3 ∨ 7 ≤ e.1 then post b 0x70 t e.1 type' else b) d)
        ((evt, 0, (es.headD 0).toNat) :: l ++ if 16 < x.events.length + evs.length then [set F.TB_STAT_OVF 1] else [])
        low { y with events := es } new
    let mic (m : Nat × Nat × Nat) : Prop := 400000 ≤ m.1 ∧ m.1 ≤ 5000000 ∧ 2 * m.2.2 ≤ m.2.1
    let kind := if z.zt < 4000 then 5 else if 1000000 ≤ z.zt then 4 else if z.zrs < 20000 then 1
      else if mic z.ring2 then 3 else if mic z.sleeve then 2 else 1
    let short := if kind = 5 then 1 else 0
    let cleared (type : Nat) : List (Nat × Nat) := if fault = 1 then [(8, type)] else []
    let bias' := if f F.TB_CTRL_BIASEN = 1 ∧ (kind = 2 ∨ kind = 3) then 1 else 0
    let band : Option Nat :=
      if ohm.toNat ≤ 70 then some 0 else if 110 ≤ ohm.toNat ∧ ohm.toNat ≤ 180 then some 1
      else if 210 ≤ ohm.toNat ∧ ohm.toNat ≤ 290 then some 2 else if 360 ≤ ohm.toNat ∧ ohm.toNat ≤ 680 then some 3 else none
    let base := regWrite d w.toNat (F.TB_CTRL_ENABLE.addr t) v
    let board := regWrite d w.toNat (F.TB_BOARD_BASE.addr t) v
    let stays (c : Instr) : Prop := Does c s d [] id
    let tb (y : Tb) (d : Dev) : Dev := { d with tbs := Tab.set {} d.tbs t y }
    let ends : List (Fld × Nat × Nat) := if bias = 1 then [set F.TB_STAT_BTN 0, set F.TB_STAT_LONG 0] else []
    let clear (n : Nat) : Nat := if bias = 1 then 0 else n
    (on → room → plug = 0 → tells (.tipSwitchChange t true ms) ((1, 0) :: cleared 6) 6
        ([set F.TB_STAT_PLUG 1, set F.TB_STAT_TYPE 6, set F.TB_STAT_BIAS 0, set F.TB_STAT_FAULT 0] ++ ends) false x
        (shown 1 6 (clear btn) (clear long) 0 0))
    ∧ (on → room → plug = 1 → tells (.tipSwitchChange t false ms) ((2, 0) :: cleared 0) 0
        ([set F.TB_STAT_PLUG 0, set F.TB_STAT_TYPE 0, set F.TB_STAT_BIAS 0, set F.TB_STAT_FAULT 0] ++ ends) false x
        (shown 0 0 (clear btn) (clear long) 0 0))
    ∧ (¬on → stays (.tipSwitchChange t true ms) ∧ stays (.typeMeasured t z ms) ∧ stays (.hpCurrentLimit t ms)
        ∧ stays (.remeasure t ms))
    ∧ (plug = 1 → stays (.tipSwitchChange t true ms))
    ∧ (plug = 0 ∨ type ≠ 6 → stays (.typeMeasured t z ms))
    ∧ (on → room → plug = 1 → type = 6 → bias = 0 → tells (.typeMeasured t z ms)
        ((3, kind) :: if kind = 5 then (if fault = 1 then [] else [(7, 5)]) else cleared kind) kind
        [set F.TB_STAT_TYPE kind, set F.TB_STAT_BIAS bias', set F.TB_STAT_FAULT short] (kind = 5)
        (if bias' = 1 then { x with biasMute := true, btnMute := false } else x) (shown 1 kind btn long bias' short))
    ∧ Does (.micUnmute { t := t, button := false }) s d [] (tb { x with biasMute := false })
    ∧ Does (.micUnmute { t := t, button := true }) s d []
        (tb { x with btnMute := x.btnMute && (!x.released || btn != 0) })
    ∧ (room → bias = 1 → btn = 0 → band = some i.val → tells (.buttonPress t ohm ms) [(4, i.val)] type
        [set F.TB_STAT_BTN (2 ^ i.val)] false { x with btnMute := true, released := false }
        (shown plug type (2 ^ i.val) long bias fault))
    ∧ (bias = 1 → band = some i.val → (∀ j < i.val, btn.testBit j = false) → btn.testBit i.val = false →
        ∃ r, exec (.buttonRelease t ms) s = .next r ∧ exec (.buttonPress t ohm ms) s = exec (.buttonPress t ohm ms) r)
    ∧ (band = none ∨ bias = 0 ∨ (band = some i.val ∧ btn = 2 ^ i.val) → stays (.buttonPress t ohm ms))
    ∧ (room → btn = 2 ^ i.val → tells (.buttonRelease t ms) [(6, i.val)] type [set F.TB_STAT_BTN 0, set F.TB_STAT_LONG 0] false
        { x with released := true } (shown plug type 0 0 bias fault))
    ∧ (room → btn = 2 ^ i.val → long = 0 → tells (.buttonLong t ms) [(5, i.val)] type [set F.TB_STAT_LONG (2 ^ i.val)] false x
        (shown plug type btn (2 ^ i.val) bias fault))
    ∧ (btn = 0 → Does (.buttonRelease t ms) s d [] (tb { x with released := true }) ∧ stays (.buttonLong t ms))
    ∧ (long ≠ 0 → long < 16 → stays (.buttonLong t ms))
    ∧ (on → room → type ≠ 0 → type ≠ 6 → fault = 0 → tells (.hpCurrentLimit t ms) [(7, type)] type [set F.TB_STAT_FAULT 1] true x
        (shown plug type btn long bias 1))
    ∧ (type = 0 ∨ type = 6 ∨ fault = 1 → stays (.hpCurrentLimit t ms))
    ∧ (on → room → plug = 1 → fault = 1 → type ≠ 5 → becomes (.remeasure t ms) d
        ([set F.TB_STAT_TYPE 6, set F.TB_STAT_BIAS 0] ++ ends) false x (shown 1 6 (clear btn) (clear long) 0 1))
    ∧ (plug = 0 ∨ fault = 0 ∨ type = 5 → stays (.remeasure t ms))
    ∧ Does (.rawButtonSign t) s d [] (if bias = 1 then tb { x with btnMute := true, released := false } else id)
    ∧ (on → F.TB_CTRL_ENABLE.of v = 0 → room → f F.TB_CTRL_STATUS = 1 →
        Gives (.tbEnableWrite w t v) s fun r =>
          RegsBecome [set F.TB_CTRL_STATUS 2, ({ base := F.TB_STAT_PLUG.addr t, stride := 0, hi := 23, lo := 0 }, 0,
              (rd d (F.TB_STAT_PLUG.addr t)).toNat / 2 ^ 9 % 2 * 2 ^ 9)] base r.dev
            ∧ { r.dev with ctl := base.ctl, locs := d.locs } = group (f F.TB_BOARD_BASE) 0x7FFF 0 base
            ∧ OnlyAt {} (34 + t.val) d.locs r.dev.locs
            ∧ (Tab.get {} r.dev.locs (34 + t.val) : Loc) = { (Tab.get {} d.locs (34 + t.val) : Loc) with
                starting := false, drain := 1 }
            ∧ r.sec = s.sec ∧ r.pending = s.pending)
    ∧ (f F.TB_CTRL_ENABLE = 0 → F.TB_CTRL_ENABLE.of v = 1 → bias = 0 → type ∉ [2, 3] → Does (.tbEnableWrite w t v) s base [] fun d =>
        { d with locs := Tab.set {} d.locs (34 + t.val) { (Tab.get {} d.locs (34 + t.val) : Loc) with starting := true } })
    ∧ (on → F.TB_CTRL_ENABLE.of v = 1 → F.TB_CTRL_BIASEN.of v = 0 → bias = 1 → room → becomes (.biasenWrite w t v) base
        [set F.TB_STAT_BIAS 0, set F.TB_STAT_BTN 0, set F.TB_STAT_LONG 0] false x (shown plug type 0 0 0 fault))
    ∧ (room → Does (.tbBoardBaseWrite w t v) s board [] (group (F.TB_BOARD_BASE.of v) 0x7FFF old))
    ∧ (2 ≤ x.events.length → Does (.tbEvtRead w t) s (raise d (14 + t.val)) [(evt, 0, ((x.events.drop 1).headD 0).toNat)]
        (tb { x with events := x.events.drop 1 }))
    ∧ (x.events.length ≤ 1 → Does (.tbEvtRead w t) s d [(evt, 0, 0), (F.INTC_SRC_PEND, 14 + t.val, 0)] (tb { x with events := [] }))

/-- O47. RUN starts a prompter that is halted and halts one that runs, its loads completed; a prompter whose memory failed
does not start. RESET clears the core but for ST.SEC and a memory test. The winner, the lowest source of the highest
level that is pending and enabled, enters its context at 0100h + 8 × source at a word boundary where ST lets it in, no
load delay being open, or, where no window is left, a window overflow trap stands in its place; and it ends WAIT
whether or not ST or a load delay lets it in. A watchdog written counts again; one that expires is shown, posted,
asserts ALERT_N by cause 0, and resets its prompter under ACTION 1. SWSET asserts a software source, and the level
sources take no write of PEND. A two-wire transaction runs one at a time and ends with its result, its bytes and its
source. Nothing else changes. The model's choices: the winner is chosen by what the words of PEND, EN and LEVEL hold,
and a prompter halted in WAIT stays there (notes/assumptions/34); a WAIT that ends while a load delay is open goes on,
and RES 15 of the trap (notes/assumptions/7); the watchdog's count is the event itself (notes/assumptions/42). -/
def Obligations.PrompterRows : Prop :=
  ∀ (s : State) (w src x : BitVec 6) (n : Fin 2) (v : W24) (res : BitVec 2) (data : List Byte) (lvl : Fin 2), s.takes w →
    let d := s.dev
    let c := 17 + n.val
    let k := core d c
    let base := regWrite d w.toNat (F.PC_CTRL_RUN.addr n) v
    let run := fld d F.PC_CTRL_RUN n = 1
    let gets (k : Core) (d : Dev) : Dev := { d with cores := Tab.set {} d.cores c k }
    let rest (b : Dev) : Core :=
      { st := if fld b F.PC_CTRL_SEC n = 1 then 0x4000 else 0, run := if fld b F.PC_CTRL_RUN n = 1 then .on else .off
        hold := if k.hold = .test then .test else .free }
    let en : Fld := if n = 0 then F.INTC_SRC_EN0 else F.INTC_SRC_EN1
    let asks (i : Nat) : Bool := fld d F.INTC_SRC_PEND i = 1 ∧ fld d en i = 1
    let wins := asks x.toNat = true ∧ fld d F.INTC_SRC_LEVEL x.toNat = lvl
      ∧ ∀ i < 64, asks i = true → fld d F.INTC_SRC_LEVEL i < lvl ∨ (fld d F.INTC_SRC_LEVEL i = lvl ∧ x.toNat ≤ i)
    let takes := if lvl = 1 then k.st.getLsbD 11 = true ∧ k.ctx ≤ 1 else k.st.getLsbD 10 = true ∧ k.ctx = 0
    let boundary := k.hold = .free ∧ k.prefixed = false ∧ k.openTo ≤ k.words
    let f := k.finishLoads
    let saved : Saved := { ilk := BitVec.ofNat 24 k.pc.toNat, ist := f.stWord, irpc := k.rpc }
    let entered : Core :=
      if k.res < 14 then
        { (if lvl = 1 then { f with c1 := saved } else { f with c0 := saved }) with
          cwp := (f.cwp + 1) % 15, res := f.res + 1, rpc := 0, prefixed := false, run := .on
          st := (f.st &&& ~~~(if lvl = 1 then 0x3C00 else 0x3400)) ||| (if lvl = 1 then 0x2000 else 0x1000)
          pc := BitVec.ofNat 16 (0x100 + 8 * x.toNat) }
      else
        { f with
          ct := saved, cwp := (f.cwp + 1) % 15, res := 15, rpc := 0, prefixed := false, run := .on
          st := (f.st &&& ~~~0x3C00) ||| 0x3000, pc := 0x20, tcause := 0x200000 ||| (k.wst &&& 0xFFFFF) }
    let wd := regWrite d w.toNat (F.HOUSE_PCWD_TIMEOUT.addr n) v
    let stop (f : BitVec 2 → BitVec 2) (d : Dev) : Dev := { d with house := { d.house with stopped := f d.house.stopped } }
    let bit : BitVec 2 := 1#2 <<< n.val
    let sw := regWrite d w.toNat (F.INTC_SRC_PEND.addr src.toNat) (if src = 14 ∨ src = 15 then v &&& 0x7FFFFF else v)
    let twi := regWrite d w.toNat A.TWI_CTRL v
    let len := max 1 (min 8 ((rd d (A.TWI_DATA + 2)).toNat / 2 ^ 20 % 16))
    let bytes : List (Fld × Nat × Nat) := (List.range len).map fun i =>
      ({ base := A.TWI_DATA + i / 3, stride := 0, hi := 8 * (i % 3) + 7, lo := 8 * (i % 3) }, 0, (data.getD i 0).toNat)
    (¬run → F.PC_CTRL_RUN.of v = 1 → F.PC_CTRL_RESET.of v = 0 → fld d F.PC_CTRL_MEMFAIL n = 0 →
        Does (.pcRunWrite w n v) s base [] (gets (if k.run = .off then { k with run := .on } else k)))
    ∧ (¬run → F.PC_CTRL_RUN.of v = 1 → F.PC_CTRL_RESET.of v = 0 → fld d F.PC_CTRL_MEMFAIL n = 1 →
        Does (.pcRunWrite w n v) s (regWrite d w.toNat (F.PC_CTRL_RUN.addr n) (F.PC_CTRL_RUN.put v 0)) [] id)
    ∧ (run → F.PC_CTRL_RUN.of v = 0 → F.PC_CTRL_RESET.of v = 0 →
        Does (.pcRunWrite w n v) s base []
          (gets { k.finishLoads with
            hold := if k.hold = .test then .test else .free, run := if k.run = .on then .off else k.run }))
    ∧ (F.PC_CTRL_RESET.of v = 1 → F.PC_CTRL_RUN.of v = fld d F.PC_CTRL_RUN n → fld d F.PC_CTRL_MEMFAIL n = 0 →
        Does (.pcResetWrite w n v) s base [] (gets (rest base)))
    ∧ (wins → k.run = .on → boundary → takes → Does (.interruptEntry n) s d [] (gets entered))
    ∧ (wins → k.run ≠ .on ∨ ¬takes ∨ ¬boundary → Does (.interruptEntry n) s d [] id)
    ∧ ((∀ i < 64, asks i = false) → Does (.interruptEntry n) s d [] id)
    ∧ (wins → k.run = .waiting → run → d.house.trans ≠ 3 → boundary → takes →
        Does (.waitWake n) s d [] fun d => gets entered (gets { k with run := .on } d))
    ∧ (wins → k.run = .waiting → run → d.house.trans ≠ 3 → ¬takes ∨ ¬boundary →
        Does (.waitWake n) s d [] (gets { k with run := .on }))
    ∧ (k.run ≠ .waiting ∨ ¬run ∨ d.house.trans = 3 ∨ (∀ i < 64, asks i = false) → Does (.waitWake n) s d [] id)
    ∧ Does (.watchdogKick w n v) s wd [] (stop (· &&& ~~~bit))
    ∧ (0 < fld d F.HOUSE_PCWD_TIMEOUT n → d.house.stopped.getLsbD n = false →
        Does (.watchdogExpiry n) s (alert (post d 0x18 n n k.pc.toNat) 0) [(F.HOUSE_PCWD_EXPIRED, n.val, 1)] fun d' =>
          stop (· ||| bit) (if fld d F.HOUSE_PCWD_ACTION n = 1 then gets (rest d) d' else d'))
    ∧ (fld d F.HOUSE_PCWD_TIMEOUT n = 0 ∨ d.house.stopped.getLsbD n = true → Does (.watchdogExpiry n) s d [] id)
    ∧ Does (.swset w src v) s (if 32 ≤ src.toNat ∧ F.INTC_SRC_SWSET.of v = 1 then raise sw src.toNat else sw) [] id
    ∧ (F.TWI_CTRL_GO.of v = 1 → fld d F.TWI_CTRL_BUSY 0 = 1 → Does (.twiGo w v) s d [] id)
    ∧ (F.TWI_CTRL_GO.of v = 1 → fld d F.TWI_CTRL_BUSY 0 = 0 → Does (.twiGo w v) s twi [(F.TWI_CTRL_BUSY, 0, 1)] id)
    ∧ (fld d F.TWI_CTRL_BUSY 0 = 0 → Does (.twiDone res data) s d [] id)
    ∧ (fld d F.TWI_CTRL_BUSY 0 = 1 → Does (.twiDone res data) s (raise d 23)
        ([(F.TWI_CTRL_BUSY, 0, 0), (F.TWI_CTRL_RESULT, 0, res.toNat)]
          ++ if res = 0 ∧ fld d F.TWI_CTRL_READ 0 = 1 then bytes else []) id)

/-- O48. The host's link and its accesses to BAR4 and to the vectors are closed until step 4 of bring-up has ended, and in
D3hot. An unmasked vector sends what it owed, where MSI-X is enabled and not masked as a whole. A whole word written
to BAR4 reaches the wings, a prompter's program memory unless the prompter is secure, or the MSI-X table; a stage word
is no address to write, and a partial write is counted. A link that comes up shows its speed and width, and the host
then configures the function. A host reset gives the porters, their rings, MSI-X and the configuration space their
reset values; whether the link stayed up is open. A porter takes an owned descriptor of its running ring, checks it
(BADDESC, DENIED), moves its bytes, three or four to a word, and returns it with its status (OK, POISON, HOSTERR), the
bytes moved and OWN = 0; HEAD moves on, and a failure or IRQ raises the porter's source. Nothing else changes. The
model's choices: a porter moves at END, and a pending bit is cleared when its message is sent (notes/assumptions/35);
whether the link stayed up and how the host configures the function are free values (notes/assumptions/2 and 58); what
step 4 and D3hot close (notes/assumptions/46 and 58). -/
def Obligations.HostRows : Prop :=
  ∀ (s : State) (x : BitVec 6) (i : BitVec 20) (be : BitVec 4) (v : W32) (p : Fin 17) (a : BitVec 14) (n : Fin 4)
    (speed width : BitVec 2) (m : Move) (host : List Byte) (err : Option W24) (e : W24) (j b : Nat), s.up →
    let d := s.dev
    let bit : BitVec 64 := 1#64 <<< x.toNat
    let more (f : Fld) : Fld × Nat × Nat := (f, 0, min (f.size - 1) (fld d f 0 + 1))
    let w := i.toNat
    let pc := (w - 0x88000) / 65536
    let word (a : Nat) : Nat := (Tab.get 0 d.mkt (a % 67108864)).toNat
    let head := fld d F.PT_HEAD_HEAD n
    let size := 2 ^ max 4 (min 12 (fld d F.PT_CFG_LOG2SZ n))
    let desc := fld d F.PT_CFG_BASE_HI n * 2 ^ 24 + fld d F.PT_BASE_LO n / 8 * 8 + 8 * head
    let sound (a : Nat) : Prop := Tab.get 0 d.ecc (a % 67108864) = 0
    let load := ∃ k ∈ d.cue.job, k.master = 28 + n.val
    let idle := fld d F.PT_CFG_STATUS n ≠ 1 ∨ load ∨ Tab.get none d.moves n ≠ none ∨ head = fld d F.PT_TAIL_TAIL n % size
    let ready := fld d F.PT_CFG_STATUS n = 1 ∧ Tab.get none d.moves n = none ∧ head ≠ fld d F.PT_TAIL_TAIL n % size
      ∧ ¬load ∧ 2 ^ 23 ≤ word desc ∧ ∀ o < 6, sound (desc + o)
    let src := word (desc + 2) * 2 ^ 24 + word (desc + 3)
    let dst := word (desc + 4) * 2 ^ 24 + word (desc + 5)
    let count := word (desc + 1)
    let spaces := word desc / 2 ^ 17 % 64
    let taken (status : Nat) : Move :=
      { addr := desc, index := head, ssp := spaces / 8, dsp := spaces % 8, spk4 := (word desc).testBit 16
        dpk4 := (word desc).testBit 15, irq := (word desc).testBit 14, count := count, src := src, dst := dst, status := status }
    let starts (status : Nat) : Prop := Does (.porterDescriptorStart n) s d [] fun d =>
      { d with moves := Tab.set none d.moves n (some (taken status)) }
    let returns (status moved : Nat) (out : List (Nat × Byte)) (keep : Nat → Prop) : Prop :=
      Gives (.porterDescriptorEnd n host err) s fun t =>
        Tab.get 0 t.dev.mkt (m.addr + 6) = BitVec.ofNat 24 (status * 2 ^ 21)
          ∧ Tab.get 0 t.dev.mkt (m.addr + 7) = BitVec.ofNat 24 moved
          ∧ (Tab.get 0 t.dev.mkt m.addr).toNat = word m.addr % 2 ^ 23
          ∧ (keep b → b ∉ [m.addr, m.addr + 6, m.addr + 7] → Tab.get 0 t.dev.mkt b = Tab.get 0 d.mkt b)
          ∧ RegsBecome ((F.PT_HEAD_HEAD, n.val, (m.index + 1) % size)
              :: (if status = 1 then [] else [(F.PT_FAILS_FAILS, n.val, min (F.PT_FAILS_FAILS.size - 1) (fld d F.PT_FAILS_FAILS n + 1))])
              ++ if fld d F.PT_CFG_STATUS n = 2 then [(F.PT_CFG_STATUS, n.val, 0)] else [])
              (if status = 1 ∧ m.irq = false then d else raise d (8 + n.val)) t.dev
          ∧ Tab.get none t.dev.moves n = none
          ∧ { t.dev with ctl := d.ctl, mkt := d.mkt, ecc := d.ecc, past := d.past, stalls := d.stalls, moves := d.moves, tallies := d.tallies
                         msixPba := d.msixPba, msixSent := d.msixSent, hostOut := d.hostOut } = d
          ∧ t.dev.hostOut = d.hostOut ++ out
          ∧ t.sec = s.sec ∧ t.pending = s.pending
    let moves := Tab.get none d.moves n = some m ∧ m.addr + 8 ≤ 67108864 ∧ sound m.addr ∧ (∀ k ∈ d.cue.job, k.begun = true)
      ∧ d.boardHeld = []
    let open_ := 2 ≤ d.house.boot ∧ d.pcie.d3hot = false
    let sends := d.pcie.msixEn = true ∧ d.pcie.msixMask = false
    let free (k : Nat) : W24 := Config.freeWord (d.fresh + k)
    let config : Pcie :=
      { msixEn := (free 0).getLsbD 0, msixMask := (free 0).getLsbD 1, d3hot := (free 0).getLsbD 2
        mps := BitVec.ofNat 3 ((free 0).toNat / 8 % 3), mrrs := BitVec.ofNat 3 ((free 0).toNat / 32 % 6)
        aspm := if (free 0).getLsbD 10 then 2 else 0, uncMask := (free 1).zeroExtend 32
        uncSev := (free 2).zeroExtend 32, corMask := (free 3).zeroExtend 32 }
    let first := m.run = none ∧ m.status = 0 ∧ inOrder s (28 + n.val) = true
    let fresh := first ∧ m.dsp = 1 ∧ m.dpk4 = false ∧ m.count % 3 = 0 ∧ m.dst + m.count / 3 ≤ m.addr
    let byte (k : Nat) : Nat := (host.getD k 0).toNat
    let lands (j v : Nat) : Prop :=
      Gives (.porterDescriptorEnd n host err) s fun t => (Tab.get 0 t.dev.mkt (m.dst + j)).toNat = v
    (open_ → sends → Does (.msixUnmask x) s d [] (fun d => { d with
        msixMask := d.msixMask &&& ~~~bit, msixPba := d.msixPba &&& ~~~bit
        msixSent := d.msixSent ++ if d.msixPba.getLsbD x.toNat = true ∧ fld d F.INTC_SRC_PEND x.toNat = 1 then [x.toNat] else [] }))
    ∧ (open_ → ¬sends → Does (.msixUnmask x) s d [] (fun d => { d with msixMask := d.msixMask &&& ~~~bit }))
    ∧ (¬open_ → Does (.bar4Write i be v) s d [] id ∧ Does (.msixUnmask x) s d [] id)
    ∧ (d.house.boot < 2 → Does (.pcieLinkUp speed width) s d [] id)
    ∧ (open_ → be ≠ 15 → Does (.bar4Write i be v) s d [more F.HOST_STAT_PARTIAL] id)
    ∧ (open_ → be = 15 →
        (w = p.val * 32768 + a.toNat → Does (.bar4Write i be v) s (post d 0x02 32 w (v.toNat % 2 ^ 24)) [] id)
        ∧ (w = p.val * 32768 + 16384 + a.toNat → exec (.bar4Write i be v) s = exec (.wingsWrite p a v) s)
        ∧ (0x88000 ≤ w → w < 0xA8000 → fld d F.PC_CTRL_SEC pc = 0 →
            Does (.bar4Write i be v) s d [] fun d => { d with prog := Tab.set 0 d.prog (w - 0x88000) v })
        ∧ (0x88000 ≤ w → w < 0xA8000 → fld d F.PC_CTRL_SEC pc = 1 → Does (.bar4Write i be v) s d [more F.HOST_STAT_DENIED] id)
        ∧ (0xFC000 ≤ w → w < 0xFC100 → w % 4 ≠ 3 →
            Does (.bar4Write i be v) s d [] fun d => { d with msixTab := Tab.set 0 d.msixTab (w - 0xFC000) v })
        ∧ (0xFC000 ≤ w → w < 0xFC100 → w % 4 = 3 → v.getLsbD 0 = true →
            Does (.bar4Write i be v) s d [] fun d => { d with
              msixTab := Tab.set 0 d.msixTab (w - 0xFC000) (v &&& 0xFFFFFFFE)
              msixMask := d.msixMask ||| 1#64 <<< ((w - 0xFC000) / 4) })
        ∧ (0xA8000 ≤ w → w < 0xFC000 → Does (.bar4Write i be v) s d [] id))
    ∧ Does .hostReset s d ([(F.HOST_STAT_PARTIAL, 0, 0), (F.HOST_STAT_DENIED, 0, 0)]
        ++ (if (Config.freeWord d.fresh).getLsbD 0 then [(F.HOST_STAT_WIDTH, 0, 3)] else [])
        ++ (List.range 20).map fun q =>
            let r := F.PT_BASE_LO.addr (q / 5) + q % 5
            ({ base := r, stride := 0, hi := 23, lo := 0 }, 0, (rstOf r).toNat))
        (fun d => { d with moves := [], msixMask := 0xFFFFFFFFFFFFFFFF, msixPba := 0, msixTab := [], pcie := {}, fresh := d.fresh + 1 })
    ∧ (2 ≤ d.house.boot →
        Does (.pcieLinkUp speed width) s d [(F.HOST_STAT_SPEED, 0, speed.toNat), (F.HOST_STAT_WIDTH, 0, width.toNat)]
          fun d => { d with pcie := config, fresh := d.fresh + 4 })
    ∧ (idle ∨ (word desc < 2 ^ 23 ∧ ∀ o < 6, sound (desc + o)) → Does (.porterDescriptorStart n) s d [] id)
    ∧ (ready → spaces = 9 → word desc / 2 ^ 15 % 4 = 0 → count % 3 = 0 → 0 < count → src + count / 3 ≤ 67108864 →
        dst + count / 3 ≤ 67108864 → starts 0)
    ∧ (ready → 5 ≤ spaces / 8 → starts 3)
    ∧ (ready → word desc / 2 ^ 15 % 4 = 0 → count % 3 = 0 → 0 < count → src + count / 3 ≤ 67108864 →
        (spaces = 10 → dst + count ≤ 0x400000 → dst < 0x10000 → starts 5)
        ∧ (spaces = 12 → dst + count / 3 ≤ 2 ^ 24 → dst ≤ A.VAULT_ADDR → A.VAULT_ADDR < dst + count / 3 → starts 5))
    ∧ (d.boardHeld = [] → Tab.get none d.moves n = none → Does (.porterDescriptorEnd n host err) s d [] id)
    ∧ (moves → m.status ≠ 0 → returns m.status 0 [] fun _ => True)
    ∧ (moves → fresh → m.ssp = 1 → m.spk4 = false → m.src + m.count / 3 ≤ m.dst → (∀ o < m.count / 3, sound (m.src + o)) →
        j < m.count / 3 → returns 1 m.count [] (fun b => b < m.dst ∨ m.dst + m.count / 3 ≤ b)
          ∧ lands j (Tab.get 0 d.mkt (m.src + j)).toNat)
    ∧ (moves → fresh → m.ssp = 0 → err = none → j < m.count / 3 →
        returns 1 m.count [] (fun b => b < m.dst ∨ m.dst + m.count / 3 ≤ b)
          ∧ lands j (byte (3 * j) + byte (3 * j + 1) * 256 + byte (3 * j + 2) * 65536))
    ∧ (moves → fresh → m.ssp = 0 → err = some e → e.toNat ≤ m.count → j < e.toNat / 3 →
        returns 4 (e.toNat / 3 * 3) [] (fun b => b < m.dst ∨ m.dst + m.count / 3 ≤ b)
          ∧ lands j (byte (3 * j) + byte (3 * j + 1) * 256 + byte (3 * j + 2) * 65536))
    ∧ (moves → fresh → m.ssp = 1 → m.spk4 = false → m.src + m.count / 3 ≤ m.dst → j < m.count / 3 →
        (Tab.get 0 d.ecc (m.src + j)).getLsbD 30 = true → lands j 0 ∧ Gives (.porterDescriptorEnd n host err) s fun t =>
          Tab.get 0 t.dev.mkt (m.addr + 6) = BitVec.ofNat 24 (2 * 2 ^ 21)
            ∧ Tab.get 0 t.dev.mkt (m.addr + 7) = BitVec.ofNat 24 m.count)
    ∧ (moves → first → m.dsp = 1 → m.dpk4 = true → m.ssp = 0 → err = none → m.count % 4 = 0 → m.dst + m.count / 4 ≤ m.addr →
        j < m.count / 4 → returns 1 m.count [] (fun b => b < m.dst ∨ m.dst + m.count / 4 ≤ b)
          ∧ lands j (byte (4 * j) + byte (4 * j + 1) * 256 + byte (4 * j + 2) * 65536))
    ∧ (moves → first → m.dsp = 0 → m.ssp = 1 → m.spk4 = true → err = none → m.count % 4 = 0 →
        m.src + m.count / 4 ≤ m.addr → (∀ o < m.count / 4, sound (m.src + o)) →
        returns 1 m.count ((List.range m.count).map fun k =>
          (m.dst + k, BitVec.ofNat 8 (if k % 4 = 3 then 0 else word (m.src + k / 4) / 256 ^ (k % 4)))) fun _ => True)

/-- O49. Power good gives every register its reset value but for the tamper record and the fuses' words, keeps what the
VBAT domain holds of CORE_EN, counts the boot, takes TIME from the VBAT counter, posts a tamper event met in DARK, and
waits for the memory tests; power lost leaves nothing else either and empties the vault. The tests leave every Market
word 0, and no other tested memory as it was, name the memory that failed, and go on to the boot image, or end the
entry to HUSH depth 3. A device in BLANK boots nothing; a copy that passes is written to the prompters' memories and
starts them; two that do not are posted. A life-cycle transition that is permitted zeroes the key and the vault and
begins bring-up; another is posted and does nothing. A watched tamper cause zeroes key and vault, is recorded and
posted. Tj above 105 °C sets its alert cause once. Only with CORE_EN low does WAKE_N ask, and CORE_EN rise. The
model's choices: without VCORE the VBAT counter went on by an open number (notes/assumptions/2); POWER_GOOD does steps
1 to 3, MEM_TEST_DONE leaves the memories zero, and a failed boot's RESULT is that of copy B (notes/assumptions/37);
tamper without VCORE (notes/assumptions/39); power loss empties the vault (notes/assumptions/22); CORE_EN is the VBAT
domain's (notes/assumptions/36). -/
def Obligations.HousePowerRows : Prop :=
  ∀ (s : State) (addr target : BitVec 3) (m : BitVec 6) (x : BitVec 17) (l : List Byte) (w : BitVec 6) (pec : BitVec 2)
    (confirm : BitVec 16) (causes : BitVec 4) (i n b : Nat),
    let d := s.dev
    let h := d.house
    let keys : List Nat :=
      [A.HOUSE_TAMPER, A.HOUSE_TAMPER_T, A.VAULT_STAT, A.HOUSE_LC, A.CUE_CTRL, A.MCS_BAND, A.MCS_BAND + 1] ++
        (List.range 3).map (A.HOUSE_SERIAL + ·)
        ++ (List.range 129).flatMap fun k => [F.MKTS_REPAIR0_ONE.addr k, F.MKTS_REPAIR1_TWO.addr k]
    let blank (d' : Dev) : Prop :=
      { d' with ctl := [], fresh := 0, house := {}, time := {}, led := {} } = {}
        ∧ rd d' A.HOUSE_TAMPER_T = rd d A.HOUSE_TAMPER_T ∧ fld d' F.HOUSE_TAMPER_CAUSE 0 = fld d F.HOUSE_TAMPER_CAUSE 0
        ∧ (s.sec.tamperPend = 0 ∨ d'.house.up = false → b ∉ keys → b < 0x400 ∨ 0x600 ≤ b → rd d' b = rstOf b)
    let went := if h.up then 0 else (Config.freeWord d.fresh).toNat
    let vbat := ((if h.up then h.vbat else s.sec.vbat) + went) % 2 ^ 48
    let house (f : House → House) (d : Dev) : Dev := { d with house := f h }
    let count (k : Sec) : Nat := leAt ((List.range 4).map fun i => Tab.get 0 k.pb (0x1008 + i)) 0 4
    let tested (d : Dev) : Dev := { d with
      mkt := [], ecc := [], pkt := [], pecc := [], pscrub := [], stage := [], wings := [], prog := [], gecc := []
      stalls := { d.stalls with scrubs := [] }, house := { h with boot := 2 } }
    let lc := s.sec.lc
    let off := leAt l (12 + 8 * n) 4
    let permitted := (lc.toNat, target.toNat) ∈ [(0, 1), (1, 2), (1, 3), (2, 3), (2, 4), (3, 4)] ∧ confirm = 0x4C43
    let heard := h.up = true ∧ (pec = 1 ∨ (pec = 0 ∧ fld d F.HOUSE_POLICY_PECREQ 0 = 0))
    let taken := if w.toNat = 63 then heard else s.takes w
    let turned := if w.toNat = 63 then ¬heard else halted d = true ∨ (w = 32 ∧ hostOpen d = false)
    let kept : House := { coreEn := h.coreEn, wakeAsked := h.wakeAsked }
    let asked := target.toNat * 2 ^ 18 + confirm.toNat
    let seen := causes &&& BitVec.ofNat 4 (12 + fld d F.HOUSE_TAMPER_EN0 0 + 2 * fld d F.HOUSE_TAMPER_EN1 0)
    Gives (.powerGood addr) s (fun t =>
        blank t.dev ∧ t.dev.house = { kept with up := true, boot := 1, addr := addr, vbat := vbat } ∧ t.dev.time.sec = vbat
          ∧ (s.sec.tamperPend = 0 → t.dev.led = {})
          ∧ fld t.dev F.HOUSE_LC_STATE 0 = lc.toNat
          ∧ count t.sec = (count s.sec + 1) % 2 ^ 32
          ∧ { t.sec with pb := s.sec.pb, vbat := s.sec.vbat, sealing := s.sec.sealing, crypto := s.sec.crypto
                         pbHeld := s.sec.pbHeld, tamperPend := s.sec.tamperPend } = s.sec ∧ t.sec.tamperPend = 0
          ∧ t.pending = s.pending)
    ∧ Gives .powerLoss s (fun t => blank t.dev ∧ t.sec.vault = [] ∧ t.sec.key = s.sec.key ∧ t.sec.pb = s.sec.pb
        ∧ t.sec.lc = lc ∧ t.sec.wraps = s.sec.wraps ∧ t.dev.house = kept ∧ t.pending = s.pending)
    ∧ (h.boot = 1 → Does (.memTestDone []) s d [] tested)
    ∧ (h.boot = 1 → m.toNat < 16 → Does (.memTestDone [(m, x)]) s (post d 0x82 0 m.toNat x.toNat)
        [(F.HOUSE_MEMFAIL_POS, 0, fld d F.HOUSE_MEMFAIL_POS 0 ||| 2 ^ m.toNat), (F.SE_ENG_CTRL_ENABLE, m.toNat, 0)]
        tested)
    ∧ (h.boot ≠ 1 → h.trans = 3 → Gives (.memTestDone []) s fun t =>
        RegsBecome [(F.HOUSE_STATE_STATE, 0, 1), (F.HOUSE_STATE_DEPTH, 0, 3), (F.HOUSE_STATE_LASTRES, 0, 1)]
            (alert (raise (post d 0x80 0 1 3) 24) 2) t.dev
          ∧ t.dev.house.trans = 0 ∧ t.dev.house.depth = 3 ∧ t.sec = s.sec ∧ t.pending = s.pending)
    ∧ (h.boot ≠ 1 → h.trans ≠ 3 → Does (.memTestDone []) s d [] id)
    ∧ (h.boot = 2 → lc = 0 → Does (.bootImageChecked none none) s (post d 0x81 0 4 4) [(F.HOUSE_BOOT_RESULT, 0, 4)]
        fun d => { d with house := { d.house with boot := 3 } })
    ∧ (h.boot = 2 → lc ≠ 0 → Does (.bootImageChecked none none) s (post d 0x81 0 1 1) [(F.HOUSE_BOOT_RESULT, 0, 1)]
        fun d => { d with house := { d.house with boot := 3 } })
    ∧ (h.boot = 2 → lc ≠ 0 → bootCheck lc (some l) = 0 → n < 2 → i < leAt l (16 + 8 * n) 4 → leAt l 32 4 = 0 →
        Gives (.bootImageChecked (some l) none) s fun t =>
          Tab.get 0 t.dev.prog (n * 65536 + i) = BitVec.ofNat 32 (leAt l (off + 4 * i) 4)
            ∧ fld t.dev F.HOUSE_BOOT_RESULT 0 = 0 ∧ fld t.dev F.HOUSE_BOOT_COPY 0 = 0
            ∧ (fld d F.PC_CTRL_MEMFAIL n = 0 → fld t.dev F.PC_CTRL_RUN n = 1 ∧ (core t.dev (17 + n)).run = .on)
            ∧ (core t.dev (17 + n)).pc = 0 ∧ t.dev.house = { h with boot := 3 } ∧ t.dev.mkt = d.mkt ∧ t.sec = s.sec
            ∧ t.pending = s.pending)
    ∧ (h.boot ≠ 2 → Does (.bootImageChecked none none) s d [] id)
    ∧ (taken → ¬permitted → Does (.lcAdvance w pec target confirm) s (post d 0x01 w.toNat A.HOUSE_LC (asked % 2 ^ 24)) [] id)
    ∧ (turned → Does (.lcAdvance w pec target confirm) s d [] id)
    ∧ (w.toNat ≠ 63 → ¬turned → ¬taken → exec (.lcAdvance w pec target confirm) s
        = .next (holdBehind s w.toNat [(A.HOUSE_LC, some (BitVec.ofNat 24 asked))]))
    ∧ (taken → permitted → Gives (.lcAdvance w pec target confirm) s fun t =>
          t.sec.lc = target ∧ t.sec.key = 0 ∧ t.sec.vault = [] ∧ t.dev.house.up = true ∧ t.dev.house.boot = 1
            ∧ fld t.dev F.HOUSE_LC_STATE 0 = target.toNat ∧ t.dev.mkt = [] ∧ t.dev.cores = [] ∧ t.pending = s.pending)
    ∧ (seen = 0 → Does (.tamperEvent causes) s d [] id)
    ∧ (seen ≠ 0 → h.up = false → Gives (.tamperEvent causes) s fun t =>
        fld t.dev F.HOUSE_TAMPER_CAUSE 0 = fld d F.HOUSE_TAMPER_CAUSE 0 ||| seen.toNat
          ∧ fld t.dev F.HOUSE_TAMPER_COUNT 0 = min (F.HOUSE_TAMPER_COUNT.size - 1) (fld d F.HOUSE_TAMPER_COUNT 0 + 1)
          ∧ t.sec.key = 0 ∧ t.sec.tamperPend = s.sec.tamperPend ||| seen ∧ t.sec.vault = s.sec.vault ∧ t.sec.pb = s.sec.pb
          ∧ t.sec.lc = lc ∧ t.pending = s.pending)
    ∧ (seen ≠ 0 → h.up = true → Gives (.tamperEvent causes) s fun t =>
        fld t.dev F.HOUSE_TAMPER_CAUSE 0 = fld d F.HOUSE_TAMPER_CAUSE 0 ||| seen.toNat
          ∧ fld t.dev F.HOUSE_TAMPER_COUNT 0 = min (F.HOUSE_TAMPER_COUNT.size - 1) (fld d F.HOUSE_TAMPER_COUNT 0 + 1)
          ∧ rd t.dev A.HOUSE_TAMPER_T = BitVec.ofNat 24 h.vbat ∧ fld t.dev F.VAULT_STAT_WIPING 0 = 1
          ∧ (fld d F.HOUSE_POLICY_TAMPHALT 0 = 1 → t.dev.col.disAll = true
            ∧ t.dev.house.trans = (if d.ticking then 8 else 0)
            ∧ fld t.dev F.HOUSE_STATE_STATE 0 = (if d.ticking then fld d F.HOUSE_STATE_STATE 0 else 4))
          ∧ t.sec.key = 0 ∧ t.sec.vault = [] ∧ t.sec.lc = lc ∧ t.pending = s.pending)
    ∧ (seen ≠ 0 → h.up = true → s.sec.sealing = none → fld d F.HOUSE_POLICY_TAMPHALT 0 = 0 → fld d F.VAULT_STAT_BKEY 0 ≤ 1 →
        Gives (.tamperEvent causes) s fun t =>
          RegsBecome [(F.HOUSE_TAMPER_CAUSE, 0, fld d F.HOUSE_TAMPER_CAUSE 0 ||| seen.toNat),
              (F.HOUSE_TAMPER_COUNT, 0, min (F.HOUSE_TAMPER_COUNT.size - 1) (fld d F.HOUSE_TAMPER_COUNT 0 + 1)),
              ({ base := A.HOUSE_TAMPER_T, stride := 0, hi := 23, lo := 0 }, 0, h.vbat), (F.VAULT_STAT_BKEY, 0, 0),
              (F.VAULT_STAT_WIPING, 0, 1), (F.LEDG_PCTRL_BUSY, 0, 1)]
            (post d 0x83 0 seen.toNat (min (F.HOUSE_TAMPER_COUNT.size - 1) (fld d F.HOUSE_TAMPER_COUNT 0 + 1))) t.dev
          ∧ t.sec.key = 0 ∧ t.sec.vault = [] ∧ (b < 0x78000 → Tab.get 0 t.sec.pb b = Tab.get 0 s.sec.pb b)
          ∧ (0x78000 ≤ b → b < 0x80000 → Tab.get 0 t.sec.pb b = 0) ∧ t.sec.lc = lc ∧ t.pending = s.pending)
    ∧ (fld d F.HOUSE_ALERT_CAUSE 0 / 2 ^ 7 % 2 = 1 → Does .tjAbove105 s d [] id)
    ∧ (fld d F.HOUSE_ALERT_CAUSE 0 / 2 ^ 7 % 2 = 0 → Does .tjAbove105 s (raise d 24)
        [(F.HOUSE_ALERT_CAUSE, 0, fld d F.HOUSE_ALERT_CAUSE 0 + 2 ^ 7)] (house fun h => { h with released := false }))
    ∧ Does .wakeN s d [] (if h.coreEn = false then house fun h => { h with wakeAsked := true } else id)
    ∧ Does .coreEnRise s d [] (if h.coreEn = false ∧ h.wakeAsked = true then
        house fun h => { h with trans := if h.trans = 7 then 0 else h.trans, coreEn := true, wakeAsked := false } else id)

/-- O50. A command HOUSE does not take, for its PEC, has no effect. RUN, HUSH and DARK during a transition answer BUSY.
RUN in RUN is done; in HUSH it starts the wake. HUSH with no depth granted or none that leaves time answers why; else
it enters the deepest that does, every source taking DIS. DARK enters through the curtains, or from HUSH through the
flush. The wake time, and a grant withdrawn, wake it. GRANT and NEXT_EVENT are written as SMBus reaches them. Nothing
else changes. The model's choices (notes/assumptions/36): RUN in RUN is DONE, GRANT over SMBus keeps bits [7:0], and a
refused command raises no source. -/
def Obligations.HouseStateRows : Prop :=
  ∀ (s : State) (w : BitVec 6) (pec : BitVec 2) (v : W24) (sec : BitVec 48) (ns : BitVec 30) (valid : Bool) (tev : Nat), s.takes w →
    let d := s.dev
    let h := d.house
    let state := fld d F.HOUSE_STATE_STATE 0
    let smb := w.toNat = 63
    let takes := smb → h.up = true ∧ (pec = 1 ∨ (pec = 0 ∧ fld d F.HOUSE_POLICY_PECREQ 0 = 0))
    let free := state < 2 ∧ h.trans = 0
    let tells (i : Instr) (r : Nat) : Prop := Does i s d [(F.HOUSE_STATE_LASTRES, 0, r)] id
    let grant (k : Nat) : Bool := fld d (if k = 1 then F.HOUSE_GRANT_D1 else if k = 2 then F.HOUSE_GRANT_D2 else F.HOUSE_GRANT_D3) 0 == 1
    let rate := rateHz d
    let need (k : Nat) : Nat :=
      (if k = 1 then 1000000000 else if k = 2 then 2000000 * rate else 60000000 * rate)
        + fld d F.HOUSE_GRANT_MARGIN 0 * 1000000 * rate
    let left : Int := ((tev : Int) - (d.time.sec * 1000000000 + d.time.frac / 2 ^ 32 : Nat)) * rate
    let fits (k : Nat) : Bool := decide (eventDue d = none) || decide (need k ≤ left)
    let none_ := ∀ k ∈ [1, 2, 3], (grant k && fits k) = false
    let deepest (k : Nat) : Prop := grant k = true ∧ fits k = true ∧ ∀ j ∈ [1, 2, 3], k < j → (grant j && fits j) = false
    let enters (i : Instr) (trans depth : Nat) : Prop := Does i s d [(F.HOUSE_STATE_STATE, 0, 2)] fun d =>
      { d with col := { d.col with disAll := true }, house := { h with trans := trans, depth := depth } }
    let wakes (i : Instr) (base : Dev) : Prop := Does i s base [(F.HOUSE_STATE_STATE, 0, 3)] fun d =>
      { d with house := { h with trans := 4, gated := false } }
    let shallow := h.depth = 1 ∧ h.trans = 0 ∧ ∀ n < 4, (Tab.get {} d.ports n : Port).lpi = false
    let word : W24 := if smb then (v &&& 0xFFFF00) ||| (rd d A.HOUSE_GRANT &&& 0xFF) else v
    let granted := regWrite d w.toNat A.HOUSE_GRANT word
    let due := eventDue d = none ∨ eventDue d = some tev
    (¬takes → ∀ i ∈ [Instr.runCmd w pec, Instr.hushCmd w pec, Instr.darkCmd w pec, Instr.grant w pec v,
        Instr.nextEvent w pec sec ns valid], Does i s d [] id)
    ∧ (takes → ¬free → ∀ i ∈ [Instr.runCmd w pec, Instr.hushCmd w pec, Instr.darkCmd w pec], tells i 2)
    ∧ (takes → free → state = 0 → tells (.runCmd w pec) 1)
    ∧ (takes → state = 1 → shallow → wakes (.runCmd w pec) d)
    ∧ (takes → free → state = 1 → tells (.hushCmd w pec) 1)
    ∧ (takes → free → state = 0 → (∀ k ∈ [1, 2, 3], grant k = false) → tells (.hushCmd w pec) 4)
    ∧ (takes → free → state = 0 → due → none_ → (∃ k ∈ [1, 2, 3], grant k = true) → tells (.hushCmd w pec) 3)
    ∧ (takes → free → state = 0 → due → d.ticking = true → ∀ k ∈ [1, 2, 3], deepest k → enters (.hushCmd w pec) 1 k)
    ∧ (takes → free → state = 0 → d.ticking = true → enters (.darkCmd w pec) 5 0)
    ∧ (takes → free → state = 1 → Does (.darkCmd w pec) s d [(F.HOUSE_STATE_STATE, 0, 2), (F.LEDG_PCTRL_BUSY, 0, 1)]
        fun d => { d with house := { h with trans := 6 } })
    ∧ (state = 1 → shallow → eventDue d = some tev → left ≤ need 1 → wakes .hushWake d)
    ∧ (state ≠ 1 ∨ eventDue d = none ∨ (eventDue d = some tev ∧ (need h.depth : Int) < left) → Does .hushWake s d [] id)
    ∧ (takes → state ≠ 1 → Does (.grant w pec v) s granted [] id)
    ∧ (takes → state = 1 → shallow → F.HOUSE_GRANT_D1.of v = 0 → wakes (.grant w pec v) granted)
    ∧ (takes → state ≠ 1 → Does (.nextEvent w pec sec ns valid) s d
        [(F.HOUSE_NE_SEC_HI_SEC, 0, sec.toNat / 2 ^ 24), (F.HOUSE_NE_SEC_LO_SEC, 0, sec.toNat),
         (F.HOUSE_NE_NS_HI_NS, 0, ns.toNat / 2 ^ 24), (F.HOUSE_NE_NS_LO_NS, 0, ns.toNat),
         (F.HOUSE_NE_NS_HI_VALID, 0, if smb then (if sec = 0 ∧ ns = 0 then 0 else 1) else if valid then 1 else 0)] id)

/-- O51. A command HOUSE takes by its PEC answers, least significant byte first, with the register it reads and changes
nothing else; one it does not take has no effect. ALERT_CLR and ALERT_MASK write their registers; the ledger command
answers the entry at SMBPTR, which moves on, or zeros; RESET_PC resets a prompter as R70 says; RESET_DEVICE begins
bring-up, which samples the address straps anew. The Alert Response answers HOUSE's address while ALERT_N is low, and
releases it. The model's choices: the reply stands in House.smb, and a transaction that is not taken leaves the last
one there (notes/assumptions/38); the count of unread entries behind SMBPTR (notes/assumptions/23); what the straps
say at RESET_DEVICE is a free value (notes/assumptions/2); CORE_EN is the VBAT domain's (notes/assumptions/36). -/
def Obligations.SmbusRows : Prop :=
  ∀ (s : State) (pec : BitVec 2) (tj v : BitVec 16) (n : Fin 2),
    let d := s.dev
    let h := d.house
    let takes := h.up = true ∧ (pec = 1 ∨ (pec = 0 ∧ fld d F.HOUSE_POLICY_PECREQ 0 = 0))
    let reply (l : List Byte) (d : Dev) : Dev := { d with house := { d.house with smb := l } }
    let tells (i : Instr) (l : List Byte) : Prop := Does i s d [] (reply l)
    let le (k x : Nat) : List Byte := (List.range k).map fun i => BitVec.ofNat 8 (x / 256 ^ i)
    let reg (a : Nat) : Nat := (rd d a).toNat
    let e : Entry := Tab.get {} d.led.ring (fld d F.LEDG_SMBPTR_PTR 0)
    let pc : Core :=
      { st := (if fld d F.PC_CTRL_SEC n = 1 then 0x4000 else 0)
        run := (if fld d F.PC_CTRL_RUN n = 1 then .on else .off)
        hold := (if (core d (17 + n.val)).hold = .test then .test else .free) }
    let low := h.released = false ∧ ∃ b < 12, (fld d F.HOUSE_ALERT_CAUSE 0).testBit b = true
      ∧ (fld d F.HOUSE_ALERT_MASK_MASK 0).testBit b = false
    let all : List Instr :=
      [.smbState pec, .smbGrantRead pec, .smbNextEventRead pec, .smbSerial pec, .smbLc pec, .smbTemp pec tj, .smbVcore pec,
       .smbAlert pec, .smbAlertClr pec v, .smbAlertMask pec (some v), .smbAlertMask pec none, .smbLedger pec,
       .smbResetDevice pec, .smbResetPc pec n, .smbTamper pec]
    (¬takes → ∀ i ∈ all, Does i s d [] id)
    ∧ (takes → tells (.smbState pec) (le 2 (reg A.HOUSE_STATE / 256)) ∧ tells (.smbGrantRead pec) (le 2 (reg A.HOUSE_GRANT / 256))
      ∧ tells (.smbNextEventRead pec)
          (le 3 (reg A.HOUSE_NE_SEC_LO) ++ le 3 (fld d F.HOUSE_NE_SEC_HI_SEC 0)
            ++ le 3 (fld d F.HOUSE_NE_NS_LO_NS 0) ++ le 1 (fld d F.HOUSE_NE_NS_HI_NS 0))
      ∧ tells (.smbSerial pec) (le 8 (reg A.HOUSE_SERIAL * 2 ^ 40 + reg (A.HOUSE_SERIAL + 1) * 2 ^ 16
          + reg (A.HOUSE_SERIAL + 2) / 256) ++ le 1 (reg (A.HOUSE_SERIAL + 2)))
      ∧ tells (.smbLc pec) (le 1 (fld d F.HOUSE_LC_STATE 0)) ∧ tells (.smbTemp pec tj) (le 2 tj.toNat)
      ∧ tells (.smbVcore pec) (le 2 (fld d F.PWR_GOV_STAT_VREQ 0)) ∧ tells (.smbAlert pec) (le 2 (fld d F.HOUSE_ALERT_CAUSE 0))
      ∧ tells (.smbAlertMask pec none) (le 2 (fld d F.HOUSE_ALERT_MASK_MASK 0))
      ∧ tells (.smbTamper pec) (le 3 (reg A.HOUSE_TAMPER) ++ le 3 (reg A.HOUSE_TAMPER_T))
      ∧ Does (.smbAlertClr pec v) s (regWrite d 63 A.HOUSE_ALERT (v.zeroExtend 24)) [] id
      ∧ Does (.smbAlertMask pec (some v)) s (regWrite d 63 A.HOUSE_ALERT_MASK (v.zeroExtend 24)) [] id
      ∧ (d.led.smb = 0 → tells (.smbLedger pec) (List.replicate 18 0))
      ∧ (0 < d.led.smb → Does (.smbLedger pec) s d [(F.LEDG_SMBPTR_PTR, 0, (fld d F.LEDG_SMBPTR_PTR 0 + 1) % 4096)] fun d =>
          reply ([e.w0, e.w1, e.w2, e.w3, e.w4, e.w5].flatMap fun x => le 3 x.toNat)
            { d with led := { d.led with smb := d.led.smb - 1 } })
      ∧ Does (.smbResetPc pec n) s d [] (fun d => { d with cores := Tab.set {} d.cores (17 + n.val) pc })
      ∧ Gives (.smbResetDevice pec) s (fun t =>
          t.dev.house = { up := true, boot := 1, addr := (Config.freeWord d.fresh).truncate 3, vbat := h.vbat
                          coreEn := h.coreEn, wakeAsked := h.wakeAsked } ∧ t.dev.time.sec = h.vbat
            ∧ { t.dev with ctl := [], fresh := 0, house := {}, time := {}, led := {} } = {} ∧ (s.sec.tamperPend = 0 → t.dev.led = {})
            ∧ t.sec.vault = s.sec.vault ∧ t.sec.key = s.sec.key ∧ t.sec.lc = s.sec.lc ∧ t.pending = s.pending))
    ∧ (h.up = true → low → Does .smbAlertResponse s d [] fun d =>
        { reply (le 1 (2 * (0x58 + h.addr.toNat))) d with house := { h with smb := le 1 (2 * (0x58 + h.addr.toNat)), released := true } })
    ∧ (h.up = false ∨ ¬low → Does .smbAlertResponse s d [] id)

/-- O52. A cycle accepts what arrived in the order of source and code, each with the next sequence number and the time of
that cycle, and then raises its code's interrupt source and alert cause; a full queue counts and drops, and raises
nothing. Storing raises source 20 and its alert cause from severity IRQSEV on. It counts the code, turns away what
MINSEV, RLIM and the limit of one for each source in a second keep out, and puts the six words of the rest at HEAD,
over the oldest where MODE = 0 and the ring is full, and into the persistent ring where PSEV asks for it, 16 in a
second; TAMPER and LC_CHANGE are always persisted. TAIL consumes entries, and a value outside the held range is
dropped; CLEAR empties the ring; ENTRY0 latches the entry SEL names. A flush is BUSY until it is done, and PFLUSH = 0
has no period. SWPOST posts the two software codes and no other. Each of these rows keeps COUNT at HEAD - TAIL, no
more than 4,096. Nothing else changes. The model's choices: one LEDGER_POST takes every post that has arrived
(notes/assumptions/23), at an instant within the tick that is free (notes/assumptions/43), and interrupt sources and
alert causes are raised at acceptance (notes/assumptions/6 and 23). -/
def Obligations.LedgerRows : Prop :=
  ∀ (s : State) (w : BitVec 6) (v : W24) (p p' : Post) (q : Accepted) (rest : List Accepted) (i j : Nat), s.takes w →
    let d := s.dev
    let l := d.led
    let more (f : Fld) (i : Nat) : Fld × Nat × Nat := (f, i, min (f.size - 1) (fld d f i + 1))
    let led (l : Ledger) (d : Dev) : Dev := { d with led := l }
    let cycle := timeWithin d
    let now (p : Post) (k : Nat) : Accepted :=
      { post := p, seq := l.seq + BitVec.ofNat 14 k, sec := cycle.time.sec, ns := cycle.time.frac / 2 ^ 32 }
    let sources : List (Nat × Nat) :=
      [(0x32, 16), (0x33, 16), (0x34, 16), (0x35, 16), (0x40, 17), (0x41, 17), (0x13, 19), (0x14, 19), (0x15, 19), (0x16, 19)]
    let causes : List (Nat × Nat) :=
      [(0x18, 0), (0x19, 1), (0x83, 3), (0x13, 4), (0x16, 4), (0x21, 5), (0x22, 5), (0x23, 5), (0x65, 6), (0x81, 8), (0x82, 8),
       (0x62, 9), (0x63, 9), (0x41, 10)]
    let told (p : Post) (d : Dev) : Dev :=
      let d := (sources.filter (·.1 = p.code)).foldl (fun d e => raise d e.2) d
      (causes.filter (·.1 = p.code)).foldl (fun d e => alert d e.2) d
    let first := p.src < p'.src ∨ (p.src = p'.src ∧ p.code < p'.code)
    let code := q.post.code
    let sev := (sevOf code).getD 0
    let once := code = 0x02 ∨ code = 0x71 ∨ (0x50 ≤ code ∧ code ≤ 0x54)
    let counted : Ledger := { l with queue := rest, since := Tab.set 0 l.since code (Tab.get 0 l.since code + 1) }
    let head := fld d F.LEDG_HEAD_HEAD 0
    let tail := fld d F.LEDG_TAIL_TAIL 0
    let held := fld d F.LEDG_COUNT_COUNT 0
    let entry : Entry :=
      { w0 := BitVec.ofNat 24 (sev * 2 ^ 22 + q.seq.toNat * 256 + code), w1 := BitVec.ofNat 24 (q.ns / 2 ^ 24 * 2 ^ 18 + q.post.src)
        w2 := q.post.d1, w3 := q.post.d2, w4 := BitVec.ofNat 24 q.sec, w5 := BitVec.ofNat 24 q.ns }
    let stored : Ledger :=
      { counted with
        ring := Tab.set {} l.ring head entry, smb := min 4096 (l.smb + 1)
        codeSec := Tab.set 0 l.codeSec code (Tab.get 0 l.codeSec code + 1)
        srcSec := if once then (code, q.post.src) :: l.srcSec else l.srcSec }
    let next (n : Nat) : Nat := (n + 1) % 4096
    let moves : List (Fld × Nat × Nat) :=
      [more F.LEDG_CNT_COUNT code, (F.LEDG_HEAD_HEAD, 0, next head)]
        ++ if 4096 ≤ l.smb then [(F.LEDG_SMBPTR_PTR, 0, next (fld d F.LEDG_SMBPTR_PTR 0))] else []
    let heard : Dev := if fld d F.LEDG_CTRL_IRQSEV 0 ≤ sev then alert (raise d 20) 11 else d
    let plain := l.queue = q :: rest ∧ code < 256 ∧ code ≠ 0x83 ∧ code ≠ 0x84
    let turned := sev < fld d F.LEDG_CTRL_MINSEV 0
      ∨ (fld d F.LEDG_CTRL_RLIM 0 ≠ 0 ∧ fld d F.LEDG_CTRL_RLIM 0 ≤ Tab.get 0 l.codeSec code)
      ∨ (once ∧ (code, q.post.src) ∈ l.srcSec)
    let kept := plain ∧ ¬turned
    let quiet := sev < fld d F.LEDG_PCTRL_PSEV 0
    let slot := leAt ((List.range 2).map fun i => Tab.get 0 s.sec.pb (0x1010 + i)) 0 2 % 2048
    let boots := leAt ((List.range 4).map fun i => Tab.get 0 s.sec.pb (0x1008 + i)) 0 4
    let record : List Byte :=
      ([entry.w0, entry.w1, entry.w2, entry.w3, entry.w4, entry.w5].flatMap fun x =>
        (List.range 3).map fun i => BitVec.ofNat 8 (x.toNat / 256 ^ i)) ++ [BitVec.ofNat 8 boots, BitVec.ofNat 8 (boots / 256)]
    let history (m o : Nat) : Byte := Tab.get 0 s.sec.pb (0xB440 + 20 * m + o)
    let taken := (F.LEDG_TAIL_TAIL.of v + 4096 - tail) % 4096
    let used := if taken = 0 ∧ 4096 ≤ held then 4096 else taken
    let e : Entry := Tab.get {} l.ring (fld d F.LEDG_SEL_SEL 0)
    let shows (i : Nat) (x : W24) : Fld × Nat × Nat := ({ base := A.LEDG_ENTRY + i, stride := 0, hi := 23, lo := 0 }, 0, x.toNat)
    let base := regWrite d w.toNat A.LEDG_SWPOST0 v
    let c := F.LEDG_SWPOST0_CODE.of v
    let wf (d : Dev) : Prop := fld d F.LEDG_COUNT_COUNT 0 ≤ 4096
      ∧ (fld d F.LEDG_TAIL_TAIL 0 + fld d F.LEDG_COUNT_COUNT 0) % 4096 = fld d F.LEDG_HEAD_HEAD 0
    (l.arriving = [p, p'] → first → l.queue.length < 15 → Does .ledgerPost s (told p' (told p cycle)) []
        (led { l with arriving := [], queue := l.queue ++ [now p 0, now p' 1], seq := l.seq + 2 }))
    ∧ (l.arriving = [p', p] → first → l.queue.length < 15 → Does .ledgerPost s (told p' (told p cycle)) []
        (led { l with arriving := [], queue := l.queue ++ [now p 0, now p' 1], seq := l.seq + 2 }))
    ∧ (l.arriving = [p] → 16 ≤ l.queue.length → p.code < 256 →
        Does .ledgerPost s cycle [more F.LEDG_CNT_COUNT p.code, more F.LEDG_DROPS_COUNT 0]
          (led { l with arriving := [], since := Tab.set 0 l.since p.code (Tab.get 0 l.since p.code + 1) }))
    ∧ (l.arriving = [] → Does .ledgerPost s d [] id)
    ∧ (wf d → ∀ i ∈ [Instr.ledgerPost, .ledgerStore, .ledgerTailWrite w v, .ledgerClear w v, .ledgerEntry0Read w,
        .ledgCntclrAll w v, .flush w v, .flushDone, .flushPeriod, .swpost w v], Gives i s fun t => wf t.dev)
    ∧ (l.queue = [] → Does .ledgerStore s d [] id)
    ∧ (plain → turned →
        Does .ledgerStore s heard [more F.LEDG_CNT_COUNT code, more F.LEDG_SUPP_COUNT 0] (led counted))
    ∧ (kept → quiet → held < 4096 → Does .ledgerStore s heard ((F.LEDG_COUNT_COUNT, 0, held + 1) :: moves) (led stored))
    ∧ (kept → quiet → 4096 ≤ held → fld d F.LEDG_CTRL_MODE 0 = 0 →
        Does .ledgerStore s heard ([(F.LEDG_TAIL_TAIL, 0, next tail), more F.LEDG_OVWR_COUNT 0] ++ moves) (led stored))
    ∧ (kept → 4096 ≤ held → fld d F.LEDG_CTRL_MODE 0 = 1 →
        Does .ledgerStore s heard [more F.LEDG_CNT_COUNT code, more F.LEDG_DROPS_COUNT 0] (led counted))
    ∧ (kept → ¬quiet → held < 4096 → l.persSec < 16 → Gives .ledgerStore s fun t =>
        RegsBecome ((F.LEDG_COUNT_COUNT, 0, held + 1) :: moves) heard t.dev
          ∧ { t.dev with ctl := heard.ctl } = led { stored with persSec := l.persSec + 1 } heard
          ∧ (j < 20 → Tab.get 0 t.sec.pb (0x1440 + 20 * slot + j) = record.getD j 0)
          ∧ ((j < 0x1010 ∨ 0x1014 ≤ j) → (j < 0x1440 + 20 * slot ∨ 0x1440 + 20 * slot + 20 ≤ j) →
              Tab.get 0 t.sec.pb j = Tab.get 0 s.sec.pb j)
          ∧ { t.sec with pb := s.sec.pb } = s.sec ∧ t.pending = s.pending)
    ∧ (kept → ¬quiet → held < 4096 → 16 ≤ l.persSec →
        Does .ledgerStore s heard ([(F.LEDG_COUNT_COUNT, 0, held + 1), more F.LEDG_PSTAT_PSKIP 0] ++ moves) (led stored))
    ∧ (l.queue = q :: rest → code = 0x83 ∨ code = 0x84 → Gives .ledgerStore s fun t =>
        (code = 0x83 → j < 20 → Tab.get 0 t.sec.pb (0x1440 + 20 * slot + j) = record.getD j 0)
          ∧ (code = 0x83 → (j < 0x1010 ∨ 0x1014 ≤ j) → (j < 0x1440 + 20 * slot ∨ 0x1440 + 20 * slot + 20 ≤ j) →
              Tab.get 0 t.sec.pb j = Tab.get 0 s.sec.pb j)
          ∧ (code = 0x84 → i < 8 → (∀ o < 20, history i o = 0) → (∀ m < i, ∃ o < 20, history m o ≠ 0) →
              (j < 20 → Tab.get 0 t.sec.pb (0xB440 + 20 * i + j) = record.getD j 0)
                ∧ (j < 0xB440 + 20 * i ∨ 0xB440 + 20 * i + 20 ≤ j → Tab.get 0 t.sec.pb j = Tab.get 0 s.sec.pb j))
          ∧ (code = 0x84 → (∀ m < 8, ∃ o < 20, history m o ≠ 0) → t.sec.pb = s.sec.pb)
          ∧ (¬turned → held < 4096 → RegsBecome ((F.LEDG_COUNT_COUNT, 0, held + 1) :: moves) heard t.dev
              ∧ { t.dev with ctl := heard.ctl } = led stored heard)
          ∧ (turned → RegsBecome [more F.LEDG_CNT_COUNT code, more F.LEDG_SUPP_COUNT 0] heard t.dev
              ∧ { t.dev with ctl := heard.ctl } = led counted heard)
          ∧ { t.sec with pb := s.sec.pb } = s.sec ∧ t.pending = s.pending)
    ∧ (used ≤ held → Does (.ledgerTailWrite w v) s (regWrite d w.toNat A.LEDG_TAIL v) [(F.LEDG_COUNT_COUNT, 0, held - used)] id)
    ∧ (held < used → Does (.ledgerTailWrite w v) s d [] id)
    ∧ (F.LEDG_CTRL_CLEAR.of v = 1 → Does (.ledgerClear w v) s (regWrite d w.toNat A.LEDG_CTRL v)
        [(F.LEDG_TAIL_TAIL, 0, head), (F.LEDG_SMBPTR_PTR, 0, head), (F.LEDG_COUNT_COUNT, 0, 0)]
        fun d => { d with led := { d.led with smb := 0 } })
    ∧ Does (.ledgerEntry0Read w) s d [shows 0 e.w0, shows 1 e.w1, shows 2 e.w2, shows 3 e.w3, shows 4 e.w4, shows 5 e.w5] id
    ∧ Does (.flush w v) s (regWrite d w.toNat A.LEDG_PCTRL v)
        (if F.LEDG_PCTRL_FLUSH.of v = 1 then [(F.LEDG_PCTRL_BUSY, 0, 1)] else []) id
    ∧ Does .flushPeriod s d (if fld d F.LEDG_PCTRL_PFLUSH 0 = 0 then [] else [(F.LEDG_PCTRL_BUSY, 0, 1)]) id
    ∧ (fld d F.LEDG_PCTRL_BUSY 0 = 0 → Does .flushDone s d [] id)
    ∧ (fld d F.LEDG_PCTRL_BUSY 0 = 1 → d.house.trans ≠ 6 → l.since = [] → Gives .flushDone s fun t =>
        RegsBecome [(F.LEDG_PCTRL_BUSY, 0, 0)] d t.dev ∧ { t.dev with ctl := d.ctl } = d
          ∧ leAt ((List.range 4).map fun i => Tab.get 0 t.sec.pb (0x100C + i)) 0 4
            = (leAt ((List.range 4).map fun i => Tab.get 0 s.sec.pb (0x100C + i)) 0 4 + 1) % 2 ^ 32
          ∧ ((j < 0x100C ∨ 0x1010 ≤ j) → Tab.get 0 t.sec.pb j = Tab.get 0 s.sec.pb j)
          ∧ { t.sec with pb := s.sec.pb } = s.sec ∧ t.pending = s.pending)
    ∧ (F.LEDG_SWPOST0_GO.of v = 1 → c = 0x90 ∨ c = 0x91 → Does (.swpost w v) s
        (post base c 0 (rd d A.LEDG_SWPOST1).toNat (rd d A.LEDG_SWPOST2).toNat) [] id)
    ∧ (F.LEDG_SWPOST0_GO.of v = 1 → c ≠ 0x90 → c ≠ 0x91 →
        Does (.swpost w v) s (post base 0x01 w.toNat A.LEDG_SWPOST0 v.toNat) [] id)
    ∧ (F.LEDG_SWPOST0_GO.of v = 0 → Does (.swpost w v) s base [] id)

/-- O53. A completed window's numbers go to the front, with SEQ, VALID and, under IRQ, its DONE bit and source 21. EN runs
a unit from the next edge; cleared, one whose window has not begun is OFF, another drains up to the next edge, and
where no edges come it ends its window at once. Settings changed within a window begin a new one, in its last tick
they wait for its end. FEED counts a value of a unit that watches SOFT: its number, its least, its greatest. Nothing
else changes. The model's choices (notes/assumptions/24): when changed settings clear the back buffer and when they
wait, the exchange at TALLY_WINDOW_END, and a drain that ends at once without ticks. -/
def Obligations.TallyRows : Prop :=
  ∀ (s : State) (w : BitVec 6) (v : W24) (n : Fin 64) (off : Fin 6) (b : TallyBuf) (ticks : Nat), s.takes w →
    let d := s.dev
    let u : Tally := Tab.get {} d.tallies n
    let set (u : Tally) (d : Dev) : Dev := { d with tallies := Tab.set {} d.tallies n u }
    let whole (a : Nat) (x : Nat) : Fld × Nat × Nat := ({ base := a, stride := 0, hi := 23, lo := 0 }, 0, x)
    let int (a : Nat) (x : Int) : Fld × Nat × Nat := whole a (x % 2 ^ 24).toNat
    let snapshot (b : TallyBuf) (ticks : Nat) : List (Fld × Nat × Nat) :=
      [(F.TL_TICKS_TICKS, n.val, ticks), (F.TL_NSAMP_NSAMP, n.val, b.nsamp), (F.TL_UNDER_UNDER, n.val, b.under),
       int (F.TL_MIN_MIN.addr n) b.mn, int (F.TL_MAX_MAX.addr n) b.mx, (F.TL_OVER_OVER, n.val, b.overs),
       (F.TL_SEQ_SEQ, n.val, fld d F.TL_SEQ_SEQ n + 1), (F.TL_SEQ_VALID, n.val, 1)]
      ++ (List.range 64).map fun i => (F.TLBIN_BIN, 64 * n.val + i, Tab.get 0 b.bins i)
    let done := A.TALLY_DONE + n.val / 24
    let irq := fld d F.TL_CTRL_IRQ n = 1
    let base := regWrite d w.toNat (F.TL_CTRL_EN.addr n) v
    let cfg := regWrite d w.toNat (F.TL_CTRL_EN.addr n + off) v
    let status := fld d F.TL_CTRL_STATUS n
    let feed := regWrite d w.toNat (F.TL_FEED_FEED.addr n) v
    let other (d' : Dev) : Prop := tallyCfg d' n ≠ tallyCfg d n
    let loud := F.TL_CTRL_IRQ.of v = 1
    (u.done = none → Does (.tallyWindowEnd n) s d [] id)
    ∧ (u.done = some (b, ticks) → Does (.tallyWindowEnd n) s (if irq then raise d 21 else d)
        (snapshot b ticks ++ if irq then [whole done ((rd d done).toNat ||| 2 ^ (n.val % 24))] else [])
        (set { u with done := none }))
    ∧ (F.TL_CTRL_EN.of v = 1 → u.live = false ∨ ¬other base →
        Does (.tallyEnableWrite w n v) s base (if status = 2 then [] else [(F.TL_CTRL_STATUS, n.val, 1)]) id)
    ∧ (F.TL_CTRL_EN.of v = 0 → u.live = false → status = 1 →
        Does (.tallyEnableWrite w n v) s base [(F.TL_CTRL_STATUS, n.val, 0)] (set { u with live := false, dirty := false }))
    ∧ (F.TL_CTRL_EN.of v = 0 → u.live = true → d.ticking = true → status = 1 →
        Does (.tallyEnableWrite w n v) s base [(F.TL_CTRL_STATUS, n.val, 2)] (set { u with dirty := u.dirty ∨ other base }))
    ∧ (F.TL_CTRL_EN.of v = 0 → F.TL_CTRL_HOLD.of v = 0 → u.live = true → u.done = none → d.ticking = false → status = 1 →
        Does (.tallyEnableWrite w n v) s (if loud then raise base 21 else base)
          (snapshot u.back (fld d F.TL_CUR_CUR n) ++ [(F.TL_CUR_CUR, n.val, 0), (F.TL_CTRL_STATUS, n.val, 0)]
            ++ if loud then [whole done ((rd d done).toNat ||| 2 ^ (n.val % 24))] else [])
          (set { u with live := false, dirty := false, back := {} }))
    ∧ (off.val ≠ 0 → u.live = true → other cfg → fld d F.TL_CUR_CUR n + 1 < u.cfg.win →
        fld d F.TL_CTRL_EN n = 1 → status ≠ 2 →
        Does (.tallyConfigWrite w n off v) s cfg [(F.TL_CUR_CUR, n.val, 0), (F.TL_CTRL_STATUS, n.val, 1)]
          (set { u with live := false, back := {} }))
    ∧ (off.val ≠ 0 → u.live = true → other cfg → u.cfg.win ≤ fld d F.TL_CUR_CUR n + 1 →
        fld d F.TL_CTRL_EN n = 1 → status ≠ 2 →
        Does (.tallyConfigWrite w n off v) s cfg [(F.TL_CTRL_STATUS, n.val, 1)] (set { u with dirty := true }))
    ∧ (off.val ≠ 0 → u.live = false → status ≠ 1 → fld d F.TL_CTRL_EN n = 0 → Does (.tallyConfigWrite w n off v) s cfg [] id)
    ∧ (u.live = true → u.cfg.probe = 9 → Gives (.feed w n v) s fun t =>
        let x : Tally := Tab.get {} t.dev.tallies n
        x.back.nsamp = min 0xFFFFFF (u.back.nsamp + 1) ∧ x.back.mn = min u.back.mn v.toInt ∧ x.back.mx = max u.back.mx v.toInt
          ∧ { x with back := u.back } = u ∧ OnlyAt {} n.val d.tallies t.dev.tallies
          ∧ RegsBecome [] feed t.dev ∧ { t.dev with tallies := d.tallies, ctl := feed.ctl } = feed
          ∧ t.sec = s.sec ∧ t.pending = s.pending)
    ∧ (u.live = false ∨ u.cfg.probe ≠ 9 → Does (.feed w n v) s feed [] id)

/-- O54. A write to an address without a register is posted as REG_HOLE and does nothing. At an address whose write has no
effect but on its fields (spelled out: the ranges without writers of their own), an RW field takes the value, an RO or
WO field keeps it, a 1 clears a W1C bit, an unassigned value leaves its field and is posted once as REG_RSVD; an RWC
field takes it in the next copy, the live one stays. A new RATE counts from its own instant. Of every row that is an
access of control space (rowAccess): the host's comes only once its link is enabled, and an access behind one of its
master that BUSY or the Board holds is held with it, in order. A host's write without all its bytes is dropped and
counted. Two writes that wait behind a held Board write are made again, in their order, after a posting or where ticks
may have ceased. While the device is HALTED a write, a row of control space, a tick edge, the ingress latch, a Market
access and a TAI second do nothing. The model's choices: what does nothing in HALTED (notes/assumptions/39), what
waits behind a held access and when it goes on (notes/assumptions/46), and a new RATE at its own open instant
(notes/assumptions/43). -/
def Obligations.RegisterWriteRow : Prop :=
  ∀ (s : State) (w m : BitVec 6) (a v : W24) (whole : Bool) (r : RegRow) (dt : BitVec 16) (x : BitVec 26) (i : Nat)
    (j : Instr) (u m' : BitVec 6) (l : List (Nat × Option W24)) (a' v' : W24) (k : Fin 2) (tj : BitVec 8),
    let d := s.dev
    let n := a.toNat
    let plain := n < 0x400 ∨ (0x2800 ≤ n ∧ n < 0x4000) ∨ (0x6000 ≤ n ∧ n < 0x8000) ∨ (0x10010 ≤ n ∧ n < 0x14000)
      ∨ (0x44000 ≤ n ∧ n < 0x48000 ∧ n % 4 ≠ 3) ∨ (0x18000 ≤ n ∧ n < 0x1A000)
      ∨ n ∈ [A.HOUSE_POLICY, A.MKT_CTRL, A.LEDG_SEL, A.MCS_RETURN, A.PT_BASE, A.RING_BASE]
    let old (f : FieldRow) : Nat := bits (rd d n).toNat f.hi f.lo
    let new (f : FieldRow) : Nat := bits v.toNat f.hi f.lo
    let value (f : FieldRow) : Nat := match f.ty with
      | .rw | .rws => if new f ∈ f.bad then old f else new f
      | .w1c => old f &&& (2 ^ (f.hi + 1 - f.lo) - 1 - new f)
      | .ro | .wo | .rwc => old f
    let rsvd := r.fields.any fun f => f.ty ∈ [.rw, .rws, .rwc, .wo] ∧ new f ∈ f.bad
    let clean (y : W24) : Prop := ∀ i < 24, (∀ f ∈ r.fields, i < f.lo ∨ f.hi < i) → y.getLsbD i = false
    let it : Instr := .registerWrite w a { word := v, whole := whole }
    let still := d.boardHeld = []
    let shut (u : BitVec 6) := u = 32 ∧ (d.house.boot < 2 ∨ d.pcie.d3hot = true)
    let comes := s.up ∧ ¬shut w
    let bytes := w = 32 → whole = true
    let heldPb (u : BitVec 6) := s.sec.pbHeld.any (·.1 = u.toNat) = true
    let heldLive (u : BitVec 6) := d.wliveHeld.any (·.1 = u.toNat) = true
    let heldBoard (u : BitVec 6) := u ≠ 32 ∧ (Tab.get [] d.bheld (if u = 17 then 20 else if u = 18 then 21 else 22)).any (·.own = u.toNat) = true
      ∨ d.boardHeld.any (·.1 = u.toNat) = true
    let held (i : Instr) (u : BitVec 6) (l : List (Nat × Option W24)) : Prop :=
      let l := l.map fun e => (u.toNat, e)
      (heldPb u → Gives i s fun t =>
        t.dev = d ∧ t.sec = { s.sec with pbHeld := s.sec.pbHeld ++ l } ∧ t.pending = s.pending)
      ∧ (¬heldPb u → heldLive u → Does i s d [] fun d => { d with wliveHeld := d.wliveHeld ++ l })
      ∧ (¬heldPb u → ¬heldLive u → heldBoard u → Does i s d [] fun d => { d with boardHeld := d.boardHeld ++ l })
    let drains : Bool := match j with
      | .s1enWrite _ _ | .s2enWrite _ _ | .familyChange _ _ | .lpEnableWrite _ _ _ => true
      | _ => false
    let write (m : BitVec 6) (a v : W24) : Instr := .registerWrite m a { word := v, whole := true }
    let later : State := { s with dev := { d with boardHeld := [(w.toNat, n, some v), (m'.toNat, a'.toNat, some v')] } }
    let lands := comes ∧ bytes ∧ still ∧ ¬heldPb w ∧ ¬heldLive w ∧ ¬heldBoard w
    (lands → RegMap.lookup n = none → Does it s (post d 0x02 w.toNat n v.toNat) [] id)
    ∧ (lands → RegMap.lookup n = some r → plain → clean (rd d n) → Gives it s fun t =>
        RegsBecome (r.fields.map fun f => ({ base := n, stride := 0, hi := f.hi, lo := f.lo }, 0, value f))
            (if rsvd then post d 0x01 w.toNat n v.toNat else d) t.dev
          ∧ (∀ f ∈ r.fields, f.ty = .rwc → new f ∉ f.bad → bits (nrd t.dev n).toNat f.hi f.lo = new f)
          ∧ (i ≠ n → nrd t.dev i = nrd d i)
          ∧ { t.dev with ctl := d.ctl, nxt := d.nxt } = { (if rsvd then post d 0x01 w.toNat n v.toNat else d) with ctl := d.ctl }
          ∧ t.sec = s.sec ∧ t.pending = s.pending)
    ∧ (lands → n = A.TIME_RATE → Does it s (timeWithin d) [(F.TIME_RATE_RATE, 0, v.toNat)] id)
    ∧ (s.up → ¬comes → still → Does it s d [] id)
    ∧ (comes → ¬bytes → still → Does it s d [(F.HOST_STAT_PARTIAL, 0, min 63 (fld d F.HOST_STAT_PARTIAL 0 + 1))] id)
    ∧ (comes → bytes → still → held it w [(n, some v)])
    ∧ (rowAccess j = some (u, l) →
        (¬s.up → Does j s d [] id)
        ∧ (s.up → shut u → still ∨ drains = false → Does j s d [] id)
        ∧ (s.up → ¬shut u → still ∨ drains = false → held j u l))
    ∧ (s.up → still → w ≠ 32 → m' ≠ 32 →
        ∀ c ∈ [Instr.tickEdge dt, .ingressLatch [], .tuDescriptorEnd k, .s2Unlock tj, .lpLoss k true],
          ∃ t t', exec c s = .next t ∧ exec (write w a v) t = .next t' ∧ exec c later = exec (write m' a' v') t')
    ∧ (¬s.up → ∀ c ∈ [it, Instr.tickEdge dt, Instr.ingressLatch [], Instr.marketAccess m x (some v) 0 0,
        Instr.taiSecond], Does c s d [] id)

/-- O55. The time up to an edge counts on at RATE, in steps of 8 periods while COARSE = 1, less the periods that commands
since the last edge have counted already. Where no edge is delivered (stage 2 is not locked and the fallback does not
run, or has no source left; a family change waits; HUSH depth 3) nothing else changes within a second. An edge counts
the tick and, without an exception, the media clock, and the record of the engines' writes starts afresh; a gated edge
only counts and clocks. The ingress latch posts the Board operations that were queued before the edge, lets the held
ones into the queues, and publishes 0 on every network channel without a stream and on the channels of local ports
that are OFF; while edges are gated it publishes nothing. No access waits behind a held Board write; RegisterWriteRow
says how those go on. The model's choices: TIME counts on at edges, less what commands counted before
(notes/assumptions/43); no edge without a lock and REF156 (notes/assumptions/29); gated edges (notes/assumptions/36);
the order of the edge's work (notes/assumptions/40). -/
def Obligations.TickRows : Prop :=
  ∀ (s : State) (dt : BitVec 16) (l : List LocSample) (c : Nat) (q : Nat) (o : BoardOp) (held : List BoardOp), s.up → s.dev.boardHeld = [] →
    let d := s.dev
    let K := (2 ^ 34 + sfld d F.TIME_RATE_RATE 0).toNat
    let U : Nat := 1000000000 * 2 ^ 32
    let gone := dt.toNat - d.time.ahead
    let coarse := fld d F.TIME_CTRL_COARSE 0 = 1
    let count := d.time.fifth + (if coarse then (d.time.sub + gone) / 8 * 8 else gone) * K
    let frac := d.time.frac + count / 5
    let time : Time :=
      { d.time with
        sec := (d.time.sec + frac / U) % 2 ^ 48, frac := frac % U, fifth := count % 5
        sub := if coarse then (d.time.sub + gone) % 8 else 0
        ahead := d.time.ahead - dt.toNat }
    let gov : Gov :=
      if d.gov.settle = 0 then d.gov
      else if d.gov.settle ≤ gone then { d.gov with settle := 0, raised := false } else { d.gov with settle := d.gov.settle - gone }
    let within := frac < U
    let links := (List.range 4).map F.PORT_STAT_LINK.addr
    let fallback := fld d F.MCS_STAT_TICKSRC 0 ≠ 0 ∧ (fld d F.LP_STAT_STATE 0 = 2 ∨ d.mcs.refAbsent = false)
    let source := (fld d F.MCS_STAT_S2LOCK 0 = 1 ∨ fallback) ∧ d.mcs.change ≠ 3 ∧ (d.house.gated = false ∨ d.house.depth ≠ 3)
    let calm := d.mcs.change = 0 ∧ d.mcs.realign = 0 ∧ d.mcs.acq ≠ 3 ∧ d.mcs.back = false
    let outputs := fld d F.MCS_MCLK_EN 0 + 2 * fld d F.MCS_MCLK_EN 1 + 4 * fld d F.MCS_MCLK_EN 2 + 8 * fld d F.MCS_MCLK_EN 3
    let noCue := fld d F.CUE_STAGE_LOADED 0 = 0 ∧ ∀ n < 64, fld d F.CUEN_STATE_STATE n = 0
    let one := d.bdue = [(q, [o])] ∧ d.bheld = [(q, held)] ∧ q < 23 ∧ c < 65536 ∧ o.base < 65536
    let k := (c + 65536 - o.base) % 65536
    let bit : Bool :=
      if k < 32 ∧ o.mask.getLsbD k then
        match o.op with
        | 1 => true
        | 2 => false
        | 3 => !Tab.get false d.brd c
        | _ => o.val.getLsbD k
      else Tab.get false d.brd c
    let room := 64 - (Tab.get [] d.bq q).length
    (¬source → Gives (.tickEdge dt) s fun t => t.dev.time = time ∧ t.dev.tick = d.tick ∧ t.dev.mc = d.mc)
    ∧ (within → ¬source → Gives (.tickEdge dt) s fun t =>
      SameRegs links d t.dev ∧ { t.dev with ctl := d.ctl } = { d with time := time, gov := gov } ∧ t.sec = s.sec ∧ t.pending = s.pending)
    ∧ (within → source → calm → d.house.gated = true → d.house.trans ≠ 4 → Gives (.tickEdge dt) s fun t =>
      SameRegs links d t.dev
        ∧ { t.dev with ctl := d.ctl } = { d with time := time, gov := gov, tick := d.tick + 1, mc := d.mc + 1,
                                                 mcs := { d.mcs with mclkOn := BitVec.ofNat 4 outputs } }
        ∧ t.sec = s.sec ∧ t.pending = s.pending)
    ∧ (source → d.house.gated = false → Gives (.tickEdge dt) s fun t =>
      t.dev.tick = d.tick + 1 ∧ t.dev.time = time ∧ t.dev.wrote = [] ∧ t.sec = s.sec ∧ t.pending = s.pending
        ∧ (calm → noCue → d.house.trans ≠ 4 → t.dev.mc = d.mc + 1))
    ∧ (one → Gives (.ingressLatch l) s fun t =>
      Tab.get false t.dev.brd c = bit ∧ t.dev.bdue = []
        ∧ Tab.get [] t.dev.bq q = Tab.get [] d.bq q ++ held.take room ∧ Tab.get [] t.dev.bheld q = held.drop room
        ∧ t.dev.tick = d.tick ∧ t.dev.mc = d.mc ∧ t.sec = s.sec ∧ t.pending = s.pending)
    ∧ (d.house.gated = false → c < 8192 → d.rx = [] → Gives (.ingressLatch l) s fun t =>
      Tab.get 0 t.dev.ingressPub c = 0 ∧ Tab.get 0 t.dev.ingressFl c = 0)
    ∧ (d.house.gated = false → c < 16 → q < 32 → locStatus d c = 0 → Gives (.ingressLatch l) s fun t =>
      Tab.get 0 t.dev.ingressPub (8192 + 32 * c + q) = 0)
    ∧ (d.house.gated = true → (∀ u < 2, (Tab.get {} d.tus u : Tu).waiting = []) → (∀ x < 2, (Tab.get {} d.tbs x : Tb).later = []) →
      Gives (.ingressLatch l) s fun t =>
      t.dev.mkt = d.mkt ∧ t.dev.ingressPub = d.ingressPub ∧ t.dev.ingressFl = d.ingressFl ∧ t.dev.ctl = d.ctl
        ∧ t.sec = s.sec ∧ t.pending = s.pending)

/-- O56. Every well-formed command that is an Ikimal word, under every value of its condition, operands and reserved bits,
is what its word decodes to; and every one of the 2^32 words decodes to a well-formed command whose word it is. The
table of operations gives its rows no bits, so no word of the table spells a command. -/
def Obligations.WordsRoundTrip : Prop :=
  (∀ (i : Instr) (h : Hdr) (w : W32), i.wf = true → i.hdr = some h → encodeWord i = some w → decodeWord h w = i)
  ∧ (∀ (h : Hdr) (w : W32), (decodeWord h w).wf = true ∧ encodeWord (decodeWord h w) = some w)
  ∧ ∀ n w : Nat, decodeTableWord n w = none

/-- O57. The spec's worked encodings MOVI, MOVU and the duet, under P0 and not, and words of every layout written out
field by field; a long word with condition 15, one with a reserved bit set and an unassigned opcode decode to what
they are. -/
def Obligations.WordsFromTheSpec : Prop :=
  ∀ h : Hdr, h.cond = 0 → h.rsv = 0 →
    decodeWord h 0x0124DC31 = .movi h 9 0x5C31
    ∧ decodeWord h 0x01349500 = .movu h 9 0x054
    ∧ decodeWord h 0x80850CE2 = .duet h 1 0x014 6 0xE2
    ∧ decodeWord h 0xD0850CE2 = .duet { h with cond := 5 } 1 0x014 6 0xE2
    ∧ decodeWord h 0x0#32 = .nop h
    ∧ decodeWord h (0#1 ++ 0#4 ++ 0x01#7 ++ 1#5 ++ 2#5 ++ 3#5 ++ 0#5) = .add h 1 2 (.reg 3)
    ∧ decodeWord h (0#1 ++ 0#4 ++ 0x15#7 ++ 1#5 ++ 2#5 ++ 0x3FF#10) = .sub h 1 2 (.imm 0x3FF)
    ∧ decodeWord h (0#1 ++ 0#4 ++ 0x1B#7 ++ 1#5 ++ 2#5 ++ 0#5 ++ 23#5) = .asr h 1 2 (.imm 23)
    ∧ decodeWord h (0#1 ++ 0#4 ++ 0x29#7 ++ 3#2 ++ 4#5 ++ 5#5 ++ 1#1 ++ 0#7) = .mac h 3 4 5 true
    ∧ decodeWord h (0#1 ++ 0#4 ++ 0x38#7 ++ 6#5 ++ 40#6 ++ 0#9) = .mfs h 6 40
    ∧ decodeWord h (0#1 ++ 0#4 ++ 0x42#7 ++ 7#5 ++ 8#5 ++ 1#2 ++ 0x80#8) = .ld h 2 7 8 1 0x80
    ∧ decodeWord h (0#1 ++ 0#4 ++ 0x53#7 ++ 7#5 ++ 8#5 ++ 9#10) = .ldw h 7 (.imm (3#2 ++ 9#10) 8)
    ∧ decodeWord h (0#1 ++ 0#4 ++ 0x5C#7 ++ 2#3 ++ 1#2 ++ 0x1234#15) = .bmov h 2 (.imm 1 0x1234)
    ∧ decodeWord h (0#1 ++ 0#4 ++ 0x6B#7 ++ 1#5 ++ 2#5 ++ 0x005#10) = .dyn h 1 2 (.imm 0x405)
    ∧ decodeWord h (0#1 ++ 0#4 ++ 0x6D#7 ++ 2#2 ++ 1#1 ++ 0x1FF#9 ++ 0#8) = .collect h 2 true 0x1FF
    ∧ decodeWord h (0#1 ++ 0#4 ++ 0x74#7 ++ 0x00A#12 ++ 3#8) = .loop h 0x00A 3
    ∧ decodeWord h 0x7F000000 = .bra { h with cond := 15 } 0
    ∧ decodeWord h 0x01000001 = .abs { h with rsv := 1 } 0 0
    ∧ decodeWord h 0x0FF00000 = .unassigned { h with cond := 1 } 0x7F 0

/-- O58. With a command at the front of the queue a step is that command run on the state with the rest of the queue. That
commands come one at a time, from a queue, is the model's choice (notes/assumptions/1), and so is that nothing happens
on an empty queue and that the table, which gives no row any bits, spells no command (notes/assumptions/3). -/
def Obligations.QueueStep : Prop :=
  (∀ (s : State) (c : Instr) (rest : List Instr), step { s with pending := c :: rest } = exec c { s with pending := rest })
  ∧ (∀ s : State, s.pending = [] → step s = .next s)
  ∧ ∀ (s : State) (n w : Nat), s.withFetchWord n w = s

/-- O59. The vault and the prompt book list their words at strictly rising addresses and none that reads as an unlisted
word does; whatever command stands in front, a step keeps this, so equal secure memories are equal data. A command
leaves the queue alone, so a step leaves the rest of the queue, in order. Every command completes, in every state, and
so does every step. -/
def Obligations.EveryStep : Prop :=
  (∀ s t : State, s.secWf = true → step s = .next t → t.secWf = true)
  ∧ (∀ (i : Instr) (s t : State), exec i s = .next t → t.pending = s.pending)
  ∧ (∀ s t : State, step s = .next t → t.pending = s.pending.tail)
  ∧ (∀ s : State, ∃ t, step s = .next t)
  ∧ ∀ (i : Instr) (s : State), ∃ t, exec i s = .next t

/-- O60. After reset every field of every register table reads its Reset value, in its live copy and in its next copy; MC
is 0, no tick edge has come, and every core's registers, accumulators, predicates, loop stack, RPC, BE and local bits
are 0 or empty, with CWP 0 and RES 3. No command waits and the secure memories are in canonical form. For the cores of
the engines, whose values at reset the spec gives from the first tick edge on only (notes/assumptions/4), and for the
empty queue (notes/assumptions/3) this is the model's choice. -/
def Obligations.ResetState : Prop :=
  State.reset.pending = [] ∧ State.reset.secWf = true ∧ State.reset.dev.mc = 0 ∧ State.reset.dev.ticking = false
  ∧ (∀ (a : Nat) (r : RegRow), RegMap.lookup a = some r → ∀ f ∈ r.fields,
      bits (rd State.reset.dev a).toNat f.hi f.lo = f.rst ∧ bits (nrd State.reset.dev a).toNat f.hi f.lo = f.rst)
  ∧ (∀ a : Nat, RegMap.lookup a = none → rd State.reset.dev a = 0)
  ∧ (∀ c : Nat, let k := core State.reset.dev c
      (∀ r, k.x r = 0) ∧ k.acc = [] ∧ k.preds = 0 ∧ k.st = 0 ∧ k.lk = 0 ∧ k.loops = [] ∧ k.rpc = 0 ∧ k.be = 0 ∧ k.bk = []
        ∧ k.cwp = 0 ∧ k.res = 3 ∧ k.loc = [] ∧ k.pc = 0)
  ∧ fld State.reset.dev F.TICK_RATE_RATE 0 = 1 ∧ fld State.reset.dev F.PWR_GOV_START_VSTART 0 = 850
end

