-- ==== Sys2Proof/Laws/Tab.lean ====
section
/-!
SUPPORT. The laws of sparse storage: what a key reads after a write, and that every operation keeps the canonical form.
-/
namespace Sys2Proof.Machine

variable {α : Type}

/-! ## Reading after writing -/

theorem Tab.get_put_same (d : α) (t : Tab α) (k : Nat) (v : α) : Tab.get d (Tab.put t k v) k = v := by
  induction t with
  | nil => simp [Tab.put, Tab.get]
  | cons e t ih =>
    obtain ⟨k', v'⟩ := e
    unfold Tab.put
    split
    · simp [Tab.get]
    · split
      · simp [Tab.get]
      · rename_i h; simp [Tab.get, h, ih]

theorem Tab.get_put_other (d : α) (t : Tab α) {k j : Nat} (v : α) (h : j ≠ k) :
    Tab.get d (Tab.put t k v) j = Tab.get d t j := by
  induction t with
  | nil => simp [Tab.put, Tab.get, h]
  | cons e t ih =>
    obtain ⟨k', v'⟩ := e
    unfold Tab.put
    split
    · simp [Tab.get, h]
    · split
      · rename_i hk; subst hk; simp [Tab.get, h]
      · simp [Tab.get, ih]

theorem Tab.get_drop_same (d : α) (t : Tab α) (k : Nat) : Tab.get d (Tab.drop t k) k = d := by
  induction t with
  | nil => rfl
  | cons e t ih =>
    obtain ⟨k', v'⟩ := e
    unfold Tab.drop
    split
    · exact ih
    · rename_i h; simp [Tab.get, h, ih]

theorem Tab.get_drop_other (d : α) (t : Tab α) {k j : Nat} (h : j ≠ k) :
    Tab.get d (Tab.drop t k) j = Tab.get d t j := by
  induction t with
  | nil => rfl
  | cons e t ih =>
    obtain ⟨k', v'⟩ := e
    unfold Tab.drop
    split
    · rename_i hk; subst hk; simp [Tab.get, h, ih]
    · simp [Tab.get, ih]

/-- A key reads as what was last written to it. -/
@[simp] theorem Tab.get_set_same [DecidableEq α] (d : α) (t : Tab α) (k : Nat) (v : α) :
    Tab.get d (Tab.set d t k v) k = v := by
  unfold Tab.set
  split
  · rename_i h; rw [h]; exact Tab.get_drop_same d t k
  · exact Tab.get_put_same d t k v

/-- A write leaves every other key as it was, read under any default. -/
theorem Tab.get_set_other [DecidableEq α] (d e : α) (t : Tab α) {k j : Nat} (v : α) (h : j ≠ k) :
    Tab.get e (Tab.set d t k v) j = Tab.get e t j := by
  unfold Tab.set
  split
  · exact Tab.get_drop_other e t h
  · exact Tab.get_put_other e t v h

/-- Both laws at once. -/
theorem Tab.get_set [DecidableEq α] (d : α) (t : Tab α) (k j : Nat) (v : α) :
    Tab.get d (Tab.set d t k v) j = if j = k then v else Tab.get d t j := by
  split
  · rename_i h; subst h; simp
  · rename_i h; exact Tab.get_set_other d d t v h

@[simp] theorem Tab.get_upd_same [DecidableEq α] (d : α) (t : Tab α) (k : Nat) (f : α → α) :
    Tab.get d (Tab.upd d t k f) k = f (Tab.get d t k) := by simp [Tab.upd]

theorem Tab.get_upd_other [DecidableEq α] (d e : α) (t : Tab α) {k j : Nat} (f : α → α) (h : j ≠ k) :
    Tab.get e (Tab.upd d t k f) j = Tab.get e t j := Tab.get_set_other d e t _ h

@[simp] theorem Tab.get_nil (d : α) (k : Nat) : Tab.get d [] k = d := rfl

/-- A cleared range reads as the default; every other key is left. -/
theorem Tab.get_clear (d : α) (t : Tab α) (lo hi k : Nat) :
    Tab.get d (Tab.clear t lo hi) k = if lo ≤ k ∧ k < hi then d else Tab.get d t k := by
  induction t with
  | nil => simp [Tab.clear, Tab.get]
  | cons e t ih =>
    obtain ⟨k', v'⟩ := e
    unfold Tab.clear at ih ⊢
    rw [List.filter_cons]
    by_cases hin : lo ≤ k' ∧ k' < hi
    · have : (!(decide (lo ≤ k') && decide (k' < hi))) = false := by simp [hin]
      simp only [this, Bool.false_eq_true, if_false, ih]
      by_cases hk : k = k'
      · subst hk; simp [hin]
      · simp [Tab.get, hk]
    · have : (!(decide (lo ≤ k') && decide (k' < hi))) = true := by
        simp only [Bool.not_eq_true', Bool.and_eq_false_iff, decide_eq_false_iff_not]; omega
      simp only [this, if_true, Tab.get, ih]
      by_cases hk : k = k'
      · subst hk; simp [hin]
      · simp [hk]

/-! ## The canonical form -/

theorem Tab.wf_cons [DecidableEq α] {d : Nat → α} {k : Nat} {v : α} {t : Tab α} :
    Tab.wf d ((k, v) :: t) = true ↔ Tab.above k t = true ∧ v ≠ d k ∧ Tab.wf d t = true := by
  simp [Tab.wf, Bool.and_eq_true, and_assoc]

theorem Tab.above_trans {lo k : Nat} (h : lo ≤ k) : ∀ {t : Tab α}, Tab.above k t = true → Tab.above lo t = true
  | [], _ => rfl
  | (_, _) :: _, ht => by simp [Tab.above] at ht ⊢; omega

theorem Tab.above_put {lo k : Nat} (v : α) (h : lo < k) : ∀ {t : Tab α}, Tab.above lo t = true →
    Tab.above lo (Tab.put t k v) = true
  | [], _ => by simp [Tab.put, Tab.above, h]
  | (k', v') :: t, ht => by
    unfold Tab.put
    split
    · simp [Tab.above, h]
    · split
      · simp [Tab.above, h]
      · simpa [Tab.above] using ht

theorem Tab.wf_put [DecidableEq α] {d : Nat → α} {k : Nat} {v : α} (hv : v ≠ d k) :
    ∀ {t : Tab α}, Tab.wf d t = true → Tab.wf d (Tab.put t k v) = true
  | [], _ => by simp [Tab.put, Tab.wf, Tab.above, hv]
  | (k', v') :: t, ht => by
    obtain ⟨ha, hv', hw⟩ := Tab.wf_cons.1 ht
    unfold Tab.put
    split
    · rename_i h
      exact Tab.wf_cons.2 ⟨by simp [Tab.above, h], hv, ht⟩
    · split
      · rename_i h; subst h
        exact Tab.wf_cons.2 ⟨ha, hv, hw⟩
      · rename_i h1 h2
        exact Tab.wf_cons.2 ⟨Tab.above_put v (by omega) ha, hv', Tab.wf_put hv hw⟩

/-- Keeping only some entries keeps the canonical form. -/
theorem Tab.wf_filter [DecidableEq α] {d : Nat → α} (p : Nat × α → Bool) :
    ∀ {t : Tab α}, Tab.wf d t = true →
      Tab.wf d (t.filter p) = true ∧ ∀ lo, Tab.above lo t = true → Tab.above lo (t.filter p) = true
  | [], _ => ⟨rfl, fun _ h => h⟩
  | (k', v') :: t, ht => by
    obtain ⟨ha, hv', hw⟩ := Tab.wf_cons.1 ht
    obtain ⟨h1, h2⟩ := Tab.wf_filter p hw
    rw [List.filter_cons]
    split
    · exact ⟨Tab.wf_cons.2 ⟨h2 _ ha, hv', h1⟩, fun lo h => h⟩
    · exact ⟨h1, fun lo h => h2 lo (Tab.above_trans (by simp [Tab.above] at h; omega) ha)⟩

theorem Tab.drop_eq_filter (t : Tab α) (k : Nat) : Tab.drop t k = t.filter fun e => decide (k ≠ e.1) := by
  induction t with
  | nil => rfl
  | cons e t ih =>
    obtain ⟨k', v'⟩ := e
    unfold Tab.drop
    rw [List.filter_cons]
    by_cases h : k = k'
    · subst h; simp [ih]
    · simp [h, ih]

/-- A write keeps the canonical form. -/
theorem Tab.wf_set [DecidableEq α] {d : Nat → α} {t : Tab α} (k : Nat) (v : α) (h : Tab.wf d t = true) :
    Tab.wf d (Tab.set (d k) t k v) = true := by
  unfold Tab.set
  split
  · rw [Tab.drop_eq_filter]; exact (Tab.wf_filter _ h).1
  · rename_i hv; exact Tab.wf_put hv h

/-- A change of one key keeps the canonical form. -/
theorem Tab.wf_upd [DecidableEq α] {d : Nat → α} {t : Tab α} (k : Nat) (f : α → α) (h : Tab.wf d t = true) :
    Tab.wf d (Tab.upd (d k) t k f) = true := Tab.wf_set k _ h

/-- Clearing a range keeps the canonical form. -/
theorem Tab.wf_clear [DecidableEq α] {d : Nat → α} {t : Tab α} (lo hi : Nat) (h : Tab.wf d t = true) :
    Tab.wf d (Tab.clear t lo hi) = true := (Tab.wf_filter _ h).1

/-- A write to a memory keeps its canonical form. -/
theorem Memory.wf_set [DecidableEq α] {d : α} {t : Tab α} (k : Nat) (v : α) (h : Memory.wf d t = true) :
    Memory.wf d (Tab.set d t k v) = true := Tab.wf_set (d := fun _ => d) k v h

/-- Clearing a range of a memory keeps its canonical form. -/
theorem Memory.wf_clear [DecidableEq α] {d : α} {t : Tab α} (lo hi : Nat) (h : Memory.wf d t = true) :
    Memory.wf d (Tab.clear t lo hi) = true := Tab.wf_clear lo hi h

end Sys2Proof.Machine
end

