-- ==== Sys2Proof/Laws/State.lean ====
section
/-!
SUPPORT. What the named updates of State leave alone, field by field, and what a register reads after a write.
-/
namespace Sys2Proof.Machine

/-! ## State -/

@[simp] theorem State.onDev_dev (f : Dev → Dev) (s : State) : (s.onDev f).dev = f s.dev := rfl
@[simp] theorem State.onDev_sec (f : Dev → Dev) (s : State) : (s.onDev f).sec = s.sec := rfl
@[simp] theorem State.onDev_pending (f : Dev → Dev) (s : State) : (s.onDev f).pending = s.pending := rfl

/-- While the device is not HALTED a change happens (R402). -/
theorem State.whileUp_run {s : State} (h : halted s.dev = false) (f : State → State) : s.whileUp f = f s := by
  simp [State.whileUp, h]

/-- While the device is HALTED nothing but HOUSE changes anything (R402). -/
theorem State.whileUp_halted {s : State} (h : halted s.dev = true) (f : State → State) : s.whileUp f = s := by
  simp [State.whileUp, h]

/-- While the device is not HALTED a change of the device happens (R402). -/
theorem State.act_run {s : State} (h : halted s.dev = false) (f : Dev → Dev) : s.act f = s.onDev f := by
  simp [State.act, State.whileUp, h]

@[simp] theorem State.act_sec (f : Dev → Dev) (s : State) : (s.act f).sec = s.sec := by
  unfold State.act State.whileUp; split <;> rfl
@[simp] theorem State.act_pending (f : Dev → Dev) (s : State) : (s.act f).pending = s.pending := by
  unfold State.act State.whileUp; split <;> rfl

/-! ## Register words -/

@[simp] theorem wr_ctl (d : Dev) (a : Nat) (v : W24) : (wr d a v).ctl = Tab.set (rstOf a) d.ctl a v := rfl
@[simp] theorem nwr_nxt (d : Dev) (a : Nat) (v : W24) : (nwr d a v).nxt = Tab.set (rstOf a) d.nxt a v := rfl

/-! ## What `wr` leaves alone -/

@[simp] theorem wr_nxt (d : Dev) (a : Nat) (v : W24) : (wr d a v).nxt = d.nxt := rfl
@[simp] theorem wr_cores (d : Dev) (a : Nat) (v : W24) : (wr d a v).cores = d.cores := rfl
@[simp] theorem wr_mkt (d : Dev) (a : Nat) (v : W24) : (wr d a v).mkt = d.mkt := rfl
@[simp] theorem wr_ecc (d : Dev) (a : Nat) (v : W24) : (wr d a v).ecc = d.ecc := rfl
@[simp] theorem wr_past (d : Dev) (a : Nat) (v : W24) : (wr d a v).past = d.past := rfl
@[simp] theorem wr_wrote (d : Dev) (a : Nat) (v : W24) : (wr d a v).wrote = d.wrote := rfl
@[simp] theorem wr_pkt (d : Dev) (a : Nat) (v : W24) : (wr d a v).pkt = d.pkt := rfl
@[simp] theorem wr_pecc (d : Dev) (a : Nat) (v : W24) : (wr d a v).pecc = d.pecc := rfl
@[simp] theorem wr_pscrub (d : Dev) (a : Nat) (v : W24) : (wr d a v).pscrub = d.pscrub := rfl
@[simp] theorem wr_stage (d : Dev) (a : Nat) (v : W24) : (wr d a v).stage = d.stage := rfl
@[simp] theorem wr_wings (d : Dev) (a : Nat) (v : W24) : (wr d a v).wings = d.wings := rfl
@[simp] theorem wr_prog (d : Dev) (a : Nat) (v : W24) : (wr d a v).prog = d.prog := rfl
@[simp] theorem wr_gecc (d : Dev) (a : Nat) (v : W24) : (wr d a v).gecc = d.gecc := rfl
@[simp] theorem wr_brd (d : Dev) (a : Nat) (v : W24) : (wr d a v).brd = d.brd := rfl
@[simp] theorem wr_bq (d : Dev) (a : Nat) (v : W24) : (wr d a v).bq = d.bq := rfl
@[simp] theorem wr_bdue (d : Dev) (a : Nat) (v : W24) : (wr d a v).bdue = d.bdue := rfl
@[simp] theorem wr_bheld (d : Dev) (a : Nat) (v : W24) : (wr d a v).bheld = d.bheld := rfl
@[simp] theorem wr_led (d : Dev) (a : Nat) (v : W24) : (wr d a v).led = d.led := rfl
@[simp] theorem wr_tallies (d : Dev) (a : Nat) (v : W24) : (wr d a v).tallies = d.tallies := rfl
@[simp] theorem wr_ovr (d : Dev) (a : Nat) (v : W24) : (wr d a v).ovr = d.ovr := rfl
@[simp] theorem wr_su (d : Dev) (a : Nat) (v : W24) : (wr d a v).su = d.su := rfl
@[simp] theorem wr_tus (d : Dev) (a : Nat) (v : W24) : (wr d a v).tus = d.tus := rfl
@[simp] theorem wr_col (d : Dev) (a : Nat) (v : W24) : (wr d a v).col = d.col := rfl
@[simp] theorem wr_buses (d : Dev) (a : Nat) (v : W24) : (wr d a v).buses = d.buses := rfl
@[simp] theorem wr_egress (d : Dev) (a : Nat) (v : W24) : (wr d a v).egress = d.egress := rfl
@[simp] theorem wr_latched (d : Dev) (a : Nat) (v : W24) : (wr d a v).latched = d.latched := rfl
@[simp] theorem wr_dus (d : Dev) (a : Nat) (v : W24) : (wr d a v).dus = d.dus := rfl
@[simp] theorem wr_dyns (d : Dev) (a : Nat) (v : W24) : (wr d a v).dyns = d.dyns := rfl
@[simp] theorem wr_ramps (d : Dev) (a : Nat) (v : W24) : (wr d a v).ramps = d.ramps := rfl
@[simp] theorem wr_cue (d : Dev) (a : Nat) (v : W24) : (wr d a v).cue = d.cue := rfl
@[simp] theorem wr_stalls (d : Dev) (a : Nat) (v : W24) : (wr d a v).stalls = d.stalls := rfl
@[simp] theorem wr_gov (d : Dev) (a : Nat) (v : W24) : (wr d a v).gov = d.gov := rfl
@[simp] theorem wr_time (d : Dev) (a : Nat) (v : W24) : (wr d a v).time = d.time := rfl
@[simp] theorem wr_mcs (d : Dev) (a : Nat) (v : W24) : (wr d a v).mcs = d.mcs := rfl
@[simp] theorem wr_ports (d : Dev) (a : Nat) (v : W24) : (wr d a v).ports = d.ports := rfl
@[simp] theorem wr_rings (d : Dev) (a : Nat) (v : W24) : (wr d a v).rings = d.rings := rfl
@[simp] theorem wr_rx (d : Dev) (a : Nat) (v : W24) : (wr d a v).rx = d.rx := rfl
@[simp] theorem wr_tx (d : Dev) (a : Nat) (v : W24) : (wr d a v).tx = d.tx := rfl
@[simp] theorem wr_locs (d : Dev) (a : Nat) (v : W24) : (wr d a v).locs = d.locs := rfl
@[simp] theorem wr_locOut (d : Dev) (a : Nat) (v : W24) : (wr d a v).locOut = d.locOut := rfl
@[simp] theorem wr_tbs (d : Dev) (a : Nat) (v : W24) : (wr d a v).tbs = d.tbs := rfl
@[simp] theorem wr_moves (d : Dev) (a : Nat) (v : W24) : (wr d a v).moves = d.moves := rfl
@[simp] theorem wr_hostOut (d : Dev) (a : Nat) (v : W24) : (wr d a v).hostOut = d.hostOut := rfl
@[simp] theorem wr_msixMask (d : Dev) (a : Nat) (v : W24) : (wr d a v).msixMask = d.msixMask := rfl
@[simp] theorem wr_msixPba (d : Dev) (a : Nat) (v : W24) : (wr d a v).msixPba = d.msixPba := rfl
@[simp] theorem wr_msixTab (d : Dev) (a : Nat) (v : W24) : (wr d a v).msixTab = d.msixTab := rfl
@[simp] theorem wr_msixSent (d : Dev) (a : Nat) (v : W24) : (wr d a v).msixSent = d.msixSent := rfl
@[simp] theorem wr_house (d : Dev) (a : Nat) (v : W24) : (wr d a v).house = d.house := rfl
@[simp] theorem wr_mc (d : Dev) (a : Nat) (v : W24) : (wr d a v).mc = d.mc := rfl
@[simp] theorem wr_mcLatch (d : Dev) (a : Nat) (v : W24) : (wr d a v).mcLatch = d.mcLatch := rfl
@[simp] theorem wr_tick (d : Dev) (a : Nat) (v : W24) : (wr d a v).tick = d.tick := rfl
@[simp] theorem wr_ticking (d : Dev) (a : Nat) (v : W24) : (wr d a v).ticking = d.ticking := rfl
@[simp] theorem wr_tail (d : Dev) (a : Nat) (v : W24) : (wr d a v).tail = d.tail := rfl
@[simp] theorem wr_wliveApply (d : Dev) (a : Nat) (v : W24) : (wr d a v).wliveApply = d.wliveApply := rfl
@[simp] theorem wr_wliveHeld (d : Dev) (a : Nat) (v : W24) : (wr d a v).wliveHeld = d.wliveHeld := rfl
@[simp] theorem wr_boardHeld (d : Dev) (a : Nat) (v : W24) : (wr d a v).boardHeld = d.boardHeld := rfl
@[simp] theorem wr_pcie (d : Dev) (a : Nat) (v : W24) : (wr d a v).pcie = d.pcie := rfl
@[simp] theorem wr_ingressPub (d : Dev) (a : Nat) (v : W24) : (wr d a v).ingressPub = d.ingressPub := rfl
@[simp] theorem wr_ingressFl (d : Dev) (a : Nat) (v : W24) : (wr d a v).ingressFl = d.ingressFl := rfl
@[simp] theorem wr_fresh (d : Dev) (a : Nat) (v : W24) : (wr d a v).fresh = d.fresh := rfl

/-! ## What `nwr` leaves alone -/

@[simp] theorem nwr_ctl (d : Dev) (a : Nat) (v : W24) : (nwr d a v).ctl = d.ctl := rfl
@[simp] theorem nwr_cores (d : Dev) (a : Nat) (v : W24) : (nwr d a v).cores = d.cores := rfl
@[simp] theorem nwr_mkt (d : Dev) (a : Nat) (v : W24) : (nwr d a v).mkt = d.mkt := rfl
@[simp] theorem nwr_ecc (d : Dev) (a : Nat) (v : W24) : (nwr d a v).ecc = d.ecc := rfl
@[simp] theorem nwr_past (d : Dev) (a : Nat) (v : W24) : (nwr d a v).past = d.past := rfl
@[simp] theorem nwr_wrote (d : Dev) (a : Nat) (v : W24) : (nwr d a v).wrote = d.wrote := rfl
@[simp] theorem nwr_pkt (d : Dev) (a : Nat) (v : W24) : (nwr d a v).pkt = d.pkt := rfl
@[simp] theorem nwr_pecc (d : Dev) (a : Nat) (v : W24) : (nwr d a v).pecc = d.pecc := rfl
@[simp] theorem nwr_pscrub (d : Dev) (a : Nat) (v : W24) : (nwr d a v).pscrub = d.pscrub := rfl
@[simp] theorem nwr_stage (d : Dev) (a : Nat) (v : W24) : (nwr d a v).stage = d.stage := rfl
@[simp] theorem nwr_wings (d : Dev) (a : Nat) (v : W24) : (nwr d a v).wings = d.wings := rfl
@[simp] theorem nwr_prog (d : Dev) (a : Nat) (v : W24) : (nwr d a v).prog = d.prog := rfl
@[simp] theorem nwr_gecc (d : Dev) (a : Nat) (v : W24) : (nwr d a v).gecc = d.gecc := rfl
@[simp] theorem nwr_brd (d : Dev) (a : Nat) (v : W24) : (nwr d a v).brd = d.brd := rfl
@[simp] theorem nwr_bq (d : Dev) (a : Nat) (v : W24) : (nwr d a v).bq = d.bq := rfl
@[simp] theorem nwr_bdue (d : Dev) (a : Nat) (v : W24) : (nwr d a v).bdue = d.bdue := rfl
@[simp] theorem nwr_bheld (d : Dev) (a : Nat) (v : W24) : (nwr d a v).bheld = d.bheld := rfl
@[simp] theorem nwr_led (d : Dev) (a : Nat) (v : W24) : (nwr d a v).led = d.led := rfl
@[simp] theorem nwr_tallies (d : Dev) (a : Nat) (v : W24) : (nwr d a v).tallies = d.tallies := rfl
@[simp] theorem nwr_ovr (d : Dev) (a : Nat) (v : W24) : (nwr d a v).ovr = d.ovr := rfl
@[simp] theorem nwr_su (d : Dev) (a : Nat) (v : W24) : (nwr d a v).su = d.su := rfl
@[simp] theorem nwr_tus (d : Dev) (a : Nat) (v : W24) : (nwr d a v).tus = d.tus := rfl
@[simp] theorem nwr_col (d : Dev) (a : Nat) (v : W24) : (nwr d a v).col = d.col := rfl
@[simp] theorem nwr_buses (d : Dev) (a : Nat) (v : W24) : (nwr d a v).buses = d.buses := rfl
@[simp] theorem nwr_egress (d : Dev) (a : Nat) (v : W24) : (nwr d a v).egress = d.egress := rfl
@[simp] theorem nwr_latched (d : Dev) (a : Nat) (v : W24) : (nwr d a v).latched = d.latched := rfl
@[simp] theorem nwr_dus (d : Dev) (a : Nat) (v : W24) : (nwr d a v).dus = d.dus := rfl
@[simp] theorem nwr_dyns (d : Dev) (a : Nat) (v : W24) : (nwr d a v).dyns = d.dyns := rfl
@[simp] theorem nwr_ramps (d : Dev) (a : Nat) (v : W24) : (nwr d a v).ramps = d.ramps := rfl
@[simp] theorem nwr_cue (d : Dev) (a : Nat) (v : W24) : (nwr d a v).cue = d.cue := rfl
@[simp] theorem nwr_stalls (d : Dev) (a : Nat) (v : W24) : (nwr d a v).stalls = d.stalls := rfl
@[simp] theorem nwr_gov (d : Dev) (a : Nat) (v : W24) : (nwr d a v).gov = d.gov := rfl
@[simp] theorem nwr_time (d : Dev) (a : Nat) (v : W24) : (nwr d a v).time = d.time := rfl
@[simp] theorem nwr_mcs (d : Dev) (a : Nat) (v : W24) : (nwr d a v).mcs = d.mcs := rfl
@[simp] theorem nwr_ports (d : Dev) (a : Nat) (v : W24) : (nwr d a v).ports = d.ports := rfl
@[simp] theorem nwr_rings (d : Dev) (a : Nat) (v : W24) : (nwr d a v).rings = d.rings := rfl
@[simp] theorem nwr_rx (d : Dev) (a : Nat) (v : W24) : (nwr d a v).rx = d.rx := rfl
@[simp] theorem nwr_tx (d : Dev) (a : Nat) (v : W24) : (nwr d a v).tx = d.tx := rfl
@[simp] theorem nwr_locs (d : Dev) (a : Nat) (v : W24) : (nwr d a v).locs = d.locs := rfl
@[simp] theorem nwr_locOut (d : Dev) (a : Nat) (v : W24) : (nwr d a v).locOut = d.locOut := rfl
@[simp] theorem nwr_tbs (d : Dev) (a : Nat) (v : W24) : (nwr d a v).tbs = d.tbs := rfl
@[simp] theorem nwr_moves (d : Dev) (a : Nat) (v : W24) : (nwr d a v).moves = d.moves := rfl
@[simp] theorem nwr_hostOut (d : Dev) (a : Nat) (v : W24) : (nwr d a v).hostOut = d.hostOut := rfl
@[simp] theorem nwr_msixMask (d : Dev) (a : Nat) (v : W24) : (nwr d a v).msixMask = d.msixMask := rfl
@[simp] theorem nwr_msixPba (d : Dev) (a : Nat) (v : W24) : (nwr d a v).msixPba = d.msixPba := rfl
@[simp] theorem nwr_msixTab (d : Dev) (a : Nat) (v : W24) : (nwr d a v).msixTab = d.msixTab := rfl
@[simp] theorem nwr_msixSent (d : Dev) (a : Nat) (v : W24) : (nwr d a v).msixSent = d.msixSent := rfl
@[simp] theorem nwr_house (d : Dev) (a : Nat) (v : W24) : (nwr d a v).house = d.house := rfl
@[simp] theorem nwr_mc (d : Dev) (a : Nat) (v : W24) : (nwr d a v).mc = d.mc := rfl
@[simp] theorem nwr_mcLatch (d : Dev) (a : Nat) (v : W24) : (nwr d a v).mcLatch = d.mcLatch := rfl
@[simp] theorem nwr_tick (d : Dev) (a : Nat) (v : W24) : (nwr d a v).tick = d.tick := rfl
@[simp] theorem nwr_ticking (d : Dev) (a : Nat) (v : W24) : (nwr d a v).ticking = d.ticking := rfl
@[simp] theorem nwr_tail (d : Dev) (a : Nat) (v : W24) : (nwr d a v).tail = d.tail := rfl
@[simp] theorem nwr_wliveApply (d : Dev) (a : Nat) (v : W24) : (nwr d a v).wliveApply = d.wliveApply := rfl
@[simp] theorem nwr_wliveHeld (d : Dev) (a : Nat) (v : W24) : (nwr d a v).wliveHeld = d.wliveHeld := rfl
@[simp] theorem nwr_boardHeld (d : Dev) (a : Nat) (v : W24) : (nwr d a v).boardHeld = d.boardHeld := rfl
@[simp] theorem nwr_pcie (d : Dev) (a : Nat) (v : W24) : (nwr d a v).pcie = d.pcie := rfl
@[simp] theorem nwr_ingressPub (d : Dev) (a : Nat) (v : W24) : (nwr d a v).ingressPub = d.ingressPub := rfl
@[simp] theorem nwr_ingressFl (d : Dev) (a : Nat) (v : W24) : (nwr d a v).ingressFl = d.ingressFl := rfl
@[simp] theorem nwr_fresh (d : Dev) (a : Nat) (v : W24) : (nwr d a v).fresh = d.fresh := rfl

/-! ## What `setf` leaves alone -/

@[simp] theorem setf_nxt (d : Dev) (f : Fld) (i x : Nat) : (setf d f i x).nxt = d.nxt := rfl
@[simp] theorem setf_cores (d : Dev) (f : Fld) (i x : Nat) : (setf d f i x).cores = d.cores := rfl
@[simp] theorem setf_mkt (d : Dev) (f : Fld) (i x : Nat) : (setf d f i x).mkt = d.mkt := rfl
@[simp] theorem setf_ecc (d : Dev) (f : Fld) (i x : Nat) : (setf d f i x).ecc = d.ecc := rfl
@[simp] theorem setf_past (d : Dev) (f : Fld) (i x : Nat) : (setf d f i x).past = d.past := rfl
@[simp] theorem setf_wrote (d : Dev) (f : Fld) (i x : Nat) : (setf d f i x).wrote = d.wrote := rfl
@[simp] theorem setf_pkt (d : Dev) (f : Fld) (i x : Nat) : (setf d f i x).pkt = d.pkt := rfl
@[simp] theorem setf_pecc (d : Dev) (f : Fld) (i x : Nat) : (setf d f i x).pecc = d.pecc := rfl
@[simp] theorem setf_pscrub (d : Dev) (f : Fld) (i x : Nat) : (setf d f i x).pscrub = d.pscrub := rfl
@[simp] theorem setf_stage (d : Dev) (f : Fld) (i x : Nat) : (setf d f i x).stage = d.stage := rfl
@[simp] theorem setf_wings (d : Dev) (f : Fld) (i x : Nat) : (setf d f i x).wings = d.wings := rfl
@[simp] theorem setf_prog (d : Dev) (f : Fld) (i x : Nat) : (setf d f i x).prog = d.prog := rfl
@[simp] theorem setf_gecc (d : Dev) (f : Fld) (i x : Nat) : (setf d f i x).gecc = d.gecc := rfl
@[simp] theorem setf_brd (d : Dev) (f : Fld) (i x : Nat) : (setf d f i x).brd = d.brd := rfl
@[simp] theorem setf_bq (d : Dev) (f : Fld) (i x : Nat) : (setf d f i x).bq = d.bq := rfl
@[simp] theorem setf_bdue (d : Dev) (f : Fld) (i x : Nat) : (setf d f i x).bdue = d.bdue := rfl
@[simp] theorem setf_bheld (d : Dev) (f : Fld) (i x : Nat) : (setf d f i x).bheld = d.bheld := rfl
@[simp] theorem setf_led (d : Dev) (f : Fld) (i x : Nat) : (setf d f i x).led = d.led := rfl
@[simp] theorem setf_tallies (d : Dev) (f : Fld) (i x : Nat) : (setf d f i x).tallies = d.tallies := rfl
@[simp] theorem setf_ovr (d : Dev) (f : Fld) (i x : Nat) : (setf d f i x).ovr = d.ovr := rfl
@[simp] theorem setf_su (d : Dev) (f : Fld) (i x : Nat) : (setf d f i x).su = d.su := rfl
@[simp] theorem setf_tus (d : Dev) (f : Fld) (i x : Nat) : (setf d f i x).tus = d.tus := rfl
@[simp] theorem setf_col (d : Dev) (f : Fld) (i x : Nat) : (setf d f i x).col = d.col := rfl
@[simp] theorem setf_buses (d : Dev) (f : Fld) (i x : Nat) : (setf d f i x).buses = d.buses := rfl
@[simp] theorem setf_egress (d : Dev) (f : Fld) (i x : Nat) : (setf d f i x).egress = d.egress := rfl
@[simp] theorem setf_latched (d : Dev) (f : Fld) (i x : Nat) : (setf d f i x).latched = d.latched := rfl
@[simp] theorem setf_dus (d : Dev) (f : Fld) (i x : Nat) : (setf d f i x).dus = d.dus := rfl
@[simp] theorem setf_dyns (d : Dev) (f : Fld) (i x : Nat) : (setf d f i x).dyns = d.dyns := rfl
@[simp] theorem setf_ramps (d : Dev) (f : Fld) (i x : Nat) : (setf d f i x).ramps = d.ramps := rfl
@[simp] theorem setf_cue (d : Dev) (f : Fld) (i x : Nat) : (setf d f i x).cue = d.cue := rfl
@[simp] theorem setf_stalls (d : Dev) (f : Fld) (i x : Nat) : (setf d f i x).stalls = d.stalls := rfl
@[simp] theorem setf_gov (d : Dev) (f : Fld) (i x : Nat) : (setf d f i x).gov = d.gov := rfl
@[simp] theorem setf_time (d : Dev) (f : Fld) (i x : Nat) : (setf d f i x).time = d.time := rfl
@[simp] theorem setf_mcs (d : Dev) (f : Fld) (i x : Nat) : (setf d f i x).mcs = d.mcs := rfl
@[simp] theorem setf_ports (d : Dev) (f : Fld) (i x : Nat) : (setf d f i x).ports = d.ports := rfl
@[simp] theorem setf_rings (d : Dev) (f : Fld) (i x : Nat) : (setf d f i x).rings = d.rings := rfl
@[simp] theorem setf_rx (d : Dev) (f : Fld) (i x : Nat) : (setf d f i x).rx = d.rx := rfl
@[simp] theorem setf_tx (d : Dev) (f : Fld) (i x : Nat) : (setf d f i x).tx = d.tx := rfl
@[simp] theorem setf_locs (d : Dev) (f : Fld) (i x : Nat) : (setf d f i x).locs = d.locs := rfl
@[simp] theorem setf_locOut (d : Dev) (f : Fld) (i x : Nat) : (setf d f i x).locOut = d.locOut := rfl
@[simp] theorem setf_tbs (d : Dev) (f : Fld) (i x : Nat) : (setf d f i x).tbs = d.tbs := rfl
@[simp] theorem setf_moves (d : Dev) (f : Fld) (i x : Nat) : (setf d f i x).moves = d.moves := rfl
@[simp] theorem setf_hostOut (d : Dev) (f : Fld) (i x : Nat) : (setf d f i x).hostOut = d.hostOut := rfl
@[simp] theorem setf_msixMask (d : Dev) (f : Fld) (i x : Nat) : (setf d f i x).msixMask = d.msixMask := rfl
@[simp] theorem setf_msixPba (d : Dev) (f : Fld) (i x : Nat) : (setf d f i x).msixPba = d.msixPba := rfl
@[simp] theorem setf_msixTab (d : Dev) (f : Fld) (i x : Nat) : (setf d f i x).msixTab = d.msixTab := rfl
@[simp] theorem setf_msixSent (d : Dev) (f : Fld) (i x : Nat) : (setf d f i x).msixSent = d.msixSent := rfl
@[simp] theorem setf_house (d : Dev) (f : Fld) (i x : Nat) : (setf d f i x).house = d.house := rfl
@[simp] theorem setf_mc (d : Dev) (f : Fld) (i x : Nat) : (setf d f i x).mc = d.mc := rfl
@[simp] theorem setf_mcLatch (d : Dev) (f : Fld) (i x : Nat) : (setf d f i x).mcLatch = d.mcLatch := rfl
@[simp] theorem setf_tick (d : Dev) (f : Fld) (i x : Nat) : (setf d f i x).tick = d.tick := rfl
@[simp] theorem setf_ticking (d : Dev) (f : Fld) (i x : Nat) : (setf d f i x).ticking = d.ticking := rfl
@[simp] theorem setf_tail (d : Dev) (f : Fld) (i x : Nat) : (setf d f i x).tail = d.tail := rfl
@[simp] theorem setf_wliveApply (d : Dev) (f : Fld) (i x : Nat) : (setf d f i x).wliveApply = d.wliveApply := rfl
@[simp] theorem setf_wliveHeld (d : Dev) (f : Fld) (i x : Nat) : (setf d f i x).wliveHeld = d.wliveHeld := rfl
@[simp] theorem setf_boardHeld (d : Dev) (f : Fld) (i x : Nat) : (setf d f i x).boardHeld = d.boardHeld := rfl
@[simp] theorem setf_pcie (d : Dev) (f : Fld) (i x : Nat) : (setf d f i x).pcie = d.pcie := rfl
@[simp] theorem setf_ingressPub (d : Dev) (f : Fld) (i x : Nat) : (setf d f i x).ingressPub = d.ingressPub := rfl
@[simp] theorem setf_ingressFl (d : Dev) (f : Fld) (i x : Nat) : (setf d f i x).ingressFl = d.ingressFl := rfl
@[simp] theorem setf_fresh (d : Dev) (f : Fld) (i x : Nat) : (setf d f i x).fresh = d.fresh := rfl

/-! ## What `setn` leaves alone -/

@[simp] theorem setn_ctl (d : Dev) (f : Fld) (i x : Nat) : (setn d f i x).ctl = d.ctl := rfl
@[simp] theorem setn_cores (d : Dev) (f : Fld) (i x : Nat) : (setn d f i x).cores = d.cores := rfl
@[simp] theorem setn_mkt (d : Dev) (f : Fld) (i x : Nat) : (setn d f i x).mkt = d.mkt := rfl
@[simp] theorem setn_ecc (d : Dev) (f : Fld) (i x : Nat) : (setn d f i x).ecc = d.ecc := rfl
@[simp] theorem setn_past (d : Dev) (f : Fld) (i x : Nat) : (setn d f i x).past = d.past := rfl
@[simp] theorem setn_wrote (d : Dev) (f : Fld) (i x : Nat) : (setn d f i x).wrote = d.wrote := rfl
@[simp] theorem setn_pkt (d : Dev) (f : Fld) (i x : Nat) : (setn d f i x).pkt = d.pkt := rfl
@[simp] theorem setn_pecc (d : Dev) (f : Fld) (i x : Nat) : (setn d f i x).pecc = d.pecc := rfl
@[simp] theorem setn_pscrub (d : Dev) (f : Fld) (i x : Nat) : (setn d f i x).pscrub = d.pscrub := rfl
@[simp] theorem setn_stage (d : Dev) (f : Fld) (i x : Nat) : (setn d f i x).stage = d.stage := rfl
@[simp] theorem setn_wings (d : Dev) (f : Fld) (i x : Nat) : (setn d f i x).wings = d.wings := rfl
@[simp] theorem setn_prog (d : Dev) (f : Fld) (i x : Nat) : (setn d f i x).prog = d.prog := rfl
@[simp] theorem setn_gecc (d : Dev) (f : Fld) (i x : Nat) : (setn d f i x).gecc = d.gecc := rfl
@[simp] theorem setn_brd (d : Dev) (f : Fld) (i x : Nat) : (setn d f i x).brd = d.brd := rfl
@[simp] theorem setn_bq (d : Dev) (f : Fld) (i x : Nat) : (setn d f i x).bq = d.bq := rfl
@[simp] theorem setn_bdue (d : Dev) (f : Fld) (i x : Nat) : (setn d f i x).bdue = d.bdue := rfl
@[simp] theorem setn_bheld (d : Dev) (f : Fld) (i x : Nat) : (setn d f i x).bheld = d.bheld := rfl
@[simp] theorem setn_led (d : Dev) (f : Fld) (i x : Nat) : (setn d f i x).led = d.led := rfl
@[simp] theorem setn_tallies (d : Dev) (f : Fld) (i x : Nat) : (setn d f i x).tallies = d.tallies := rfl
@[simp] theorem setn_ovr (d : Dev) (f : Fld) (i x : Nat) : (setn d f i x).ovr = d.ovr := rfl
@[simp] theorem setn_su (d : Dev) (f : Fld) (i x : Nat) : (setn d f i x).su = d.su := rfl
@[simp] theorem setn_tus (d : Dev) (f : Fld) (i x : Nat) : (setn d f i x).tus = d.tus := rfl
@[simp] theorem setn_col (d : Dev) (f : Fld) (i x : Nat) : (setn d f i x).col = d.col := rfl
@[simp] theorem setn_buses (d : Dev) (f : Fld) (i x : Nat) : (setn d f i x).buses = d.buses := rfl
@[simp] theorem setn_egress (d : Dev) (f : Fld) (i x : Nat) : (setn d f i x).egress = d.egress := rfl
@[simp] theorem setn_latched (d : Dev) (f : Fld) (i x : Nat) : (setn d f i x).latched = d.latched := rfl
@[simp] theorem setn_dus (d : Dev) (f : Fld) (i x : Nat) : (setn d f i x).dus = d.dus := rfl
@[simp] theorem setn_dyns (d : Dev) (f : Fld) (i x : Nat) : (setn d f i x).dyns = d.dyns := rfl
@[simp] theorem setn_ramps (d : Dev) (f : Fld) (i x : Nat) : (setn d f i x).ramps = d.ramps := rfl
@[simp] theorem setn_cue (d : Dev) (f : Fld) (i x : Nat) : (setn d f i x).cue = d.cue := rfl
@[simp] theorem setn_stalls (d : Dev) (f : Fld) (i x : Nat) : (setn d f i x).stalls = d.stalls := rfl
@[simp] theorem setn_gov (d : Dev) (f : Fld) (i x : Nat) : (setn d f i x).gov = d.gov := rfl
@[simp] theorem setn_time (d : Dev) (f : Fld) (i x : Nat) : (setn d f i x).time = d.time := rfl
@[simp] theorem setn_mcs (d : Dev) (f : Fld) (i x : Nat) : (setn d f i x).mcs = d.mcs := rfl
@[simp] theorem setn_ports (d : Dev) (f : Fld) (i x : Nat) : (setn d f i x).ports = d.ports := rfl
@[simp] theorem setn_rings (d : Dev) (f : Fld) (i x : Nat) : (setn d f i x).rings = d.rings := rfl
@[simp] theorem setn_rx (d : Dev) (f : Fld) (i x : Nat) : (setn d f i x).rx = d.rx := rfl
@[simp] theorem setn_tx (d : Dev) (f : Fld) (i x : Nat) : (setn d f i x).tx = d.tx := rfl
@[simp] theorem setn_locs (d : Dev) (f : Fld) (i x : Nat) : (setn d f i x).locs = d.locs := rfl
@[simp] theorem setn_locOut (d : Dev) (f : Fld) (i x : Nat) : (setn d f i x).locOut = d.locOut := rfl
@[simp] theorem setn_tbs (d : Dev) (f : Fld) (i x : Nat) : (setn d f i x).tbs = d.tbs := rfl
@[simp] theorem setn_moves (d : Dev) (f : Fld) (i x : Nat) : (setn d f i x).moves = d.moves := rfl
@[simp] theorem setn_hostOut (d : Dev) (f : Fld) (i x : Nat) : (setn d f i x).hostOut = d.hostOut := rfl
@[simp] theorem setn_msixMask (d : Dev) (f : Fld) (i x : Nat) : (setn d f i x).msixMask = d.msixMask := rfl
@[simp] theorem setn_msixPba (d : Dev) (f : Fld) (i x : Nat) : (setn d f i x).msixPba = d.msixPba := rfl
@[simp] theorem setn_msixTab (d : Dev) (f : Fld) (i x : Nat) : (setn d f i x).msixTab = d.msixTab := rfl
@[simp] theorem setn_msixSent (d : Dev) (f : Fld) (i x : Nat) : (setn d f i x).msixSent = d.msixSent := rfl
@[simp] theorem setn_house (d : Dev) (f : Fld) (i x : Nat) : (setn d f i x).house = d.house := rfl
@[simp] theorem setn_mc (d : Dev) (f : Fld) (i x : Nat) : (setn d f i x).mc = d.mc := rfl
@[simp] theorem setn_mcLatch (d : Dev) (f : Fld) (i x : Nat) : (setn d f i x).mcLatch = d.mcLatch := rfl
@[simp] theorem setn_tick (d : Dev) (f : Fld) (i x : Nat) : (setn d f i x).tick = d.tick := rfl
@[simp] theorem setn_ticking (d : Dev) (f : Fld) (i x : Nat) : (setn d f i x).ticking = d.ticking := rfl
@[simp] theorem setn_tail (d : Dev) (f : Fld) (i x : Nat) : (setn d f i x).tail = d.tail := rfl
@[simp] theorem setn_wliveApply (d : Dev) (f : Fld) (i x : Nat) : (setn d f i x).wliveApply = d.wliveApply := rfl
@[simp] theorem setn_wliveHeld (d : Dev) (f : Fld) (i x : Nat) : (setn d f i x).wliveHeld = d.wliveHeld := rfl
@[simp] theorem setn_boardHeld (d : Dev) (f : Fld) (i x : Nat) : (setn d f i x).boardHeld = d.boardHeld := rfl
@[simp] theorem setn_pcie (d : Dev) (f : Fld) (i x : Nat) : (setn d f i x).pcie = d.pcie := rfl
@[simp] theorem setn_ingressPub (d : Dev) (f : Fld) (i x : Nat) : (setn d f i x).ingressPub = d.ingressPub := rfl
@[simp] theorem setn_ingressFl (d : Dev) (f : Fld) (i x : Nat) : (setn d f i x).ingressFl = d.ingressFl := rfl
@[simp] theorem setn_fresh (d : Dev) (f : Fld) (i x : Nat) : (setn d f i x).fresh = d.fresh := rfl

/-! ## What `setCore` leaves alone -/

@[simp] theorem setCore_ctl (d : Dev) (c : Nat) (k : Core) : (setCore d c k).ctl = d.ctl := rfl
@[simp] theorem setCore_nxt (d : Dev) (c : Nat) (k : Core) : (setCore d c k).nxt = d.nxt := rfl
@[simp] theorem setCore_mkt (d : Dev) (c : Nat) (k : Core) : (setCore d c k).mkt = d.mkt := rfl
@[simp] theorem setCore_ecc (d : Dev) (c : Nat) (k : Core) : (setCore d c k).ecc = d.ecc := rfl
@[simp] theorem setCore_past (d : Dev) (c : Nat) (k : Core) : (setCore d c k).past = d.past := rfl
@[simp] theorem setCore_wrote (d : Dev) (c : Nat) (k : Core) : (setCore d c k).wrote = d.wrote := rfl
@[simp] theorem setCore_pkt (d : Dev) (c : Nat) (k : Core) : (setCore d c k).pkt = d.pkt := rfl
@[simp] theorem setCore_pecc (d : Dev) (c : Nat) (k : Core) : (setCore d c k).pecc = d.pecc := rfl
@[simp] theorem setCore_pscrub (d : Dev) (c : Nat) (k : Core) : (setCore d c k).pscrub = d.pscrub := rfl
@[simp] theorem setCore_stage (d : Dev) (c : Nat) (k : Core) : (setCore d c k).stage = d.stage := rfl
@[simp] theorem setCore_wings (d : Dev) (c : Nat) (k : Core) : (setCore d c k).wings = d.wings := rfl
@[simp] theorem setCore_prog (d : Dev) (c : Nat) (k : Core) : (setCore d c k).prog = d.prog := rfl
@[simp] theorem setCore_gecc (d : Dev) (c : Nat) (k : Core) : (setCore d c k).gecc = d.gecc := rfl
@[simp] theorem setCore_brd (d : Dev) (c : Nat) (k : Core) : (setCore d c k).brd = d.brd := rfl
@[simp] theorem setCore_bq (d : Dev) (c : Nat) (k : Core) : (setCore d c k).bq = d.bq := rfl
@[simp] theorem setCore_bdue (d : Dev) (c : Nat) (k : Core) : (setCore d c k).bdue = d.bdue := rfl
@[simp] theorem setCore_bheld (d : Dev) (c : Nat) (k : Core) : (setCore d c k).bheld = d.bheld := rfl
@[simp] theorem setCore_led (d : Dev) (c : Nat) (k : Core) : (setCore d c k).led = d.led := rfl
@[simp] theorem setCore_tallies (d : Dev) (c : Nat) (k : Core) : (setCore d c k).tallies = d.tallies := rfl
@[simp] theorem setCore_ovr (d : Dev) (c : Nat) (k : Core) : (setCore d c k).ovr = d.ovr := rfl
@[simp] theorem setCore_su (d : Dev) (c : Nat) (k : Core) : (setCore d c k).su = d.su := rfl
@[simp] theorem setCore_tus (d : Dev) (c : Nat) (k : Core) : (setCore d c k).tus = d.tus := rfl
@[simp] theorem setCore_col (d : Dev) (c : Nat) (k : Core) : (setCore d c k).col = d.col := rfl
@[simp] theorem setCore_buses (d : Dev) (c : Nat) (k : Core) : (setCore d c k).buses = d.buses := rfl
@[simp] theorem setCore_egress (d : Dev) (c : Nat) (k : Core) : (setCore d c k).egress = d.egress := rfl
@[simp] theorem setCore_latched (d : Dev) (c : Nat) (k : Core) : (setCore d c k).latched = d.latched := rfl
@[simp] theorem setCore_dus (d : Dev) (c : Nat) (k : Core) : (setCore d c k).dus = d.dus := rfl
@[simp] theorem setCore_dyns (d : Dev) (c : Nat) (k : Core) : (setCore d c k).dyns = d.dyns := rfl
@[simp] theorem setCore_ramps (d : Dev) (c : Nat) (k : Core) : (setCore d c k).ramps = d.ramps := rfl
@[simp] theorem setCore_cue (d : Dev) (c : Nat) (k : Core) : (setCore d c k).cue = d.cue := rfl
@[simp] theorem setCore_stalls (d : Dev) (c : Nat) (k : Core) : (setCore d c k).stalls = d.stalls := rfl
@[simp] theorem setCore_gov (d : Dev) (c : Nat) (k : Core) : (setCore d c k).gov = d.gov := rfl
@[simp] theorem setCore_time (d : Dev) (c : Nat) (k : Core) : (setCore d c k).time = d.time := rfl
@[simp] theorem setCore_mcs (d : Dev) (c : Nat) (k : Core) : (setCore d c k).mcs = d.mcs := rfl
@[simp] theorem setCore_ports (d : Dev) (c : Nat) (k : Core) : (setCore d c k).ports = d.ports := rfl
@[simp] theorem setCore_rings (d : Dev) (c : Nat) (k : Core) : (setCore d c k).rings = d.rings := rfl
@[simp] theorem setCore_rx (d : Dev) (c : Nat) (k : Core) : (setCore d c k).rx = d.rx := rfl
@[simp] theorem setCore_tx (d : Dev) (c : Nat) (k : Core) : (setCore d c k).tx = d.tx := rfl
@[simp] theorem setCore_locs (d : Dev) (c : Nat) (k : Core) : (setCore d c k).locs = d.locs := rfl
@[simp] theorem setCore_locOut (d : Dev) (c : Nat) (k : Core) : (setCore d c k).locOut = d.locOut := rfl
@[simp] theorem setCore_tbs (d : Dev) (c : Nat) (k : Core) : (setCore d c k).tbs = d.tbs := rfl
@[simp] theorem setCore_moves (d : Dev) (c : Nat) (k : Core) : (setCore d c k).moves = d.moves := rfl
@[simp] theorem setCore_hostOut (d : Dev) (c : Nat) (k : Core) : (setCore d c k).hostOut = d.hostOut := rfl
@[simp] theorem setCore_msixMask (d : Dev) (c : Nat) (k : Core) : (setCore d c k).msixMask = d.msixMask := rfl
@[simp] theorem setCore_msixPba (d : Dev) (c : Nat) (k : Core) : (setCore d c k).msixPba = d.msixPba := rfl
@[simp] theorem setCore_msixTab (d : Dev) (c : Nat) (k : Core) : (setCore d c k).msixTab = d.msixTab := rfl
@[simp] theorem setCore_msixSent (d : Dev) (c : Nat) (k : Core) : (setCore d c k).msixSent = d.msixSent := rfl
@[simp] theorem setCore_house (d : Dev) (c : Nat) (k : Core) : (setCore d c k).house = d.house := rfl
@[simp] theorem setCore_mc (d : Dev) (c : Nat) (k : Core) : (setCore d c k).mc = d.mc := rfl
@[simp] theorem setCore_mcLatch (d : Dev) (c : Nat) (k : Core) : (setCore d c k).mcLatch = d.mcLatch := rfl
@[simp] theorem setCore_tick (d : Dev) (c : Nat) (k : Core) : (setCore d c k).tick = d.tick := rfl
@[simp] theorem setCore_ticking (d : Dev) (c : Nat) (k : Core) : (setCore d c k).ticking = d.ticking := rfl
@[simp] theorem setCore_tail (d : Dev) (c : Nat) (k : Core) : (setCore d c k).tail = d.tail := rfl
@[simp] theorem setCore_wliveApply (d : Dev) (c : Nat) (k : Core) : (setCore d c k).wliveApply = d.wliveApply := rfl
@[simp] theorem setCore_wliveHeld (d : Dev) (c : Nat) (k : Core) : (setCore d c k).wliveHeld = d.wliveHeld := rfl
@[simp] theorem setCore_boardHeld (d : Dev) (c : Nat) (k : Core) : (setCore d c k).boardHeld = d.boardHeld := rfl
@[simp] theorem setCore_pcie (d : Dev) (c : Nat) (k : Core) : (setCore d c k).pcie = d.pcie := rfl
@[simp] theorem setCore_ingressPub (d : Dev) (c : Nat) (k : Core) : (setCore d c k).ingressPub = d.ingressPub := rfl
@[simp] theorem setCore_ingressFl (d : Dev) (c : Nat) (k : Core) : (setCore d c k).ingressFl = d.ingressFl := rfl
@[simp] theorem setCore_fresh (d : Dev) (c : Nat) (k : Core) : (setCore d c k).fresh = d.fresh := rfl

/-! ## Writes as updates of one field -/

theorem wr_eq (d : Dev) (a : Nat) (v : W24) : wr d a v = { d with ctl := (wr d a v).ctl } := rfl
theorem setf_eq (d : Dev) (f : Fld) (i x : Nat) : setf d f i x = { d with ctl := (setf d f i x).ctl } := rfl
theorem nwr_eq (d : Dev) (a : Nat) (v : W24) : nwr d a v = { d with nxt := (nwr d a v).nxt } := rfl
theorem setn_eq (d : Dev) (f : Fld) (i x : Nat) : setn d f i x = { d with nxt := (setn d f i x).nxt } := rfl
theorem setCore_eq (d : Dev) (c : Nat) (k : Core) : setCore d c k = { d with cores := (setCore d c k).cores } := rfl

/-! ## Reading registers after writes -/

@[simp] theorem rd_wr_same (d : Dev) (a : Nat) (v : W24) : rd (wr d a v) a = v := Tab.get_set_same _ _ _ _
theorem rd_wr_other (d : Dev) {a b : Nat} (v : W24) (h : b ≠ a) : rd (wr d a v) b = rd d b :=
  Tab.get_set_other _ _ _ _ h
@[simp] theorem nrd_nwr_same (d : Dev) (a : Nat) (v : W24) : nrd (nwr d a v) a = v := Tab.get_set_same _ _ _ _
theorem nrd_nwr_other (d : Dev) {a b : Nat} (v : W24) (h : b ≠ a) : nrd (nwr d a v) b = nrd d b :=
  Tab.get_set_other _ _ _ _ h
@[simp] theorem rd_nwr (d : Dev) (a b : Nat) (v : W24) : rd (nwr d a v) b = rd d b := rfl
@[simp] theorem nrd_wr (d : Dev) (a b : Nat) (v : W24) : nrd (wr d a v) b = nrd d b := rfl
@[simp] theorem rd_setCore (d : Dev) (c : Nat) (k : Core) (b : Nat) : rd (setCore d c k) b = rd d b := rfl
@[simp] theorem rd_setf_same (d : Dev) (f : Fld) (i x : Nat) :
    rd (setf d f i x) (f.addr i) = f.put (rd d (f.addr i)) x := rd_wr_same _ _ _
theorem rd_setf_other (d : Dev) (f : Fld) (i x : Nat) {b : Nat} (h : b ≠ f.addr i) : rd (setf d f i x) b = rd d b :=
  rd_wr_other _ _ h

@[simp] theorem core_setCore_same (d : Dev) (c : Nat) (k : Core) : core (setCore d c k) c = k := Tab.get_set_same _ _ _ _
theorem core_setCore_other (d : Dev) {c b : Nat} (k : Core) (h : b ≠ c) : core (setCore d c k) b = core d b :=
  Tab.get_set_other _ _ _ _ h
@[simp] theorem core_updCore_same (d : Dev) (c : Nat) (f : Core → Core) : core (updCore d c f) c = f (core d c) :=
  core_setCore_same _ _ _
theorem core_updCore_other (d : Dev) {c b : Nat} (f : Core → Core) (h : b ≠ c) : core (updCore d c f) b = core d b :=
  core_setCore_other _ _ h
@[simp] theorem core_wr (d : Dev) (a : Nat) (v : W24) (c : Nat) : core (wr d a v) c = core d c := rfl
@[simp] theorem core_setf (d : Dev) (f : Fld) (i x c : Nat) : core (setf d f i x) c = core d c := rfl

end Sys2Proof.Machine
end

