-- ==== Sys2Proof/Laws/Ops.lean ====
section
/-!
SUPPORT. Register fields after a write, and what the shared operations of Sys2Proof/Machine/Ops.lean can do: raising an
interrupt source or an alert cause, posting, a register write by field types, the Board.
-/
namespace Sys2Proof.Machine

/-! ## Fields of a word -/

/-- A field lies within a word. -/
abbrev Fld.ok (f : Fld) : Prop := f.lo ≤ f.hi ∧ f.hi < 24

theorem Fld.size_pos (f : Fld) : 0 < f.size := Nat.two_pow_pos _

theorem bits_lt (v hi lo : Nat) : bits v hi lo < 2 ^ (hi + 1 - lo) := Nat.mod_lt _ (Nat.two_pow_pos _)

theorem Fld.of_lt (f : Fld) (v : W24) : f.of v < f.size := bits_lt _ _ _

theorem Fld.of_eq (f : Fld) (v : W24) : f.of v = v.toNat / 2 ^ f.lo % f.size := by
  unfold Fld.of bits Fld.size; rw [Nat.shiftRight_eq_div_pow]

/-- The arithmetic of putting a field: `n` in three parts, the middle replaced. -/
theorem put_parts (n L S y : Nat) (hL : 0 < L) :
    n - n / L % S * L + y * L = n / (L * S) * (L * S) + y * L + n % L := by
  have h1 := Nat.div_add_mod n (L * S)
  have h2 : n % (L * S) = n % L + L * (n / L % S) := Nat.mod_mul
  have h3 : L * (n / L % S) = n / L % S * L := Nat.mul_comm _ _
  have h4 : L * S * (n / (L * S)) = n / (L * S) * (L * S) := Nat.mul_comm _ _
  rw [h2, h3, h4] at h1
  omega

/-- The three parts of a word with a field put into it. -/
theorem Fld.put_toNat {f : Fld} (h : f.ok) (v : W24) (x : Nat) :
    (f.put v x).toNat
      = v.toNat / (2 ^ f.lo * f.size) * (2 ^ f.lo * f.size) + x % f.size * 2 ^ f.lo + v.toNat % 2 ^ f.lo := by
  have hx : x % f.size < f.size := Nat.mod_lt _ f.size_pos
  have hS : 2 ^ f.lo * f.size = 2 ^ (f.hi + 1) := by
    unfold Fld.size; rw [← Nat.pow_add]; congr 1; omega
  have hT : 2 ^ f.lo * f.size * 2 ^ (23 - f.hi) = 2 ^ 24 := by rw [hS, ← Nat.pow_add]; congr 1; omega
  have hv : v.toNat < 2 ^ f.lo * f.size * 2 ^ (23 - f.hi) := hT ▸ v.isLt
  have hA : v.toNat / (2 ^ f.lo * f.size) < 2 ^ (23 - f.hi) := Nat.div_lt_of_lt_mul hv
  have hr : v.toNat % 2 ^ f.lo < 2 ^ f.lo := Nat.mod_lt _ (Nat.two_pow_pos _)
  unfold Fld.put w24
  rw [BitVec.toNat_ofNat, Fld.of_eq, put_parts _ _ _ _ (Nat.two_pow_pos _), ← hT]
  apply Nat.mod_eq_of_lt
  clear hT hS hv
  generalize v.toNat / (2 ^ f.lo * f.size) = A at *
  generalize 2 ^ (23 - f.hi) = T at *
  generalize 2 ^ f.lo = L at *
  generalize f.size = S at *
  generalize v.toNat % L = r at *
  generalize x % S = y at *
  have h1 : (A + 1) * (L * S) ≤ T * (L * S) := Nat.mul_le_mul_right _ hA
  have h2 : (y + 1) * L ≤ S * L := Nat.mul_le_mul_right _ hx
  rw [Nat.add_mul, Nat.mul_comm T] at h1
  rw [Nat.add_mul, Nat.mul_comm S] at h2
  omega

/-- A field reads as what was put into it. -/
theorem Fld.of_put_same {f : Fld} (h : f.ok) (v : W24) (x : Nat) : f.of (f.put v x) = x % f.size := by
  have hx : x % f.size < f.size := Nat.mod_lt _ f.size_pos
  have hr : v.toNat % 2 ^ f.lo < 2 ^ f.lo := Nat.mod_lt _ (Nat.two_pow_pos _)
  rw [Fld.of_eq, Fld.put_toNat h]
  generalize v.toNat / (2 ^ f.lo * f.size) = A
  generalize x % f.size = y at *
  rw [show A * (2 ^ f.lo * f.size) + y * 2 ^ f.lo + v.toNat % 2 ^ f.lo
      = 2 ^ f.lo * (f.size * A + y) + v.toNat % 2 ^ f.lo by
    rw [Nat.mul_add, Nat.mul_comm A, Nat.mul_assoc, Nat.mul_comm y]]
  rw [Nat.mul_add_div (Nat.two_pow_pos _), Nat.div_eq_of_lt hr, Nat.add_zero, Nat.mul_add_mod, Nat.mod_eq_of_lt hx]

/-- Bits below `e` depend on the number modulo `2 ^ e` alone. -/
theorem bits_mod {n e hi lo : Nat} (h : hi < e) (hlo : lo ≤ hi) : bits (n % 2 ^ e) hi lo = bits n hi lo := by
  unfold bits
  rw [Nat.shiftRight_eq_div_pow, Nat.shiftRight_eq_div_pow,
    show 2 ^ e = 2 ^ lo * 2 ^ (e - lo) by rw [← Nat.pow_add]; congr 1; omega, Nat.mod_mul_right_div_self,
    show 2 ^ (e - lo) = 2 ^ (hi + 1 - lo) * 2 ^ (e - hi - 1) by rw [← Nat.pow_add]; congr 1; omega, Nat.mod_mul_right_mod]

/-- Bits from `e` up depend on the number divided by `2 ^ e` alone. -/
theorem bits_div {n e hi lo : Nat} (h : e ≤ lo) (hlo : lo ≤ hi) :
    bits n hi lo = bits (n / 2 ^ e) (hi - e) (lo - e) := by
  unfold bits
  rw [Nat.shiftRight_eq_div_pow, Nat.shiftRight_eq_div_pow, Nat.div_div_eq_div_mul, ← Nat.pow_add,
    show e + (lo - e) = lo by omega, show hi - e + 1 - (lo - e) = hi + 1 - lo by omega]

/-- Putting one field leaves every bit of a disjoint one. -/
theorem Fld.of_put_other {f g : Fld} (hf : f.ok) (hg : g.ok) (v : W24) (x : Nat) (h : g.hi < f.lo ∨ f.hi < g.lo) :
    g.of (f.put v x) = g.of v := by
  unfold Fld.of
  rcases h with h | h
  · rw [← bits_mod h hg.1, ← bits_mod (n := v.toNat) h hg.1, Fld.put_toNat hf]
    congr 1
    generalize v.toNat / (2 ^ f.lo * f.size) = A
    rw [show A * (2 ^ f.lo * f.size) + x % f.size * 2 ^ f.lo + v.toNat % 2 ^ f.lo
        = 2 ^ f.lo * (f.size * A + x % f.size) + v.toNat % 2 ^ f.lo by
      rw [Nat.mul_add, Nat.mul_comm A, Nat.mul_assoc, Nat.mul_comm (x % f.size)]]
    rw [Nat.mul_add_mod, Nat.mod_mod]
  · have hS : 2 ^ f.lo * f.size = 2 ^ (f.hi + 1) := by
      have := hf.1
      unfold Fld.size; rw [← Nat.pow_add]; congr 1; omega
    have hr : v.toNat % 2 ^ f.lo < 2 ^ f.lo := Nat.mod_lt _ (Nat.two_pow_pos _)
    have hx : x % f.size < f.size := Nat.mod_lt _ f.size_pos
    rw [bits_div (e := f.hi + 1) h hg.1, bits_div (n := v.toNat) (e := f.hi + 1) h hg.1, Fld.put_toNat hf, ← hS]
    congr 1
    generalize v.toNat / (2 ^ f.lo * f.size) = A
    generalize x % f.size = y at *
    generalize v.toNat % 2 ^ f.lo = r at *
    generalize 2 ^ f.lo = L at *
    have h2 : (y + 1) * L ≤ f.size * L := Nat.mul_le_mul_right _ hx
    rw [Nat.add_mul, Nat.mul_comm f.size] at h2
    rw [Nat.add_assoc, Nat.mul_comm A, Nat.mul_add_div (by omega), Nat.div_eq_of_lt (by omega), Nat.add_zero]

/-! ## Fields of a register -/

theorem fld_lt (d : Dev) (f : Fld) (i : Nat) : fld d f i < f.size := f.of_lt _

theorem fld_setf_same (d : Dev) {f : Fld} (h : f.ok) (i x : Nat) : fld (setf d f i x) f i = x % f.size := by
  simp [fld, Fld.of_put_same h]

/-- Another register, or a disjoint field of the same one, is left. -/
theorem fld_setf_other (d : Dev) {f g : Fld} (hf : f.ok) (hg : g.ok) (i j x : Nat)
    (h : g.addr j ≠ f.addr i ∨ g.hi < f.lo ∨ f.hi < g.lo) : fld (setf d f i x) g j = fld d g j := by
  unfold fld
  by_cases ha : g.addr j = f.addr i
  · rw [ha, rd_setf_same, Fld.of_put_other hf hg _ _ (h.resolve_left (fun n => n ha))]
  · rw [rd_setf_other _ _ _ _ ha]

/-- A field of another register is left, whatever the fields. -/
theorem fld_setf_reg (d : Dev) (f g : Fld) (i j x : Nat) (h : g.addr j ≠ f.addr i) :
    fld (setf d f i x) g j = fld d g j := by
  unfold fld; rw [rd_setf_other _ _ _ _ h]

theorem fld_wr_reg (d : Dev) (g : Fld) (a j : Nat) (v : W24) (h : g.addr j ≠ a) : fld (wr d a v) g j = fld d g j := by
  unfold fld; rw [rd_wr_other _ _ h]

/-- A saturating counter never goes down and never leaves its field. -/
theorem fld_incBy (d : Dev) {f : Fld} (h : f.ok) (i n : Nat) :
    fld (incBy d f i n) f i = satTo (f.size - 1) (fld d f i + n) := by
  unfold incBy
  rw [fld_setf_same d h]
  apply Nat.mod_eq_of_lt
  have := f.size_pos
  unfold satTo
  split <;> omega

@[simp] theorem nxt_setf (d : Dev) (f : Fld) (i x : Nat) : (setf d f i x).nxt = d.nxt := rfl

/-! ## Reads depend on the words alone -/

theorem rd_of_ctl {d d' : Dev} (h : d'.ctl = d.ctl) (a : Nat) : rd d' a = rd d a := by unfold rd; rw [h]
theorem fld_of_ctl {d d' : Dev} (h : d'.ctl = d.ctl) (f : Fld) (i : Nat) : fld d' f i = fld d f i := by
  unfold fld; rw [rd_of_ctl h]
theorem flag_of_ctl {d d' : Dev} (h : d'.ctl = d.ctl) (f : Fld) (i : Nat) : flag d' f i = flag d f i := by
  unfold flag; rw [fld_of_ctl h]
theorem core_of_cores {d d' : Dev} (h : d'.cores = d.cores) (c : Nat) : core d' c = core d c := by unfold core; rw [h]

/-! ## What raising, alerting and posting can change -/

/-- What holds of both branches holds of a choice between them. -/
theorem ite_ind {α : Type} (P : α → Prop) {a b : α} {c : Prop} [Decidable c] (h : P a) (k : P b) :
    P (if c then a else b) := by split <;> assumption

/-- `d'` differs from `d` in registers and the MSI-X state alone. -/
def SameButIrq (d d' : Dev) : Prop := { d' with ctl := d.ctl, msixPba := d.msixPba, msixSent := d.msixSent } = d

/-- `d'` differs from `d` in registers, the MSI-X state, what arrives at the ledger and ALERT_N's release alone. -/
def SameButPost (d d' : Dev) : Prop :=
  { d' with ctl := d.ctl, msixPba := d.msixPba, msixSent := d.msixSent
            led := { d'.led with arriving := d.led.arriving }
            house := { d'.house with released := d.house.released } } = d

/-- `d'` differs from `d` in registers, their next copies and what arrives at the ledger alone. -/
def SameButRegs (d d' : Dev) : Prop :=
  { d' with ctl := d.ctl, nxt := d.nxt, led := { d'.led with arriving := d.led.arriving } } = d

theorem SameButIrq.refl (d : Dev) : SameButIrq d d := rfl
theorem SameButPost.refl (d : Dev) : SameButPost d d := rfl
theorem SameButRegs.refl (d : Dev) : SameButRegs d d := rfl

theorem SameButIrq.trans {a b c : Dev} (h : SameButIrq a b) (k : SameButIrq b c) : SameButIrq a c := by
  unfold SameButIrq at *; rw [← h, ← k]
theorem SameButPost.trans {a b c : Dev} (h : SameButPost a b) (k : SameButPost b c) : SameButPost a c := by
  unfold SameButPost at *; rw [← h, ← k]
theorem SameButRegs.trans {a b c : Dev} (h : SameButRegs a b) (k : SameButRegs b c) : SameButRegs a c := by
  unfold SameButRegs at *; rw [← h, ← k]
theorem SameButIrq.post {a b : Dev} (h : SameButIrq a b) : SameButPost a b := by
  unfold SameButIrq SameButPost at *; rw [← h]

theorem SameButIrq.setf (d : Dev) (f : Fld) (i x : Nat) : SameButIrq d (setf d f i x) := rfl
theorem SameButRegs.wr (d : Dev) (a : Nat) (v : W24) : SameButRegs d (wr d a v) := rfl
theorem SameButRegs.nwr (d : Dev) (a : Nat) (v : W24) : SameButRegs d (nwr d a v) := rfl
theorem SameButRegs.setf (d : Dev) (f : Fld) (i x : Nat) : SameButRegs d (setf d f i x) := rfl
theorem SameButPost.released (d : Dev) : SameButPost d { d with house := { d.house with released := false } } := rfl
theorem SameButPost.arrive (d : Dev) (l : List Post) : SameButPost d { d with led := { d.led with arriving := l } } := rfl
theorem SameButRegs.arrive (d : Dev) (l : List Post) : SameButRegs d { d with led := { d.led with arriving := l } } := rfl

theorem SameButIrq.msixSend (d : Dev) (s : Nat) : SameButIrq d (msixSend d s) := by
  unfold Sys2Proof.Machine.msixSend SameButIrq; split <;> rfl

theorem SameButIrq.raise (d : Dev) (s : Nat) : SameButIrq d (raise d s) :=
  ite_ind (SameButIrq d) (.refl d) (ite_ind (SameButIrq d) (.trans (.setf ..) (.msixSend ..)) (.setf ..))

theorem SameButPost.alert (d : Dev) (b : Nat) : SameButPost d (alert d b) :=
  ite_ind (SameButPost d) (.refl d)
    (.trans (.trans (SameButIrq.post (.setf ..)) (.released _)) (SameButIrq.post (.raise ..)))

theorem SameButPost.source (d : Dev) (o : Option Nat) :
    SameButPost d (match o with | some s => Sys2Proof.Machine.raise d s | none => d) := by
  cases o
  · exact .refl d
  · exact SameButIrq.post (.raise ..)

theorem SameButPost.cause (d : Dev) (o : Option Nat) :
    SameButPost d (match o with | some b => Sys2Proof.Machine.alert d b | none => d) := by
  cases o
  · exact .refl d
  · exact .alert ..

theorem SameButPost.post (d : Dev) (c w x y : Nat) : SameButPost d (post d c w x y) := .arrive d _

theorem SameButPost.raises (d : Dev) (c : Nat) : SameButPost d (postRaises d c) := .trans (.source _ _) (.cause _ _)

@[simp] theorem raise_nxt (d : Dev) (s : Nat) : (raise d s).nxt = d.nxt := by
  have h := congrArg Dev.nxt (SameButIrq.raise d s); exact h
@[simp] theorem raise_cores (d : Dev) (s : Nat) : (raise d s).cores = d.cores := by
  have h := congrArg Dev.cores (SameButIrq.raise d s); exact h
@[simp] theorem raise_mkt (d : Dev) (s : Nat) : (raise d s).mkt = d.mkt := by
  have h := congrArg Dev.mkt (SameButIrq.raise d s); exact h
@[simp] theorem raise_ecc (d : Dev) (s : Nat) : (raise d s).ecc = d.ecc := by
  have h := congrArg Dev.ecc (SameButIrq.raise d s); exact h
@[simp] theorem raise_past (d : Dev) (s : Nat) : (raise d s).past = d.past := by
  have h := congrArg Dev.past (SameButIrq.raise d s); exact h
@[simp] theorem raise_wrote (d : Dev) (s : Nat) : (raise d s).wrote = d.wrote := by
  have h := congrArg Dev.wrote (SameButIrq.raise d s); exact h
@[simp] theorem raise_pkt (d : Dev) (s : Nat) : (raise d s).pkt = d.pkt := by
  have h := congrArg Dev.pkt (SameButIrq.raise d s); exact h
@[simp] theorem raise_pecc (d : Dev) (s : Nat) : (raise d s).pecc = d.pecc := by
  have h := congrArg Dev.pecc (SameButIrq.raise d s); exact h
@[simp] theorem raise_pscrub (d : Dev) (s : Nat) : (raise d s).pscrub = d.pscrub := by
  have h := congrArg Dev.pscrub (SameButIrq.raise d s); exact h
@[simp] theorem raise_stage (d : Dev) (s : Nat) : (raise d s).stage = d.stage := by
  have h := congrArg Dev.stage (SameButIrq.raise d s); exact h
@[simp] theorem raise_wings (d : Dev) (s : Nat) : (raise d s).wings = d.wings := by
  have h := congrArg Dev.wings (SameButIrq.raise d s); exact h
@[simp] theorem raise_prog (d : Dev) (s : Nat) : (raise d s).prog = d.prog := by
  have h := congrArg Dev.prog (SameButIrq.raise d s); exact h
@[simp] theorem raise_gecc (d : Dev) (s : Nat) : (raise d s).gecc = d.gecc := by
  have h := congrArg Dev.gecc (SameButIrq.raise d s); exact h
@[simp] theorem raise_brd (d : Dev) (s : Nat) : (raise d s).brd = d.brd := by
  have h := congrArg Dev.brd (SameButIrq.raise d s); exact h
@[simp] theorem raise_bq (d : Dev) (s : Nat) : (raise d s).bq = d.bq := by
  have h := congrArg Dev.bq (SameButIrq.raise d s); exact h
@[simp] theorem raise_bdue (d : Dev) (s : Nat) : (raise d s).bdue = d.bdue := by
  have h := congrArg Dev.bdue (SameButIrq.raise d s); exact h
@[simp] theorem raise_bheld (d : Dev) (s : Nat) : (raise d s).bheld = d.bheld := by
  have h := congrArg Dev.bheld (SameButIrq.raise d s); exact h
@[simp] theorem raise_led (d : Dev) (s : Nat) : (raise d s).led = d.led := by
  have h := congrArg Dev.led (SameButIrq.raise d s); exact h
@[simp] theorem raise_tallies (d : Dev) (s : Nat) : (raise d s).tallies = d.tallies := by
  have h := congrArg Dev.tallies (SameButIrq.raise d s); exact h
@[simp] theorem raise_ovr (d : Dev) (s : Nat) : (raise d s).ovr = d.ovr := by
  have h := congrArg Dev.ovr (SameButIrq.raise d s); exact h
@[simp] theorem raise_su (d : Dev) (s : Nat) : (raise d s).su = d.su := by
  have h := congrArg Dev.su (SameButIrq.raise d s); exact h
@[simp] theorem raise_tus (d : Dev) (s : Nat) : (raise d s).tus = d.tus := by
  have h := congrArg Dev.tus (SameButIrq.raise d s); exact h
@[simp] theorem raise_col (d : Dev) (s : Nat) : (raise d s).col = d.col := by
  have h := congrArg Dev.col (SameButIrq.raise d s); exact h
@[simp] theorem raise_buses (d : Dev) (s : Nat) : (raise d s).buses = d.buses := by
  have h := congrArg Dev.buses (SameButIrq.raise d s); exact h
@[simp] theorem raise_egress (d : Dev) (s : Nat) : (raise d s).egress = d.egress := by
  have h := congrArg Dev.egress (SameButIrq.raise d s); exact h
@[simp] theorem raise_latched (d : Dev) (s : Nat) : (raise d s).latched = d.latched := by
  have h := congrArg Dev.latched (SameButIrq.raise d s); exact h
@[simp] theorem raise_dus (d : Dev) (s : Nat) : (raise d s).dus = d.dus := by
  have h := congrArg Dev.dus (SameButIrq.raise d s); exact h
@[simp] theorem raise_dyns (d : Dev) (s : Nat) : (raise d s).dyns = d.dyns := by
  have h := congrArg Dev.dyns (SameButIrq.raise d s); exact h
@[simp] theorem raise_ramps (d : Dev) (s : Nat) : (raise d s).ramps = d.ramps := by
  have h := congrArg Dev.ramps (SameButIrq.raise d s); exact h
@[simp] theorem raise_cue (d : Dev) (s : Nat) : (raise d s).cue = d.cue := by
  have h := congrArg Dev.cue (SameButIrq.raise d s); exact h
@[simp] theorem raise_stalls (d : Dev) (s : Nat) : (raise d s).stalls = d.stalls := by
  have h := congrArg Dev.stalls (SameButIrq.raise d s); exact h
@[simp] theorem raise_gov (d : Dev) (s : Nat) : (raise d s).gov = d.gov := by
  have h := congrArg Dev.gov (SameButIrq.raise d s); exact h
@[simp] theorem raise_time (d : Dev) (s : Nat) : (raise d s).time = d.time := by
  have h := congrArg Dev.time (SameButIrq.raise d s); exact h
@[simp] theorem raise_mcs (d : Dev) (s : Nat) : (raise d s).mcs = d.mcs := by
  have h := congrArg Dev.mcs (SameButIrq.raise d s); exact h
@[simp] theorem raise_ports (d : Dev) (s : Nat) : (raise d s).ports = d.ports := by
  have h := congrArg Dev.ports (SameButIrq.raise d s); exact h
@[simp] theorem raise_rings (d : Dev) (s : Nat) : (raise d s).rings = d.rings := by
  have h := congrArg Dev.rings (SameButIrq.raise d s); exact h
@[simp] theorem raise_rx (d : Dev) (s : Nat) : (raise d s).rx = d.rx := by
  have h := congrArg Dev.rx (SameButIrq.raise d s); exact h
@[simp] theorem raise_tx (d : Dev) (s : Nat) : (raise d s).tx = d.tx := by
  have h := congrArg Dev.tx (SameButIrq.raise d s); exact h
@[simp] theorem raise_locs (d : Dev) (s : Nat) : (raise d s).locs = d.locs := by
  have h := congrArg Dev.locs (SameButIrq.raise d s); exact h
@[simp] theorem raise_locOut (d : Dev) (s : Nat) : (raise d s).locOut = d.locOut := by
  have h := congrArg Dev.locOut (SameButIrq.raise d s); exact h
@[simp] theorem raise_tbs (d : Dev) (s : Nat) : (raise d s).tbs = d.tbs := by
  have h := congrArg Dev.tbs (SameButIrq.raise d s); exact h
@[simp] theorem raise_moves (d : Dev) (s : Nat) : (raise d s).moves = d.moves := by
  have h := congrArg Dev.moves (SameButIrq.raise d s); exact h
@[simp] theorem raise_hostOut (d : Dev) (s : Nat) : (raise d s).hostOut = d.hostOut := by
  have h := congrArg Dev.hostOut (SameButIrq.raise d s); exact h
@[simp] theorem raise_msixMask (d : Dev) (s : Nat) : (raise d s).msixMask = d.msixMask := by
  have h := congrArg Dev.msixMask (SameButIrq.raise d s); exact h
@[simp] theorem raise_msixTab (d : Dev) (s : Nat) : (raise d s).msixTab = d.msixTab := by
  have h := congrArg Dev.msixTab (SameButIrq.raise d s); exact h
@[simp] theorem raise_house (d : Dev) (s : Nat) : (raise d s).house = d.house := by
  have h := congrArg Dev.house (SameButIrq.raise d s); exact h
@[simp] theorem raise_mc (d : Dev) (s : Nat) : (raise d s).mc = d.mc := by
  have h := congrArg Dev.mc (SameButIrq.raise d s); exact h
@[simp] theorem raise_mcLatch (d : Dev) (s : Nat) : (raise d s).mcLatch = d.mcLatch := by
  have h := congrArg Dev.mcLatch (SameButIrq.raise d s); exact h
@[simp] theorem raise_tick (d : Dev) (s : Nat) : (raise d s).tick = d.tick := by
  have h := congrArg Dev.tick (SameButIrq.raise d s); exact h
@[simp] theorem raise_ticking (d : Dev) (s : Nat) : (raise d s).ticking = d.ticking := by
  have h := congrArg Dev.ticking (SameButIrq.raise d s); exact h
@[simp] theorem raise_tail (d : Dev) (s : Nat) : (raise d s).tail = d.tail := by
  have h := congrArg Dev.tail (SameButIrq.raise d s); exact h
@[simp] theorem raise_wliveApply (d : Dev) (s : Nat) : (raise d s).wliveApply = d.wliveApply := by
  have h := congrArg Dev.wliveApply (SameButIrq.raise d s); exact h
@[simp] theorem raise_wliveHeld (d : Dev) (s : Nat) : (raise d s).wliveHeld = d.wliveHeld := by
  have h := congrArg Dev.wliveHeld (SameButIrq.raise d s); exact h
@[simp] theorem raise_boardHeld (d : Dev) (s : Nat) : (raise d s).boardHeld = d.boardHeld := by
  have h := congrArg Dev.boardHeld (SameButIrq.raise d s); exact h
@[simp] theorem raise_pcie (d : Dev) (s : Nat) : (raise d s).pcie = d.pcie := by
  have h := congrArg Dev.pcie (SameButIrq.raise d s); exact h
@[simp] theorem raise_ingressPub (d : Dev) (s : Nat) : (raise d s).ingressPub = d.ingressPub := by
  have h := congrArg Dev.ingressPub (SameButIrq.raise d s); exact h
@[simp] theorem raise_ingressFl (d : Dev) (s : Nat) : (raise d s).ingressFl = d.ingressFl := by
  have h := congrArg Dev.ingressFl (SameButIrq.raise d s); exact h
@[simp] theorem raise_fresh (d : Dev) (s : Nat) : (raise d s).fresh = d.fresh := by
  have h := congrArg Dev.fresh (SameButIrq.raise d s); exact h

@[simp] theorem post_ctl (d : Dev) (c w x y : Nat) : (post d c w x y).ctl = d.ctl := rfl
@[simp] theorem post_nxt (d : Dev) (c w x y : Nat) : (post d c w x y).nxt = d.nxt := rfl
@[simp] theorem post_cores (d : Dev) (c w x y : Nat) : (post d c w x y).cores = d.cores := rfl
@[simp] theorem post_mkt (d : Dev) (c w x y : Nat) : (post d c w x y).mkt = d.mkt := rfl
@[simp] theorem post_ecc (d : Dev) (c w x y : Nat) : (post d c w x y).ecc = d.ecc := rfl
@[simp] theorem post_past (d : Dev) (c w x y : Nat) : (post d c w x y).past = d.past := rfl
@[simp] theorem post_wrote (d : Dev) (c w x y : Nat) : (post d c w x y).wrote = d.wrote := rfl
@[simp] theorem post_pkt (d : Dev) (c w x y : Nat) : (post d c w x y).pkt = d.pkt := rfl
@[simp] theorem post_pecc (d : Dev) (c w x y : Nat) : (post d c w x y).pecc = d.pecc := rfl
@[simp] theorem post_pscrub (d : Dev) (c w x y : Nat) : (post d c w x y).pscrub = d.pscrub := rfl
@[simp] theorem post_stage (d : Dev) (c w x y : Nat) : (post d c w x y).stage = d.stage := rfl
@[simp] theorem post_wings (d : Dev) (c w x y : Nat) : (post d c w x y).wings = d.wings := rfl
@[simp] theorem post_prog (d : Dev) (c w x y : Nat) : (post d c w x y).prog = d.prog := rfl
@[simp] theorem post_gecc (d : Dev) (c w x y : Nat) : (post d c w x y).gecc = d.gecc := rfl
@[simp] theorem post_brd (d : Dev) (c w x y : Nat) : (post d c w x y).brd = d.brd := rfl
@[simp] theorem post_bq (d : Dev) (c w x y : Nat) : (post d c w x y).bq = d.bq := rfl
@[simp] theorem post_bdue (d : Dev) (c w x y : Nat) : (post d c w x y).bdue = d.bdue := rfl
@[simp] theorem post_bheld (d : Dev) (c w x y : Nat) : (post d c w x y).bheld = d.bheld := rfl
@[simp] theorem post_tallies (d : Dev) (c w x y : Nat) : (post d c w x y).tallies = d.tallies := rfl
@[simp] theorem post_ovr (d : Dev) (c w x y : Nat) : (post d c w x y).ovr = d.ovr := rfl
@[simp] theorem post_su (d : Dev) (c w x y : Nat) : (post d c w x y).su = d.su := rfl
@[simp] theorem post_tus (d : Dev) (c w x y : Nat) : (post d c w x y).tus = d.tus := rfl
@[simp] theorem post_col (d : Dev) (c w x y : Nat) : (post d c w x y).col = d.col := rfl
@[simp] theorem post_buses (d : Dev) (c w x y : Nat) : (post d c w x y).buses = d.buses := rfl
@[simp] theorem post_egress (d : Dev) (c w x y : Nat) : (post d c w x y).egress = d.egress := rfl
@[simp] theorem post_latched (d : Dev) (c w x y : Nat) : (post d c w x y).latched = d.latched := rfl
@[simp] theorem post_dus (d : Dev) (c w x y : Nat) : (post d c w x y).dus = d.dus := rfl
@[simp] theorem post_dyns (d : Dev) (c w x y : Nat) : (post d c w x y).dyns = d.dyns := rfl
@[simp] theorem post_ramps (d : Dev) (c w x y : Nat) : (post d c w x y).ramps = d.ramps := rfl
@[simp] theorem post_cue (d : Dev) (c w x y : Nat) : (post d c w x y).cue = d.cue := rfl
@[simp] theorem post_stalls (d : Dev) (c w x y : Nat) : (post d c w x y).stalls = d.stalls := rfl
@[simp] theorem post_gov (d : Dev) (c w x y : Nat) : (post d c w x y).gov = d.gov := rfl
@[simp] theorem post_time (d : Dev) (c w x y : Nat) : (post d c w x y).time = d.time := rfl
@[simp] theorem post_mcs (d : Dev) (c w x y : Nat) : (post d c w x y).mcs = d.mcs := rfl
@[simp] theorem post_ports (d : Dev) (c w x y : Nat) : (post d c w x y).ports = d.ports := rfl
@[simp] theorem post_rings (d : Dev) (c w x y : Nat) : (post d c w x y).rings = d.rings := rfl
@[simp] theorem post_rx (d : Dev) (c w x y : Nat) : (post d c w x y).rx = d.rx := rfl
@[simp] theorem post_tx (d : Dev) (c w x y : Nat) : (post d c w x y).tx = d.tx := rfl
@[simp] theorem post_locs (d : Dev) (c w x y : Nat) : (post d c w x y).locs = d.locs := rfl
@[simp] theorem post_locOut (d : Dev) (c w x y : Nat) : (post d c w x y).locOut = d.locOut := rfl
@[simp] theorem post_tbs (d : Dev) (c w x y : Nat) : (post d c w x y).tbs = d.tbs := rfl
@[simp] theorem post_moves (d : Dev) (c w x y : Nat) : (post d c w x y).moves = d.moves := rfl
@[simp] theorem post_hostOut (d : Dev) (c w x y : Nat) : (post d c w x y).hostOut = d.hostOut := rfl
@[simp] theorem post_msixMask (d : Dev) (c w x y : Nat) : (post d c w x y).msixMask = d.msixMask := rfl
@[simp] theorem post_msixTab (d : Dev) (c w x y : Nat) : (post d c w x y).msixTab = d.msixTab := rfl
@[simp] theorem post_mc (d : Dev) (c w x y : Nat) : (post d c w x y).mc = d.mc := rfl
@[simp] theorem post_mcLatch (d : Dev) (c w x y : Nat) : (post d c w x y).mcLatch = d.mcLatch := rfl
@[simp] theorem post_tick (d : Dev) (c w x y : Nat) : (post d c w x y).tick = d.tick := rfl
@[simp] theorem post_ticking (d : Dev) (c w x y : Nat) : (post d c w x y).ticking = d.ticking := rfl
@[simp] theorem post_tail (d : Dev) (c w x y : Nat) : (post d c w x y).tail = d.tail := rfl
@[simp] theorem post_wliveApply (d : Dev) (c w x y : Nat) : (post d c w x y).wliveApply = d.wliveApply := rfl
@[simp] theorem post_wliveHeld (d : Dev) (c w x y : Nat) : (post d c w x y).wliveHeld = d.wliveHeld := rfl
@[simp] theorem post_boardHeld (d : Dev) (c w x y : Nat) : (post d c w x y).boardHeld = d.boardHeld := rfl
@[simp] theorem post_pcie (d : Dev) (c w x y : Nat) : (post d c w x y).pcie = d.pcie := rfl
@[simp] theorem post_ingressPub (d : Dev) (c w x y : Nat) : (post d c w x y).ingressPub = d.ingressPub := rfl
@[simp] theorem post_ingressFl (d : Dev) (c w x y : Nat) : (post d c w x y).ingressFl = d.ingressFl := rfl
@[simp] theorem post_fresh (d : Dev) (c w x y : Nat) : (post d c w x y).fresh = d.fresh := rfl

theorem raise_arriving (d : Dev) (s : Nat) : (raise d s).led = d.led := raise_led d s

theorem alert_led (d : Dev) (b : Nat) : (alert d b).led = d.led :=
  ite_ind (fun x : Dev => x.led = d.led) rfl (raise_led _ _)

/-- A post arrives at the ledger (R412). -/
@[simp] theorem post_led (d : Dev) (c w x y : Nat) :
    (post d c w x y).led = { d.led with arriving := d.led.arriving ++ [⟨c, w % 4096, w24 x, w24 y⟩] } := rfl

/-! ## The registers they touch -/

theorem msixSend_ctl (d : Dev) (s : Nat) : (msixSend d s).ctl = d.ctl := by
  unfold msixSend; split <;> rfl

/-- Raising a source touches its own register alone. -/
theorem rd_raise_other (d : Dev) (s : Nat) {a : Nat} (h : a ≠ F.INTC_SRC_PEND.addr s) : rd (raise d s) a = rd d a :=
  have e : rd (setf d F.INTC_SRC_PEND s 1) a = rd d a := rd_setf_other _ _ _ _ h
  have m := msixSend_ctl (setf d F.INTC_SRC_PEND s 1) s
  ite_ind (fun x => rd x a = rd d a) rfl (ite_ind (fun x => rd x a = rd d a) ((rd_of_ctl m a).trans e) e)

/-- A raised source is pending. -/
theorem pend_raise (d : Dev) (s : Nat) : flag (raise d s) F.INTC_SRC_PEND s = true := by
  have e : flag (setf d F.INTC_SRC_PEND s 1) F.INTC_SRC_PEND s = true := by
    unfold flag; rw [fld_setf_same d (by decide)]; rfl
  have m := msixSend_ctl (setf d F.INTC_SRC_PEND s 1) s
  unfold raise
  by_cases h : flag d F.INTC_SRC_PEND s = true
  · rw [if_pos h, h]
  · rw [if_neg h]
    exact ite_ind (fun x => flag x F.INTC_SRC_PEND s = true) ((flag_of_ctl m _ _).trans e) e

/-- Setting an alert cause touches its own register and that of source 24 alone. -/
theorem rd_alert_other (d : Dev) (b : Nat) {a : Nat} (h1 : a ≠ F.HOUSE_ALERT_CAUSE.addr 0)
    (h2 : a ≠ F.INTC_SRC_PEND.addr 24) : rd (alert d b) a = rd d a :=
  ite_ind (fun x => rd x a = rd d a) rfl
    ((rd_raise_other _ _ h2).trans ((rd_of_ctl rfl a).trans (rd_setf_other _ _ _ _ h1)))

/-- A post touches no register. -/
theorem rd_post (d : Dev) (c w x y a : Nat) : rd (post d c w x y) a = rd d a := rd_of_ctl rfl a

/-- An accepted post touches no register but those of the interrupt sources and of the alert causes. -/
theorem rd_postRaises_other (d : Dev) (c : Nat) {a : Nat} (h1 : a ≠ F.HOUSE_ALERT_CAUSE.addr 0)
    (h2 : ∀ s, a ≠ F.INTC_SRC_PEND.addr s) : rd (postRaises d c) a = rd d a := by
  have key (e : Dev) (o : Option Nat) : rd (match o with | some s => raise e s | none => e) a = rd e a := by
    cases o
    · rfl
    · exact rd_raise_other _ _ (h2 _)
  have key' (e : Dev) (o : Option Nat) : rd (match o with | some b => alert e b | none => e) a = rd e a := by
    cases o
    · rfl
    · exact rd_alert_other _ _ h1 (h2 _)
  exact (key' _ _).trans (key _ _)

/-! ## The order of a master's accesses (R437) -/

/-- Held accesses change only the three lists in which they wait. -/
theorem holdBehind_cases (s : State) (w : Nat) (l : List (Nat × Option W24)) :
    holdBehind s w l = { s with sec := { s.sec with pbHeld := (holdBehind s w l).sec.pbHeld },
                                dev := { s.dev with wliveHeld := (holdBehind s w l).dev.wliveHeld,
                                                    boardHeld := (holdBehind s w l).dev.boardHeld } } := by
  unfold holdBehind; dsimp only; split
  · rfl
  · split <;> rfl

@[simp] theorem holdBehind_pending (s : State) (w : Nat) (l : List (Nat × Option W24)) :
    (holdBehind s w l).pending = s.pending := by rw [holdBehind_cases]

@[simp] theorem holdBehind_vault (s : State) (w : Nat) (l : List (Nat × Option W24)) :
    (holdBehind s w l).sec.vault = s.sec.vault := by rw [holdBehind_cases]

@[simp] theorem holdBehind_pb (s : State) (w : Nat) (l : List (Nat × Option W24)) :
    (holdBehind s w l).sec.pb = s.sec.pb := by rw [holdBehind_cases]

/-- Everything an access can do: while HALTED, or from a host whose link is not yet enabled, nothing (R402, R443); its effect
where no access of its master is held; else it waits behind that one (R437). -/
theorem State.access_cases (w : BitVec 6) (l : List (Nat × Option W24)) (f : State → State) (s : State) :
    ((halted s.dev = true ∨ (w = 32 ∧ hostOpen s.dev = false)) ∧ s.access w l f = s)
      ∨ (halted s.dev = false ∧ (w = 32 → hostOpen s.dev = true) ∧ inOrder s w.toNat = true ∧ s.access w l f = f s)
      ∨ (halted s.dev = false ∧ (w = 32 → hostOpen s.dev = true) ∧ inOrder s w.toNat = false
          ∧ s.access w l f = holdBehind s w.toNat l) := by
  cases hh : halted s.dev
  · by_cases hw : w = 32 ∧ hostOpen s.dev = false
    · exact .inl ⟨.inr hw, by simp [State.access, State.whileUp, hh, hw.1, hw.2]⟩
    · have ho : w = 32 → hostOpen s.dev = true := fun e => by simpa [e] using hw
      have hg : ¬((decide (w = 32) && !hostOpen s.dev) = true) := by
        intro h; rw [Bool.and_eq_true, decide_eq_true_eq] at h; rw [ho h.1] at h; exact absurd h.2 (by decide)
      have e : s.access w l f = if inOrder s w.toNat then f s else holdBehind s w.toNat l := by
        unfold State.access State.whileUp; rw [hh]; exact if_neg hg
      cases hi : inOrder s w.toNat
      · exact .inr (.inr ⟨rfl, ho, rfl, by rw [e, hi]; rfl⟩)
      · exact .inr (.inl ⟨rfl, ho, rfl, by rw [e, hi]; rfl⟩)
  · exact .inl ⟨.inl rfl, by simp [State.access, State.whileUp, hh]⟩

/-- A write that takes effect is one update of the device. -/
theorem State.write_run {s : State} {w : BitVec 6} (a : Nat) (v : W24) (f : Dev → Dev) (h : halted s.dev = false)
    (ho : w = 32 → hostOpen s.dev = true) (hi : inOrder s w.toNat = true) : s.write w a v f = s.onDev f := by
  rcases State.access_cases w [(a, some v)] (State.onDev f) s with ⟨h', -⟩ | ⟨-, -, -, e⟩ | ⟨-, -, h', -⟩
  · rcases h' with h' | ⟨e, h'⟩
    · rw [h] at h'; cases h'
    · rw [ho e] at h'; cases h'
  · exact e
  · rw [hi] at h'; cases h'

/-- A write leaves the queue, the vault and the prompt book's memory alone. -/
theorem State.write_frame (w : BitVec 6) (a : Nat) (v : W24) (f : Dev → Dev) (s : State) :
    (s.write w a v f).pending = s.pending ∧ (s.write w a v f).sec.vault = s.sec.vault
      ∧ (s.write w a v f).sec.pb = s.sec.pb := by
  unfold State.write
  rcases State.access_cases w [(a, some v)] (State.onDev f) s with ⟨-, e⟩ | ⟨-, -, -, e⟩ | ⟨-, -, -, e⟩ <;> rw [e] <;> simp

/-! ## A register write by field types -/

/-- A post arrives, and nothing else changes. -/
def Dev.arrive (d : Dev) (p : Post) : Dev := { d with led := { d.led with arriving := d.led.arriving ++ [p] } }

/-- A post arrives, and does nothing else. -/
theorem post_eq (d : Dev) (c w x y : Nat) : post d c w x y = d.arrive ⟨c, w % 4096, w24 x, w24 y⟩ := rfl

theorem rd_arrive (d : Dev) (p : Post) (b : Nat) : rd (d.arrive p) b = rd d b := rd_of_ctl rfl b

/-- A write of a register of the map: the live word, the next copy, a post. -/
def mapWrite (d : Dev) (w a : Nat) (v : W24) (r : RegRow) : Dev :=
  let x := wordWrite r false (rd d a) v
  let y := wordWrite r true (nrd (wr d a x.1) a) v
  let d' := if r.rwc then nwr (wr d a x.1) a y.1 else wr d a x.1
  let bad := if r.rwc then x.2 || y.2 else x.2
  if bad then d'.arrive ⟨0x01, w % 4096, w24 a, w24 v.toNat⟩ else d'

/-- A register write: REG_HOLE at an address the map leaves unimplemented, else by field types (R9, R10). -/
theorem regWrite_cases (d : Dev) (w a : Nat) (v : W24) :
    regWrite d w a v = match RegMap.lookup a with
      | none => d.arrive ⟨0x02, w % 4096, w24 a, w24 v.toNat⟩
      | some r => mapWrite d w a v r := by
  unfold regWrite
  cases RegMap.lookup a with
  | none => exact post_eq _ _ _ _ _
  | some r =>
    unfold mapWrite
    cases h : r.rwc
    · simp only [h, Bool.false_eq_true, if_false, post_eq]
    · simp only [h, if_true, post_eq]

theorem SameButRegs.mapWrite (d : Dev) (w a : Nat) (v : W24) (r : RegRow) : SameButRegs d (mapWrite d w a v r) := by
  unfold Sys2Proof.Machine.mapWrite
  cases h : r.rwc
  · simp only [Bool.false_eq_true, if_false]
    split
    · exact .trans (.wr ..) (.arrive ..)
    · exact .wr ..
  · simp only [if_true]
    split
    · exact .trans (.trans (.wr ..) (.nwr ..)) (.arrive ..)
    · exact .trans (.wr ..) (.nwr ..)

/-- All that a register write can change: the live words, the next copies, and what arrives at the ledger. -/
theorem SameButRegs.regWrite (d : Dev) (w a : Nat) (v : W24) : SameButRegs d (regWrite d w a v) := by
  rw [regWrite_cases]
  split
  · exact .arrive ..
  · exact .mapWrite ..

@[simp] theorem regWrite_cores (d : Dev) (w a : Nat) (v : W24) : (regWrite d w a v).cores = d.cores := by
  have h := congrArg Dev.cores (SameButRegs.regWrite d w a v); exact h
@[simp] theorem regWrite_mkt (d : Dev) (w a : Nat) (v : W24) : (regWrite d w a v).mkt = d.mkt := by
  have h := congrArg Dev.mkt (SameButRegs.regWrite d w a v); exact h
@[simp] theorem regWrite_ecc (d : Dev) (w a : Nat) (v : W24) : (regWrite d w a v).ecc = d.ecc := by
  have h := congrArg Dev.ecc (SameButRegs.regWrite d w a v); exact h
@[simp] theorem regWrite_past (d : Dev) (w a : Nat) (v : W24) : (regWrite d w a v).past = d.past := by
  have h := congrArg Dev.past (SameButRegs.regWrite d w a v); exact h
@[simp] theorem regWrite_wrote (d : Dev) (w a : Nat) (v : W24) : (regWrite d w a v).wrote = d.wrote := by
  have h := congrArg Dev.wrote (SameButRegs.regWrite d w a v); exact h
@[simp] theorem regWrite_pkt (d : Dev) (w a : Nat) (v : W24) : (regWrite d w a v).pkt = d.pkt := by
  have h := congrArg Dev.pkt (SameButRegs.regWrite d w a v); exact h
@[simp] theorem regWrite_pecc (d : Dev) (w a : Nat) (v : W24) : (regWrite d w a v).pecc = d.pecc := by
  have h := congrArg Dev.pecc (SameButRegs.regWrite d w a v); exact h
@[simp] theorem regWrite_pscrub (d : Dev) (w a : Nat) (v : W24) : (regWrite d w a v).pscrub = d.pscrub := by
  have h := congrArg Dev.pscrub (SameButRegs.regWrite d w a v); exact h
@[simp] theorem regWrite_stage (d : Dev) (w a : Nat) (v : W24) : (regWrite d w a v).stage = d.stage := by
  have h := congrArg Dev.stage (SameButRegs.regWrite d w a v); exact h
@[simp] theorem regWrite_wings (d : Dev) (w a : Nat) (v : W24) : (regWrite d w a v).wings = d.wings := by
  have h := congrArg Dev.wings (SameButRegs.regWrite d w a v); exact h
@[simp] theorem regWrite_prog (d : Dev) (w a : Nat) (v : W24) : (regWrite d w a v).prog = d.prog := by
  have h := congrArg Dev.prog (SameButRegs.regWrite d w a v); exact h
@[simp] theorem regWrite_gecc (d : Dev) (w a : Nat) (v : W24) : (regWrite d w a v).gecc = d.gecc := by
  have h := congrArg Dev.gecc (SameButRegs.regWrite d w a v); exact h
@[simp] theorem regWrite_brd (d : Dev) (w a : Nat) (v : W24) : (regWrite d w a v).brd = d.brd := by
  have h := congrArg Dev.brd (SameButRegs.regWrite d w a v); exact h
@[simp] theorem regWrite_bq (d : Dev) (w a : Nat) (v : W24) : (regWrite d w a v).bq = d.bq := by
  have h := congrArg Dev.bq (SameButRegs.regWrite d w a v); exact h
@[simp] theorem regWrite_bdue (d : Dev) (w a : Nat) (v : W24) : (regWrite d w a v).bdue = d.bdue := by
  have h := congrArg Dev.bdue (SameButRegs.regWrite d w a v); exact h
@[simp] theorem regWrite_bheld (d : Dev) (w a : Nat) (v : W24) : (regWrite d w a v).bheld = d.bheld := by
  have h := congrArg Dev.bheld (SameButRegs.regWrite d w a v); exact h
@[simp] theorem regWrite_tallies (d : Dev) (w a : Nat) (v : W24) : (regWrite d w a v).tallies = d.tallies := by
  have h := congrArg Dev.tallies (SameButRegs.regWrite d w a v); exact h
@[simp] theorem regWrite_ovr (d : Dev) (w a : Nat) (v : W24) : (regWrite d w a v).ovr = d.ovr := by
  have h := congrArg Dev.ovr (SameButRegs.regWrite d w a v); exact h
@[simp] theorem regWrite_su (d : Dev) (w a : Nat) (v : W24) : (regWrite d w a v).su = d.su := by
  have h := congrArg Dev.su (SameButRegs.regWrite d w a v); exact h
@[simp] theorem regWrite_tus (d : Dev) (w a : Nat) (v : W24) : (regWrite d w a v).tus = d.tus := by
  have h := congrArg Dev.tus (SameButRegs.regWrite d w a v); exact h
@[simp] theorem regWrite_col (d : Dev) (w a : Nat) (v : W24) : (regWrite d w a v).col = d.col := by
  have h := congrArg Dev.col (SameButRegs.regWrite d w a v); exact h
@[simp] theorem regWrite_buses (d : Dev) (w a : Nat) (v : W24) : (regWrite d w a v).buses = d.buses := by
  have h := congrArg Dev.buses (SameButRegs.regWrite d w a v); exact h
@[simp] theorem regWrite_egress (d : Dev) (w a : Nat) (v : W24) : (regWrite d w a v).egress = d.egress := by
  have h := congrArg Dev.egress (SameButRegs.regWrite d w a v); exact h
@[simp] theorem regWrite_latched (d : Dev) (w a : Nat) (v : W24) : (regWrite d w a v).latched = d.latched := by
  have h := congrArg Dev.latched (SameButRegs.regWrite d w a v); exact h
@[simp] theorem regWrite_dus (d : Dev) (w a : Nat) (v : W24) : (regWrite d w a v).dus = d.dus := by
  have h := congrArg Dev.dus (SameButRegs.regWrite d w a v); exact h
@[simp] theorem regWrite_dyns (d : Dev) (w a : Nat) (v : W24) : (regWrite d w a v).dyns = d.dyns := by
  have h := congrArg Dev.dyns (SameButRegs.regWrite d w a v); exact h
@[simp] theorem regWrite_ramps (d : Dev) (w a : Nat) (v : W24) : (regWrite d w a v).ramps = d.ramps := by
  have h := congrArg Dev.ramps (SameButRegs.regWrite d w a v); exact h
@[simp] theorem regWrite_cue (d : Dev) (w a : Nat) (v : W24) : (regWrite d w a v).cue = d.cue := by
  have h := congrArg Dev.cue (SameButRegs.regWrite d w a v); exact h
@[simp] theorem regWrite_stalls (d : Dev) (w a : Nat) (v : W24) : (regWrite d w a v).stalls = d.stalls := by
  have h := congrArg Dev.stalls (SameButRegs.regWrite d w a v); exact h
@[simp] theorem regWrite_gov (d : Dev) (w a : Nat) (v : W24) : (regWrite d w a v).gov = d.gov := by
  have h := congrArg Dev.gov (SameButRegs.regWrite d w a v); exact h
@[simp] theorem regWrite_time (d : Dev) (w a : Nat) (v : W24) : (regWrite d w a v).time = d.time := by
  have h := congrArg Dev.time (SameButRegs.regWrite d w a v); exact h
@[simp] theorem regWrite_mcs (d : Dev) (w a : Nat) (v : W24) : (regWrite d w a v).mcs = d.mcs := by
  have h := congrArg Dev.mcs (SameButRegs.regWrite d w a v); exact h
@[simp] theorem regWrite_ports (d : Dev) (w a : Nat) (v : W24) : (regWrite d w a v).ports = d.ports := by
  have h := congrArg Dev.ports (SameButRegs.regWrite d w a v); exact h
@[simp] theorem regWrite_rings (d : Dev) (w a : Nat) (v : W24) : (regWrite d w a v).rings = d.rings := by
  have h := congrArg Dev.rings (SameButRegs.regWrite d w a v); exact h
@[simp] theorem regWrite_rx (d : Dev) (w a : Nat) (v : W24) : (regWrite d w a v).rx = d.rx := by
  have h := congrArg Dev.rx (SameButRegs.regWrite d w a v); exact h
@[simp] theorem regWrite_tx (d : Dev) (w a : Nat) (v : W24) : (regWrite d w a v).tx = d.tx := by
  have h := congrArg Dev.tx (SameButRegs.regWrite d w a v); exact h
@[simp] theorem regWrite_locs (d : Dev) (w a : Nat) (v : W24) : (regWrite d w a v).locs = d.locs := by
  have h := congrArg Dev.locs (SameButRegs.regWrite d w a v); exact h
@[simp] theorem regWrite_locOut (d : Dev) (w a : Nat) (v : W24) : (regWrite d w a v).locOut = d.locOut := by
  have h := congrArg Dev.locOut (SameButRegs.regWrite d w a v); exact h
@[simp] theorem regWrite_tbs (d : Dev) (w a : Nat) (v : W24) : (regWrite d w a v).tbs = d.tbs := by
  have h := congrArg Dev.tbs (SameButRegs.regWrite d w a v); exact h
@[simp] theorem regWrite_moves (d : Dev) (w a : Nat) (v : W24) : (regWrite d w a v).moves = d.moves := by
  have h := congrArg Dev.moves (SameButRegs.regWrite d w a v); exact h
@[simp] theorem regWrite_hostOut (d : Dev) (w a : Nat) (v : W24) : (regWrite d w a v).hostOut = d.hostOut := by
  have h := congrArg Dev.hostOut (SameButRegs.regWrite d w a v); exact h
@[simp] theorem regWrite_msixMask (d : Dev) (w a : Nat) (v : W24) : (regWrite d w a v).msixMask = d.msixMask := by
  have h := congrArg Dev.msixMask (SameButRegs.regWrite d w a v); exact h
@[simp] theorem regWrite_msixPba (d : Dev) (w a : Nat) (v : W24) : (regWrite d w a v).msixPba = d.msixPba := by
  have h := congrArg Dev.msixPba (SameButRegs.regWrite d w a v); exact h
@[simp] theorem regWrite_msixTab (d : Dev) (w a : Nat) (v : W24) : (regWrite d w a v).msixTab = d.msixTab := by
  have h := congrArg Dev.msixTab (SameButRegs.regWrite d w a v); exact h
@[simp] theorem regWrite_msixSent (d : Dev) (w a : Nat) (v : W24) : (regWrite d w a v).msixSent = d.msixSent := by
  have h := congrArg Dev.msixSent (SameButRegs.regWrite d w a v); exact h
@[simp] theorem regWrite_house (d : Dev) (w a : Nat) (v : W24) : (regWrite d w a v).house = d.house := by
  have h := congrArg Dev.house (SameButRegs.regWrite d w a v); exact h
@[simp] theorem regWrite_mc (d : Dev) (w a : Nat) (v : W24) : (regWrite d w a v).mc = d.mc := by
  have h := congrArg Dev.mc (SameButRegs.regWrite d w a v); exact h
@[simp] theorem regWrite_mcLatch (d : Dev) (w a : Nat) (v : W24) : (regWrite d w a v).mcLatch = d.mcLatch := by
  have h := congrArg Dev.mcLatch (SameButRegs.regWrite d w a v); exact h
@[simp] theorem regWrite_tick (d : Dev) (w a : Nat) (v : W24) : (regWrite d w a v).tick = d.tick := by
  have h := congrArg Dev.tick (SameButRegs.regWrite d w a v); exact h
@[simp] theorem regWrite_ticking (d : Dev) (w a : Nat) (v : W24) : (regWrite d w a v).ticking = d.ticking := by
  have h := congrArg Dev.ticking (SameButRegs.regWrite d w a v); exact h
@[simp] theorem regWrite_tail (d : Dev) (w a : Nat) (v : W24) : (regWrite d w a v).tail = d.tail := by
  have h := congrArg Dev.tail (SameButRegs.regWrite d w a v); exact h
@[simp] theorem regWrite_wliveApply (d : Dev) (w a : Nat) (v : W24) : (regWrite d w a v).wliveApply = d.wliveApply := by
  have h := congrArg Dev.wliveApply (SameButRegs.regWrite d w a v); exact h
@[simp] theorem regWrite_wliveHeld (d : Dev) (w a : Nat) (v : W24) : (regWrite d w a v).wliveHeld = d.wliveHeld := by
  have h := congrArg Dev.wliveHeld (SameButRegs.regWrite d w a v); exact h
@[simp] theorem regWrite_boardHeld (d : Dev) (w a : Nat) (v : W24) : (regWrite d w a v).boardHeld = d.boardHeld := by
  have h := congrArg Dev.boardHeld (SameButRegs.regWrite d w a v); exact h
@[simp] theorem regWrite_pcie (d : Dev) (w a : Nat) (v : W24) : (regWrite d w a v).pcie = d.pcie := by
  have h := congrArg Dev.pcie (SameButRegs.regWrite d w a v); exact h
@[simp] theorem regWrite_ingressPub (d : Dev) (w a : Nat) (v : W24) : (regWrite d w a v).ingressPub = d.ingressPub := by
  have h := congrArg Dev.ingressPub (SameButRegs.regWrite d w a v); exact h
@[simp] theorem regWrite_ingressFl (d : Dev) (w a : Nat) (v : W24) : (regWrite d w a v).ingressFl = d.ingressFl := by
  have h := congrArg Dev.ingressFl (SameButRegs.regWrite d w a v); exact h
@[simp] theorem regWrite_fresh (d : Dev) (w a : Nat) (v : W24) : (regWrite d w a v).fresh = d.fresh := by
  have h := congrArg Dev.fresh (SameButRegs.regWrite d w a v); exact h

theorem rd_mapWrite (d : Dev) (w a : Nat) (v : W24) (r : RegRow) (b : Nat) :
    rd (mapWrite d w a v r) b = rd (wr d a (wordWrite r false (rd d a) v).1) b := by
  unfold mapWrite
  dsimp only
  split <;> split <;> first | exact rd_arrive .. | rfl

/-- A register write touches the one word it names. -/
theorem rd_regWrite_other (d : Dev) (w a : Nat) (v : W24) {b : Nat} (h : b ≠ a) :
    rd (regWrite d w a v) b = rd d b := by
  rw [regWrite_cases]
  split
  · exact rd_of_ctl rfl b
  · rw [rd_mapWrite, rd_wr_other _ _ h]

/-- What the live word is after a write to a register of the map. -/
theorem rd_regWrite_same (d : Dev) (w a : Nat) (v : W24) {r : RegRow} (h : RegMap.lookup a = some r) :
    rd (regWrite d w a v) a = (wordWrite r false (rd d a) v).1 := by
  rw [regWrite_cases, h]
  exact (rd_mapWrite ..).trans (rd_wr_same ..)

theorem fld_regWrite_reg (d : Dev) (w a : Nat) (v : W24) (g : Fld) (j : Nat) (h : g.addr j ≠ a) :
    fld (regWrite d w a v) g j = fld d g j := by unfold fld; rw [rd_regWrite_other _ _ _ _ h]

end Sys2Proof.Machine
end

