-- ==== Sys2Proof/Laws/Exec.lean ====
section
/-!
SUPPORT. What an Ikimal word can do (R88 to R99): a word whose effects stay within its core, a word whose condition does
not hold.
-/
namespace Sys2Proof.Machine

/-! ## Differing in one core -/

theorem OnlyCore.refl (c : Nat) (d : Dev) : OnlyCore c d d := ⟨fun _ _ => rfl, rfl⟩

theorem OnlyCore.trans {c : Nat} {a b e : Dev} (h : OnlyCore c a b) (k : OnlyCore c b e) : OnlyCore c a e :=
  ⟨fun j hj => (k.1 j hj).trans (h.1 j hj), by rw [← h.2, ← k.2]⟩

theorem OnlyCore.setCore (c : Nat) (d : Dev) (k : Core) : OnlyCore c d (setCore d c k) :=
  ⟨fun _ hj => core_setCore_other d k hj, rfl⟩

theorem OnlyCore.updCore (c : Nat) (d : Dev) (f : Core → Core) : OnlyCore c d (updCore d c f) :=
  .setCore c d _

theorem OnlyCore.ctl {c : Nat} {d d' : Dev} (h : OnlyCore c d d') : d'.ctl = d.ctl := by
  have e := congrArg Dev.ctl h.2; exact e

theorem OnlyCore.pscrub {c : Nat} {d d' : Dev} (h : OnlyCore c d d') : d'.pscrub = d.pscrub := by
  have e := congrArg Dev.pscrub h.2; exact e

theorem OnlyCore.inKat {c : Nat} {d d' : Dev} (h : OnlyCore c d d') (j : Nat) : inKat d' j = inKat d j := by
  unfold Machine.inKat; rw [fld_of_ctl h.ctl]

/-! ## Cores at the start of a word -/

/-- Beginning a word writes visible loads; it leaves all that decides the word's course. -/
theorem Core.begin_same (k : Core) : k.begin.pc = k.pc ∧ k.begin.loops = k.loops ∧ k.begin.st = k.st
    ∧ k.begin.preds = k.preds ∧ k.begin.run = k.run ∧ k.begin.hold = k.hold ∧ k.begin.words = k.words
    ∧ k.begin.rpc = k.rpc := ⟨rfl, rfl, rfl, rfl, rfl, rfl, rfl, rfl⟩

theorem Core.tick_same (k : Core) : k.tick.pc = k.pc ∧ k.tick.loops = k.loops ∧ k.tick.loads = k.loads
    ∧ k.tick.st = k.st ∧ k.tick.preds = k.preds ∧ k.tick.run = k.run ∧ k.tick.hold = k.hold
    ∧ k.tick.words = k.words ∧ { k.tick with rpc := k.rpc } = k := by
  unfold Core.tick; split <;> exact ⟨rfl, rfl, rfl, rfl, rfl, rfl, rfl, rfl, rfl⟩

/-- With nothing in flight a core begins a word as it stands. -/
theorem Core.begin_quiet {k : Core} (h : k.loads = []) (h' : k.fold = []) : k.begin = k := by
  unfold Core.begin
  rw [h, h']
  simp only [settle, foldDue]
  cases k
  simp only at h h'
  subst h h'
  rfl

/-- No visible load that waits for its data: no register is late. -/
theorem Core.lateFor_none {k : Core} (h : ∀ l ∈ k.loads, k.words < l.due) (ps : List Nat) : k.lateFor ps = none := by
  unfold Core.lateFor
  rw [List.find?_eq_none.mpr]
  · rfl
  · intro l hl
    have := h l hl
    simp; omega

/-! ## Effects within the core -/

/-- An effect that stays within its core and leaves the loop stack to the word's end. -/
def Eff.isLocal : Eff → Bool
  | .reg _ _ | .acc _ _ | .flags _ | .pred _ _ | .be _ | .bit (.localBit _) _ | .load _ _ (.value _) => true
  | .special n _ => n = 1 || (decide (6 ≤ n) && decide (n ≤ 12)) || decide (16 ≤ n)
  | _ => false

/-- What decides where a core goes next. -/
def Core.course (k : Core) : Run × BitVec 16 × List Loop × BitVec 13 × Nat × Hold :=
  (k.run, k.pc, k.loops, k.rpc, k.words, k.hold)

theorem Core.put_course (k : Core) (p : Nat) (v : W24) : (k.put p v).course = k.course := by
  unfold Core.put; split <;> rfl

theorem Core.setSaved_course (k : Core) (s : Saved) : (k.setSaved s).course = k.course := by
  unfold Core.setSaved; split <;> rfl

theorem Core.top_course (k : Core) (f : Loop → Loop) (h : k.loops = []) : (k.top f).course = k.course := by
  unfold Core.top; rw [h]

theorem Core.spWrite_course (k : Core) (pc : Bool) (n : Nat) (v : W24) (h : n ≠ 2 ∧ n ≠ 3 ∧ n ≠ 4) :
    (k.spWrite pc n v).course = k.course := by
  unfold Core.spWrite
  split
  all_goals first
    | rfl
    | exact Core.setSaved_course ..
    | (exact absurd rfl h.1)
    | (exact absurd rfl h.2.1)
    | (exact absurd rfl h.2.2)
    | skip
  exact ite_ind (fun x : Core => x.course = k.course) rfl (ite_ind (fun x : Core => x.course = k.course) rfl rfl)

theorem coreEff_course {e : Eff} (he : e.isLocal = true) (k : Core) (pc late : Bool) :
    (coreEff k pc late e).course = k.course := by
  cases e with
  | reg p v => exact Core.put_course k p v
  | bit b op => cases b with
    | localBit a => rfl
    | board a => simp [Eff.isLocal] at he
  | special n v =>
    have h : ¬(2 ≤ n ∧ n ≤ 4) := by simp [Eff.isLocal] at he; omega
    exact ite_ind (fun x : Core => x.course = k.course) rfl (Core.spWrite_course k pc n v (by omega))
  | acc | flags | pred | be => rfl
  | load p n x => cases x with
    | value v => unfold coreEff Core.issue; dsimp only; split <;> rfl
    | _ => simp [Eff.isLocal] at he
  | _ => simp [Eff.isLocal] at he

theorem applyEff_local {e : Eff} (he : e.isLocal = true) {c : Nat} {d : Dev} (hk : inKat d c = false) (late : Bool) :
    applyEff c late d e = updCore d c fun k => coreEff k (isPc c) late e := by
  unfold applyEff
  cases e with
  | special n v =>
    have : n ≠ 0 := by rintro rfl; simp [Eff.isLocal] at he
    simp [hk, this]
  | bit b op => cases b with
    | localBit a => simp [hk]
    | board a => simp [Eff.isLocal] at he
  | load p n x => cases x with
    | value v => simp [hk]
    | _ => simp [Eff.isLocal] at he
  | reg | acc | flags | pred | be => simp [hk]
  | _ => simp [Eff.isLocal] at he

theorem foldl_local {c : Nat} (late : Bool) : ∀ (l : List Eff) (d : Dev), inKat d c = false →
    l.all Eff.isLocal = true →
    OnlyCore c d (l.foldl (applyEff c late) d) ∧
      core (l.foldl (applyEff c late) d) c = l.foldl (fun k e => coreEff k (isPc c) late e) (core d c)
  | [], d, _, _ => ⟨.refl c d, rfl⟩
  | e :: l, d, hk, hl => by
    rw [List.all_cons, Bool.and_eq_true] at hl
    simp only [List.foldl_cons]
    rw [applyEff_local hl.1 hk]
    have h1 : OnlyCore c d (updCore d c fun k => coreEff k (isPc c) late e) := .updCore ..
    obtain ⟨h2, h3⟩ := foldl_local late l (updCore d c fun k => coreEff k (isPc c) late e) ((h1.inKat c).trans hk) hl.2
    exact ⟨h1.trans h2, by rw [h3, core_updCore_same]⟩

theorem foldl_course (pc late : Bool) : ∀ (l : List Eff) (k : Core), l.all Eff.isLocal = true →
    (l.foldl (fun k e => coreEff k pc late e) k).course = k.course
  | [], _, _ => rfl
  | e :: l, k, hl => by
    rw [List.all_cons, Bool.and_eq_true] at hl
    simp only [List.foldl_cons]
    rw [foldl_course pc late l _ hl.2, coreEff_course hl.1]

theorem sampleLoad_local {e : Eff} (he : e.isLocal = true) (c : Nat) (u : BitVec 30) (d : Dev) :
    sampleLoad c u d e = (d, e) := by
  cases e with
  | load p n x => cases x with
    | value v => rfl
    | _ => simp [Eff.isLocal] at he
  | _ => rfl

theorem sampleLoads_local (c : Nat) (u : BitVec 30) (d : Dev) {l : List Eff} (hl : l.all Eff.isLocal = true) :
    sampleLoads c u d l = (d, l) := by
  unfold sampleLoads
  suffices h : ∀ (l r : List Eff), l.all Eff.isLocal = true →
      l.foldl (fun (x : Dev × List Eff) e => ((sampleLoad c u x.1 e).1, x.2 ++ [(sampleLoad c u x.1 e).2])) (d, r)
        = (d, r ++ l) by
    have := h l [] hl
    simpa using this
  intro l
  induction l with
  | nil => intro r _; simp
  | cons e l ih =>
    intro r hl
    rw [List.all_cons, Bool.and_eq_true] at hl
    simp only [List.foldl_cons, sampleLoad_local hl.1]
    rw [ih _ hl.2]
    simp

theorem pktScrub_quiet {d : Dev} (h : d.pscrub = []) (lo hi : Nat) : pktScrub d lo hi = d := by
  unfold pktScrub; rw [h]
  cases d
  simp only at h
  subst h
  rfl

theorem scrubFree_quiet {d : Dev} (h : d.pscrub = []) (c : Nat) : scrubFree d c = d :=
  ite_ind (fun x => x = d) rfl (pktScrub_quiet h _ _)

theorem scrubAfter_quiet {d : Dev} (h : d.pscrub = []) (c : Nat) (l : List Eff) : scrubAfter d c l = d := by
  unfold scrubAfter
  exact ite_ind (fun x => x = d) rfl (scrubFree_quiet h c)

theorem applyEffs_local {c : Nat} {d : Dev} (hk : inKat d c = false) (hp : d.pscrub = []) (late : Bool)
    (u : BitVec 30) {l : List Eff} (hl : l.all Eff.isLocal = true) :
    OnlyCore c d (applyEffs c late u d l) ∧
      core (applyEffs c late u d l) c = l.foldl (fun k e => coreEff k (isPc c) late e) (core d c) := by
  unfold applyEffs
  rw [sampleLoads_local c u d hl]
  obtain ⟨h1, h2⟩ := foldl_local late l d hk hl
  dsimp only
  rw [scrubAfter_quiet (h1.pscrub.trans hp)]
  exact ⟨h1, h2⟩

/-! ## The end of a word -/

/-- A program address within the store is its own remainder. -/
theorem ite_eq_right_of_lt {b : Bool} {n m : Nat} (h : n < m) : (if b = true then n % m else n) = n := by
  rw [Nat.mod_eq_of_lt h, ite_self]

/-- The ordinary end of a word (R95, R97). -/
theorem nextWord_follow {d : Dev} {c : Nat} (ns : Nat) (hk : inKat d c = false)
    (hs : (core d c).rpc = 0 →
      (endCheck (core d c).pc.toNat (core d c).loops ((core d c).pc.toNat + 1)).2.1 < storeSize c) :
    OnlyCore c d (nextWord d c (core d c).pc.toNat ns) ∧
      core (nextWord d c (core d c).pc.toNat ns) c
        = if (core d c).rpc = 0 then
            { core d c with
              loops := (endCheck (core d c).pc.toNat (core d c).loops ((core d c).pc.toNat + 1)).1
              pc := BitVec.ofNat 16 (endCheck (core d c).pc.toNat (core d c).loops ((core d c).pc.toNat + 1)).2.1 }
          else core d c := by
  unfold nextWord
  by_cases h0 : (core d c).rpc = 0
  · rw [if_pos h0, if_pos h0]
    unfold afterWord
    dsimp only
    rw [hk]
    simp only [Bool.false_eq_true, if_false]
    unfold goTo
    rw [ite_eq_right_of_lt (hs h0), if_pos (hs h0)]
    exact ⟨(OnlyCore.updCore ..).trans (.updCore ..), by rw [core_updCore_same, core_updCore_same]⟩
  · rw [if_neg h0, if_neg h0]
    exact ⟨.refl c d, rfl⟩

/-- The end of a word in a core whose course its effects left. -/
theorem end_follow {d d' : Dev} {c : Nat} (ns : Nat) {k : Core} (hk : inKat d c = false) (ho : OnlyCore c d d')
    (hc : core d' c = { k with words := k.words + 1, prefixed := false })
    (hs : k.rpc = 0 → (endCheck k.pc.toNat k.loops (k.pc.toNat + 1)).2.1 < storeSize c) :
    OnlyCore c d (nextWord d' c k.pc.toNat ns) ∧ core (nextWord d' c k.pc.toNat ns) c = k.follow := by
  have h := nextWord_follow (d := d') (c := c) ns (ho.inKat c ▸ hk) (by rw [hc]; exact hs)
  rw [hc] at h
  exact ⟨ho.trans h.1, h.2⟩

theorem mismatch_zero (d : Dev) (n pc w : Nat) : mismatch d n (BitVec.toNat (0 : BitVec w)) pc = d := by
  unfold mismatch; simp

/-! ## A word of a core that is ready -/

/-- What the condition of a word says of its core (R87, R125). -/
abbrev Word.holds (w : Word) (h : Hdr) (d : Dev) : Bool :=
  condHolds (if w.duet then duetCond h.cond.toNat else h.cond.toNat) (core d h.core.val).st (core d h.core.val).preds

/-- A word of a core that is ready goes straight to its body. -/
theorem runWord_ready {w : Word} {h : Hdr} {d : Dev} (hr : Ready d h) (hs : staticCase d h w = 0)
    (hi : w.holds h d = true → issueHold d h.core.val (w.body d (here d h)).effs = none) :
    runWord w h d
      = execBody (setCore d h.core.val (here d h)) h w
          { w.body d (here d h) with
            ign := (w.body d (here d h)).ign || prefixIgnored (core d h.core.val).begin (w.body d (here d h)) }
          (core d h.core.val).begin (w.holds h d) := by
  have t := (core d h.core.val).begin.tick_same.2.2.2.2.2.2.2.2
  unfold runWord
  dsimp only
  rw [hr.run, hr.hold, hs, hr.kat, hr.mm, show condHolds (if w.duet = true then duetCond h.cond.toNat else h.cond.toNat)
    (core d h.core.val).begin.st (core d h.core.val).begin.preds = w.holds h d from rfl]
  rw [if_neg (by decide), hr.fetch, if_neg Bool.false_ne_true]
  simp only [decide_true, Bool.true_and, Bool.false_eq_true, if_false, Bool.false_and, mismatch_zero, ite_self,
    if_neg (show ¬(0 : Nat) = 1 by decide), if_true]
  rw [Core.lateFor_none hr.late, ite_self]
  dsimp only
  rw [t]
  by_cases hc : w.holds h d = true
  · rw [if_pos hc, hi hc]
  · rw [if_neg hc]

theorem rsv_none (w m : Nat) : decide (BitVec.toNat (0 : BitVec w) &&& m ≠ 0) = false := by simp

/-- The end of a word: it is counted and goes on (R95, R97). -/
theorem flow_seq {d : Dev} {c : Nat} {pc : Nat} (ns : Nat) (atEnd : Bool) (rep : Bool) (rest : BitVec 13)
    (hk : inKat d c = false) (hpc : (core d c).pc.toNat = pc)
    (hs : (core d c).rpc = 0 →
      (endCheck (core d c).pc.toNat (core d c).loops ((core d c).pc.toNat + 1)).2.1 < storeSize c) :
    OnlyCore c d (doFlow (updCore d c fun k => { k with words := k.words + 1, prefixed := false }) c pc ns rep atEnd
        rest .seq)
      ∧ core (doFlow (updCore d c fun k => { k with words := k.words + 1, prefixed := false }) c pc ns rep atEnd
        rest .seq) c = (core d c).follow := by
  subst hpc
  exact end_follow ns hk (.updCore ..) (core_updCore_same ..) hs

/-- What a core that is ready has in common with the core its word's effects meet. -/
theorem here_same (d : Dev) (h : Hdr) :
    (here d h).pc = (core d h.core.val).pc ∧ (here d h).st = (core d h.core.val).st
      ∧ (here d h).preds = (core d h.core.val).preds ∧ (here d h).loops = (core d h.core.val).loops := by
  have t := (core d h.core.val).begin.tick_same
  exact ⟨t.1, t.2.2.2.1, t.2.2.2.2.1, t.2.1⟩

/-- A word that executes and ends in sequence: its effects, then the end of a word. -/
theorem runWord_seq {w : Word} {h : Hdr} {d D : Dev} {l : List Eff} (hr : Ready d h) (hw : w.rsv = false)
    (hs : staticCase d h w = 0) (hc : w.holds h d = true) (hb : w.body d (here d h) = { effs := l })
    (hi : issueHold d h.core.val l = none)
    (hD : applyEffs h.core.val h.late h.upset (setCore d h.core.val (here d h)) l = D)
    (hk : inKat D h.core.val = false) (hpc : (core D h.core.val).pc = (here d h).pc)
    (hst : (core D h.core.val).rpc = 0 →
      (endCheck (here d h).pc.toNat (core D h.core.val).loops ((here d h).pc.toNat + 1)).2.1 < storeSize h.core.val) :
    OnlyCore h.core.val D (runWord w h d) ∧ core (runWord w h d) h.core.val = (core D h.core.val).follow := by
  subst hD
  rw [runWord_ready hr hs (by intro _; rw [hb]; exact hi), hb, hc]
  unfold execBody
  dsimp only
  rw [if_pos rfl, hw, hr.rsv, rsv_none]
  simp only [Bool.and_false, Bool.false_eq_true, if_false, prefixIgnored, Bool.or_self, if_true]
  refine flow_seq _ _ _ _ hk ?_ (by rw [hpc]; exact hst)
  rw [hpc, (core d h.core.val).begin.tick_same.1]

/-- A word none of whose effects is a COLLECT or a write of the Board is not held (R22, R236). -/
theorem issueHold_none {d : Dev} {c : Nat} {l : List Eff}
    (h1 : ∀ e ∈ l, (∀ q, e ≠ .collect q) ∧ ∀ a op, e ≠ .bit (.board a) op) : issueHold d c l = none := by
  unfold issueHold
  refine ite_ind (fun x : Option Hold => x = none) rfl ?_
  rw [if_neg, if_neg]
  · rw [List.any_eq_true]; rintro ⟨e, he, h2⟩
    cases e with
    | bit b op => cases b with
      | board a => exact (h1 _ he).2 a op rfl
      | localBit a => cases h2
    | _ => cases h2
  · rw [List.any_eq_true]; rintro ⟨e, he, h2⟩
    cases e with
    | collect q => exact (h1 _ he).1 q rfl
    | _ => cases h2

theorem issueHold_local {d : Dev} {c : Nat} {l : List Eff} (hl : l.all Eff.isLocal = true) : issueHold d c l = none :=
  issueHold_none fun e he => by
    have := List.all_eq_true.mp hl e he
    cases e with
    | bit b op => cases b <;> simp_all [Eff.isLocal]
    | _ => simp_all [Eff.isLocal]

/-- A word whose effects stay within its core and that ends in sequence: the core alone changes. -/
theorem runWord_local {w : Word} {h : Hdr} {d : Dev} {l : List Eff} (hr : Ready d h) (hd : w.duet = false)
    (hw : w.rsv = false) (hs : staticCase d h w = 0) (hc : Passes d h)
    (hb : w.body d (here d h) = { effs := l }) (hl : l.all Eff.isLocal = true) :
    OnlyCore h.core.val d (runWord w h d) ∧
      core (runWord w h d) h.core.val
        = (l.foldl (fun k e => coreEff k (isPc h.core.val) h.late e) (here d h)).follow := by
  have hh : w.holds h d = true := by unfold Word.holds; rw [hd]; exact hc
  have hk : inKat (setCore d h.core.val (here d h)) h.core.val = false := (OnlyCore.setCore ..).inKat _ |>.trans hr.kat
  obtain ⟨h1, h2⟩ := applyEffs_local (c := h.core.val) (d := setCore d h.core.val (here d h)) hk hr.scrub h.late h.upset hl
  rw [core_setCore_same] at h2
  have hco := foldl_course (isPc h.core.val) h.late l (here d h) hl
  rw [← h2] at hco
  have e1 := congrArg (fun x => x.2.1) hco
  have e2 := congrArg (fun x => x.2.2.1) hco
  have e3 := congrArg (fun x => x.2.2.2.1) hco
  obtain ⟨h3, h4⟩ := runWord_seq hr hw hs hh hb (issueHold_local hl) rfl ((h1.inKat _).trans hk) e1
    (fun h0 => by
      have e2' : (core (applyEffs h.core.val h.late h.upset (setCore d h.core.val (here d h)) l) h.core.val).loops
        = (here d h).loops := e2
      rw [e2']
      exact hr.stays (e3.symm.trans h0))
  exact ⟨((OnlyCore.setCore ..).trans h1).trans h3, by rw [h4, h2]⟩

/-- A word whose condition does not hold does nothing and ends in sequence (R87, R132). -/
theorem runWord_suppressed {w : Word} {h : Hdr} {d : Dev} (hr : Ready d h) (hd : w.duet = false) (hw : w.rsv = false)
    (hs : staticCase d h w = 0) (hc : ¬Passes d h) (hg : (w.body d (here d h)).ign = false)
    (hf : (w.body d (here d h)).flow.prefixes = false)
    (hp : prefixIgnored (core d h.core.val).begin (w.body d (here d h)) = false) :
    OnlyCore h.core.val d (runWord w h d) ∧ core (runWord w h d) h.core.val = (here d h).follow := by
  have hh : w.holds h d = false := by unfold Word.holds; rw [hd]; exact Bool.eq_false_iff.mpr hc
  rw [runWord_ready hr hs (by rw [hh]; intro h; cases h), hh, hg, hp]
  unfold execBody
  dsimp only
  rw [hw, hr.rsv, rsv_none, hf, scrubFree_quiet (show (setCore d h.core.val (here d h)).pscrub = [] from hr.scrub)]
  simp only [Bool.false_and, Bool.false_eq_true, if_false, Bool.or_self]
  have h1 := flow_seq (d := setCore d h.core.val (here d h)) (c := h.core.val)
    (pc := (core d h.core.val).begin.pc.toNat) h.ns.toNat
    (match (core d h.core.val).begin.loops with | [] => false | l :: _ => l.le.toNat = (core d h.core.val).begin.pc.toNat)
    ((core d h.core.val).begin.rpc ≠ 0) (core d h.core.val).begin.rpc
    (((OnlyCore.setCore ..).inKat _).trans hr.kat)
    (by rw [core_setCore_same, (core d h.core.val).begin.tick_same.1]) (by rw [core_setCore_same]; exact hr.stays)
  rw [core_setCore_same] at h1
  exact ⟨(OnlyCore.setCore ..).trans h1.1, h1.2⟩

/-- A condition that holds is none of the reserved ones (R87). -/
theorem Passes.cond {d : Dev} {h : Hdr} (hc : Passes d h) : h.cond.toNat ≠ 15 := by
  intro h15; unfold Passes at hc; rw [h15] at hc; cases hc

/-- A word that the core has, that has no unassigned field, and whose condition holds, is in none of the first three
cases of R130. -/
theorem staticCase_zero {d : Dev} {h : Hdr} {w : Word} (hn : lacksWord d h.core.val w.need = false)
    (hb : w.bad = false) (hl : w.lacks = false) (hd : w.duet = false) (hc : h.cond.toNat ≠ 15) :
    staticCase d h w = 0 := by
  unfold staticCase; simp [hn, hb, hl, hd, hc]

/-- A word that stays within its core completes. -/
theorem wordDone_local {i : Instr} {h : Hdr} {s : State} {k : Core} (w : Word) (l : List Eff)
    (he : exec i s = execWord w h s) (hr : Ready s.dev h) (hc : Passes s.dev h)
    (hn : lacksWord s.dev h.core.val w.need = false) (hd : w.duet = false) (hw : w.rsv = false) (hb : w.bad = false)
    (hl : w.lacks = false) (hbody : w.body s.dev (here s.dev h) = { effs := l }) (hloc : l.all Eff.isLocal = true)
    (hk : (l.foldl (fun k e => coreEff k (isPc h.core.val) h.late e) (here s.dev h)).follow = k) :
    WordDone i h s k := by
  obtain ⟨h1, h2⟩ := runWord_local hr hd hw (staticCase_zero hn hb hl hd hc.cond) hc hbody hloc
  exact ⟨s.onDev (runWord w h), he, by rw [← hk]; exact h2, h1, rfl, rfl⟩

@[simp] theorem Core.flagged_none (k : Core) : k.flagged {} = k := rfl

/-- A word that writes one register and flags completes. -/
theorem wordDone_writes {i : Instr} {h : Hdr} {s : State} {rd : BitVec 5} {v v' : W24} {f f' : Flags} (w : Word)
    (he : exec i s = execWord w h s) (hr : Ready s.dev h) (hc : Passes s.dev h)
    (hn : lacksWord s.dev h.core.val w.need = false) (hd : w.duet = false) (hw : w.rsv = false) (hb : w.bad = false)
    (hl : w.lacks = false) (hbody : w.body s.dev (here s.dev h) = writes (here s.dev h) rd v f)
    (hv : v = v') (hf : f = f') :
    WordDone i h s (((here s.dev h).put ((here s.dev h).phys rd) v').flagged f').follow := by
  subst hv hf
  exact wordDone_local w _ he hr hc hn hd hw hb hl hbody rfl rfl

/-! ## Sums (R68, R140, R141) -/

theorem posOf_of_ctl {d d' : Dev} (h : d'.ctl = d.ctl) (c : Nat) : posOf d' c = posOf d c := by
  unfold posOf suPos; rw [fld_of_ctl h, fld_of_ctl h]

theorem inKat_of_ctl {d d' : Dev} (h : d'.ctl = d.ctl) (c : Nat) : inKat d' c = inKat d c := by
  unfold inKat; rw [fld_of_ctl h]

theorem OnlyCore.eq {c : Nat} {d d' : Dev} (h : OnlyCore c d d') : d' = { d with cores := d'.cores } := by
  have e := congrArg (fun x : Dev => { x with cores := d'.cores }) h.2
  exact e

theorem posOf_updCore (d : Dev) (c j : Nat) (f : Core → Core) : posOf (updCore d c f) j = posOf d j := posOf_of_ctl rfl j

theorem inKat_updCore (d : Dev) (c j : Nat) (f : Core → Core) : inKat (updCore d c f) j = inKat d j := inKat_of_ctl rfl j

theorem setf_withCores (d : Dev) (x : Tab Core) (f : Fld) (i v : Nat) :
    setf { d with cores := x } f i v = { setf d f i v with cores := x } := rfl

/-- What a word's fault bit does, outside the known-answer test (R68). -/
theorem setQuiet_spec {d : Dev} {c : Nat} (bit : Nat) (f : Fld) (hk : inKat d c = false) :
    core (setQuiet d c bit f) c = { core d c with st := (core d c).st ||| (1#24 <<< bit) }
      ∧ (∀ j, j ≠ c → core (setQuiet d c bit f) j = core d j)
      ∧ { setQuiet d c bit f with cores := d.cores } = if isPc c then d else setf d f (posOf d c) 1 := by
  unfold setQuiet
  dsimp only
  rw [inKat_updCore, hk, Bool.or_false, posOf_updCore]
  generalize posOf d c = p
  by_cases hp : isPc c = true
  · rw [if_pos hp, if_pos hp]
    exact ⟨core_updCore_same .., fun j hj => core_updCore_other _ _ hj, rfl⟩
  · rw [if_neg hp, if_neg hp]
    exact ⟨by rw [core_setf, core_updCore_same], fun j hj => by rw [core_setf, core_updCore_other _ _ hj], rfl⟩

/-- A register set in a device that differs in one core alone. -/
theorem OnlyCore.through {c : Nat} {d d1 e : Dev} {f : Fld} {i x : Nat} {b : Bool} (h : OnlyCore c d d1)
    (q : { e with cores := d1.cores } = if b then setf d1 f i x else d1) :
    { e with cores := d.cores } = if b then setf d f i x else d := by
  have e1 := congrArg (fun x : Dev => { x with cores := d.cores }) q
  refine Eq.trans (b := { (if b = true then setf d1 f i x else d1) with cores := d.cores }) e1 ?_
  have e2 := h.2
  cases b
  · exact e2
  · refine Eq.trans (b := setf { d1 with cores := d.cores } f i x) rfl ?_
    rw [e2]; rfl

/-- AG and AV of a sum. -/
theorem setSums_spec {d : Dev} {c : Nat} (ag av : Bool) (hk : inKat d c = false) :
    core (setSums d c ag av) c
        = { core d c with st := (core d c).st ||| (if ag then 0x20 else 0) ||| (if av then 0x10 else 0) }
      ∧ (∀ j, j ≠ c → core (setSums d c ag av) j = core d j)
      ∧ { setSums d c ag av with cores := d.cores }
        = if av && !isPc c then setf d F.SE_STICKY_AV (posOf d c) 1 else d := by
  unfold setSums
  generalize F.SE_STICKY_AV = f
  have h1 : OnlyCore c d (if ag then updCore d c fun k => { k with st := k.st ||| 0x20 } else d) :=
    ite_ind (OnlyCore c d ·) (.updCore ..) (.refl ..)
  have z : ∀ x : W24, x ||| 0 = x := fun x => BitVec.or_zero
  have h2 : core (if ag then updCore d c fun k => { k with st := k.st ||| 0x20 } else d) c
      = { core d c with st := (core d c).st ||| (if ag then 0x20 else 0) } := by
    cases ag
    · rw [if_neg Bool.false_ne_true, if_neg Bool.false_ne_true, z]
    · rw [if_pos rfl, if_pos rfl, core_updCore_same]
  generalize (if ag then updCore d c fun k => { k with st := k.st ||| 0x20 } else d) = d1 at h1 h2
  dsimp only
  cases av
  · rw [if_neg Bool.false_ne_true, if_neg Bool.false_ne_true, z, Bool.false_and, if_neg Bool.false_ne_true]
    exact ⟨h2, h1.1, h1.2⟩
  · obtain ⟨q1, q2, q3⟩ := setQuiet_spec (d := d1) (c := c) 4 f ((h1.inKat c).trans hk)
    rw [if_pos rfl, if_pos rfl, Bool.true_and]
    have sh : (1#24 <<< 4) = 0x10 := by decide
    refine ⟨by rw [q1, h2, sh], fun j hj => (q2 j hj).trans (h1.1 j hj), ?_⟩
    rw [posOf_of_ctl h1.ctl] at q3
    refine h1.through (b := !isPc c) ?_
    rw [q3]
    generalize posOf d c = p
    cases isPc c <;> simp

theorem setSums_pscrub (d : Dev) (c : Nat) (ag av : Bool) : (setSums d c ag av).pscrub = d.pscrub := by
  unfold setSums setQuiet
  generalize F.SE_STICKY_AV = f
  dsimp only
  refine ite_ind (fun x : Dev => x.pscrub = d.pscrub) ?_ (ite_ind (fun x : Dev => x.pscrub = d.pscrub) rfl rfl)
  refine ite_ind (fun x : Dev => x.pscrub = d.pscrub) ?_ ?_
  · exact ite_ind (fun x : Dev => x.pscrub = d.pscrub) rfl rfl
  · rw [setf_pscrub]
    exact ite_ind (fun x : Dev => x.pscrub = d.pscrub) rfl rfl

theorem inKat_setf (d : Dev) {f : Fld} {i : Nat} (x c : Nat) (hf : F.SU_STAT_MODE.addr 0 ≠ f.addr i) :
    inKat (setf d f i x) c = inKat d c := by
  unfold inKat; rw [fld_setf_reg _ _ _ _ _ _ hf]

theorem sticky_ne_mode (p : Nat) : F.SU_STAT_MODE.addr 0 ≠ F.SE_STICKY_AV.addr p := by
  simp [Fld.addr, F.SU_STAT_MODE, F.SE_STICKY_AV]; omega

/-- What `q` says of a device that sets one register beside its cores, of the known-answer test. -/
theorem inKat_through {d e : Dev} {f : Fld} {i x c : Nat} {b : Bool} (hf : F.SU_STAT_MODE.addr 0 ≠ f.addr i)
    (q : { e with cores := d.cores } = if b then setf d f i x else d) : inKat e c = inKat d c := by
  have h1 : e.ctl = (if b then setf d f i x else d).ctl := by have := congrArg Dev.ctl q; exact this
  rw [inKat_of_ctl h1]
  cases b
  · rfl
  · exact inKat_setf d x c hf

theorem applyEff_sums {d : Dev} {c : Nat} (late ag av : Bool) (hk : inKat d c = false) :
    applyEff c late d (.sums ag av) = setSums (updCore d c fun k => k) c ag av := by
  unfold applyEff; rw [hk]; rfl

/-- A word that writes an accumulator with AG and AV completes. -/
theorem sumDone_acc {i : Instr} {h : Hdr} {s : State} {n : Nat} {v v' : W56} {ag av av' : Bool} {st : W24} (w : Word)
    (he : exec i s = execWord w h s) (hr : Ready s.dev h) (hc : Passes s.dev h)
    (hn : lacksWord s.dev h.core.val w.need = false) (hd : w.duet = false) (hw : w.rsv = false) (hb : w.bad = false)
    (hl : w.lacks = false) (hbody : w.body s.dev (here s.dev h) = { effs := [.acc n v, .sums ag av] })
    (hv : v = v') (ha : av = av')
    (hst : (here s.dev h).st ||| (if ag then 0x20 else 0) ||| (if av then 0x10 else 0) = st) :
    SumDone i h s { here s.dev h with acc := Tab.set 0 (here s.dev h).acc n v', st := st }.follow av' := by
  subst hv ha hst
  have hh : w.holds h s.dev = true := by unfold Word.holds; rw [hd]; exact hc
  have o1 : OnlyCore h.core.val s.dev (setCore s.dev h.core.val (here s.dev h)) := .setCore ..
  have k1 := (o1.inKat h.core.val).trans hr.kat
  have o2 := (o1.trans (.updCore h.core.val (setCore s.dev h.core.val (here s.dev h))
    fun k => { k with acc := Tab.set 0 k.acc n v })).trans (.updCore h.core.val _ fun k => k)
  have k2 := (o2.inKat h.core.val).trans hr.kat
  have c2 : core (updCore (updCore (setCore s.dev h.core.val (here s.dev h)) h.core.val
      fun k => { k with acc := Tab.set 0 k.acc n v }) h.core.val fun k => k) h.core.val
        = { here s.dev h with acc := Tab.set 0 (here s.dev h).acc n v } := by
    rw [core_updCore_same, core_updCore_same, core_setCore_same]
  have e : applyEffs h.core.val h.late h.upset (setCore s.dev h.core.val (here s.dev h)) [.acc n v, .sums ag av]
      = setSums (updCore (updCore (setCore s.dev h.core.val (here s.dev h)) h.core.val
          fun k => { k with acc := Tab.set 0 k.acc n v }) h.core.val fun k => k) h.core.val ag av := by
    unfold applyEffs
    have es : sampleLoads h.core.val h.upset (setCore s.dev h.core.val (here s.dev h)) [.acc n v, .sums ag av]
      = (setCore s.dev h.core.val (here s.dev h), [.acc n v, .sums ag av]) := rfl
    rw [es]
    dsimp only [List.foldl]
    rw [applyEff_local (e := .acc n v) rfl k1, applyEff_sums _ _ _ ((inKat_updCore ..).trans k1)]
    refine scrubAfter_quiet ?_ _ _
    simp only [setSums_pscrub, updCore, setCore_pscrub]
    exact hr.scrub
  obtain ⟨q1, q2, q3⟩ := setSums_spec (c := h.core.val) ag av k2
  rw [c2] at q1
  rw [posOf_of_ctl o2.ctl] at q3
  have q4 := o2.through (b := av && !isPc h.core.val) q3
  rw [← e] at q1 q2 q4
  generalize hD : applyEffs h.core.val h.late h.upset (setCore s.dev h.core.val (here s.dev h))
    [.acc n v, .sums ag av] = D at q1 q2 q4
  obtain ⟨r1, r2⟩ := runWord_seq hr hw (staticCase_zero hn hb hl hd hc.cond) hh hbody (issueHold_none (by simp)) hD
    ((inKat_through (sticky_ne_mode _) q4).trans hr.kat) (by rw [q1]) (by rw [q1]; exact hr.stays)
  refine ⟨s.onDev (runWord w h), he, ?_, fun j hj => (r1.1 j hj).trans ((q2 j hj).trans (o2.1 j hj)), ?_, rfl, rfl⟩
  · rw [q1] at r2; exact r2
  · rw [← q4]
    have e3 := congrArg (fun x : Dev => { x with cores := s.dev.cores }) r1.2
    exact e3

end Sys2Proof.Machine
end

