-- ==== Sys2Proof/Laws/Flags.lean ====
section
/-!
SUPPORT. What the flag computations say of the exact values (R66, R86, R112, R140 to R142).
-/
namespace Sys2Proof.Machine

theorem zero_iff_toNat {w : Nat} (r : BitVec w) : decide (r = 0) = decide (r.toNat = 0) := by
  congr 1; rw [← BitVec.toNat_inj]; simp

theorem sign_iff_toInt {w : Nat} (r : BitVec w) : r.msb = decide (r.toInt < 0) := BitVec.msb_eq_toInt

/-- The signed value of a word. -/
theorem toInt24 (a : W24) : a.toInt = if a.msb then (a.toNat : Int) - 16777216 else a.toNat := by
  rw [BitVec.toInt_eq_msb_cond]; rfl

theorem msb24 (a : W24) : a.msb = decide (8388608 ≤ a.toNat) := by
  rw [BitVec.msb_eq_decide]

/-- The signed value of a byte. -/
theorem toInt8 (a : BitVec 8) : a.toInt = if a.msb then (a.toNat : Int) - 256 else a.toNat := by
  rw [BitVec.toInt_eq_msb_cond]; rfl

theorem msb8 (a : BitVec 8) : a.msb = decide (128 ≤ a.toNat) := by
  rw [BitVec.msb_eq_decide]

theorem b1_le (b : Bool) : b1 b ≤ 1 := by cases b <;> decide

theorem overflow24 (a b r : W24) (c : Nat) (hc : c ≤ 1) (hr : r = a + b + BitVec.ofNat 24 c) :
    (decide (a.msb = b.msb) && decide (r.msb ≠ a.msb)) = decide (r.toInt ≠ a.toInt + b.toInt + c) := by
  have hn : r.toNat = (a.toNat + b.toNat + c) % 16777216 := by
    subst hr; simp [BitVec.toNat_add]
  rw [Bool.eq_iff_iff]
  simp only [Bool.and_eq_true, decide_eq_true_eq, toInt24, msb24]
  have := a.isLt; have := b.isLt; have := r.isLt
  by_cases h1 : 8388608 ≤ a.toNat <;> by_cases h2 : 8388608 ≤ b.toNat <;> by_cases h3 : 8388608 ≤ r.toNat <;>
    simp [h1, h2, h3] <;> omega

theorem borrow24 (a b r : W24) (c : Nat) (hc : c ≤ 1) (hr : r = a - b - BitVec.ofNat 24 c) :
    (decide (a.msb ≠ b.msb) && decide (r.msb ≠ a.msb)) = decide (r.toInt ≠ a.toInt - b.toInt - c) := by
  have hn : r.toNat = (a.toNat + 33554432 - b.toNat - c) % 16777216 := by
    subst hr
    have := b.isLt
    rw [BitVec.toNat_sub, BitVec.toNat_sub, BitVec.toNat_ofNat]; omega
  rw [Bool.eq_iff_iff]
  simp only [Bool.and_eq_true, decide_eq_true_eq, toInt24, msb24]
  have := a.isLt; have := b.isLt; have := r.isLt
  by_cases h1 : 8388608 ≤ a.toNat <;> by_cases h2 : 8388608 ≤ b.toNat <;> by_cases h3 : 8388608 ≤ r.toNat <;>
    simp [h1, h2, h3] <;> omega

theorem overflow8 (a b r : BitVec 8) (c : Nat) (hc : c ≤ 1) (hr : r = a + b + BitVec.ofNat 8 c) :
    (decide (a.msb = b.msb) && decide (r.msb ≠ a.msb)) = decide (r.toInt ≠ a.toInt + b.toInt + c) := by
  have hn : r.toNat = (a.toNat + b.toNat + c) % 256 := by
    subst hr; simp [BitVec.toNat_add]
  rw [Bool.eq_iff_iff]
  simp only [Bool.and_eq_true, decide_eq_true_eq, toInt8, msb8]
  have := a.isLt; have := b.isLt; have := r.isLt
  by_cases h1 : 128 ≤ a.toNat <;> by_cases h2 : 128 ≤ b.toNat <;> by_cases h3 : 128 ≤ r.toNat <;>
    simp [h1, h2, h3] <;> omega

theorem borrow8 (a b r : BitVec 8) (c : Nat) (hc : c ≤ 1) (hr : r = a - b - BitVec.ofNat 8 c) :
    (decide (a.msb ≠ b.msb) && decide (r.msb ≠ a.msb)) = decide (r.toInt ≠ a.toInt - b.toInt - c) := by
  have hn : r.toNat = (a.toNat + 512 - b.toNat - c) % 256 := by
    subst hr
    have := b.isLt
    rw [BitVec.toNat_sub, BitVec.toNat_sub, BitVec.toNat_ofNat]; omega
  rw [Bool.eq_iff_iff]
  simp only [Bool.and_eq_true, decide_eq_true_eq, toInt8, msb8]
  have := a.isLt; have := b.isLt; have := r.isLt
  by_cases h1 : 128 ≤ a.toNat <;> by_cases h2 : 128 ≤ b.toNat <;> by_cases h3 : 128 ≤ r.toNat <;>
    simp [h1, h2, h3] <;> omega

/-- The flags of a 24-bit sum are those of the exact sum (R112). -/
theorem addC_flags (a b : W24) (c : Bool) :
    arithFlags (addC 24 a b c)
      = fourFlags (a + b + BitVec.ofNat 24 (b1 c)) (decide (2 ^ 24 ≤ a.toNat + b.toNat + b1 c))
        (a.toInt + b.toInt + b1 c) := by
  have hv := overflow24 a b _ (b1 c) (b1_le c) rfl
  unfold arithFlags addC fourFlags
  simp only [zero_iff_toNat, sign_iff_toInt (a + b + BitVec.ofNat 24 (b1 c))] at hv ⊢
  rw [← hv]

/-- The flags of a 24-bit difference are those of the exact difference (R112). -/
theorem subB_flags (a b : W24) (c : Bool) :
    arithFlags (subB 24 a b c)
      = fourFlags (a - b - BitVec.ofNat 24 (b1 c)) (decide (b.toNat + b1 c ≤ a.toNat))
        (a.toInt - b.toInt - b1 c) := by
  have hv := borrow24 a b _ (b1 c) (b1_le c) rfl
  unfold arithFlags subB fourFlags
  simp only [zero_iff_toNat, sign_iff_toInt (a - b - BitVec.ofNat 24 (b1 c))] at hv ⊢
  rw [← hv]

/-- The flags of an 8-bit sum are those of the exact sum (R86). -/
theorem addC_flags8 (a b : BitVec 8) (c : Bool) :
    arithFlags (addC 8 a b c)
      = fourFlags (a + b + BitVec.ofNat 8 (b1 c)) (decide (2 ^ 8 ≤ a.toNat + b.toNat + b1 c))
        (a.toInt + b.toInt + b1 c) := by
  have hv := overflow8 a b _ (b1 c) (b1_le c) rfl
  unfold arithFlags addC fourFlags
  simp only [zero_iff_toNat, sign_iff_toInt (a + b + BitVec.ofNat 8 (b1 c))] at hv ⊢
  rw [← hv]

/-- The flags of an 8-bit difference are those of the exact difference (R86). -/
theorem subB_flags8 (a b : BitVec 8) (c : Bool) :
    arithFlags (subB 8 a b c)
      = fourFlags (a - b - BitVec.ofNat 8 (b1 c)) (decide (b.toNat + b1 c ≤ a.toNat))
        (a.toInt - b.toInt - b1 c) := by
  have hv := borrow8 a b _ (b1 c) (b1_le c) rfl
  unfold arithFlags subB fourFlags
  simp only [zero_iff_toNat, sign_iff_toInt (a - b - BitVec.ofNat 8 (b1 c))] at hv ⊢
  rw [← hv]

/-! ## Shifts (R113) -/

theorem bit_of_div (x : W24) (i : Nat) : x.getLsbD i = decide (x.toNat / 2 ^ i % 2 = 1) := by
  rw [BitVec.getLsbD, Nat.testBit_eq_decide_div_mod_eq]

theorem shift_shl (x : W24) (n : Nat) :
    shift .shl x n
      = (BitVec.ofNat 24 (x.toNat * 2 ^ n),
          if n = 0 then none else some (decide (x.toNat * 2 ^ n / 2 ^ 24 % 2 = 1))) := by
  unfold shift
  by_cases h0 : n = 0
  · subst h0; simp
  · rw [if_neg h0, if_neg h0]
    dsimp only
    by_cases h1 : n ≤ 24
    · rw [if_pos h1, bit_of_div]
      have e0 : (2 : Nat) ^ 24 = 2 ^ (24 - n) * 2 ^ n := by rw [← Nat.pow_add]; congr 1; omega
      have e : x.toNat * 2 ^ n / 2 ^ 24 = x.toNat / 2 ^ (24 - n) := by
        rw [e0]; exact Nat.mul_div_mul_right _ _ (Nat.two_pow_pos _)
      rw [e]
      congr 1
      rw [← BitVec.toNat_inj]; simp [Nat.shiftLeft_eq]
    · rw [if_neg h1]
      have e0 : 2 ^ n = 2 ^ (n - 25) * 2 * 2 ^ 24 := by
        rw [← Nat.pow_succ, ← Nat.pow_add]; congr 1; omega
      have e : x.toNat * 2 ^ n = x.toNat * 2 ^ (n - 25) * 2 * 2 ^ 24 := by
        rw [e0]; simp only [Nat.mul_assoc]
      have e2 : x.toNat * 2 ^ n / 2 ^ 24 % 2 = 0 := by
        rw [e, Nat.mul_div_cancel _ (Nat.two_pow_pos _), Nat.mul_mod_left]
      rw [e2]
      congr 1
      rw [← BitVec.toNat_inj, BitVec.toNat_ofNat, e, Nat.mul_mod_left]; rfl

theorem shift_shr (x : W24) (n : Nat) :
    shift .shr x n
      = (BitVec.ofNat 24 (x.toNat / 2 ^ n), if n = 0 then none else some (decide (x.toNat / 2 ^ (n - 1) % 2 = 1))) := by
  have hx := x.isLt
  have hlt (m : Nat) : x.toNat / 2 ^ m < 2 ^ 24 := Nat.lt_of_le_of_lt (Nat.div_le_self _ _) hx
  unfold shift
  by_cases h0 : n = 0
  · subst h0; simp
  · rw [if_neg h0, if_neg h0]
    dsimp only
    by_cases h1 : n ≤ 24
    · rw [if_pos h1, bit_of_div]
      congr 1
      rw [← BitVec.toNat_inj, BitVec.toNat_ofNat, Nat.mod_eq_of_lt (hlt n)]
      simp [Nat.shiftRight_eq_div_pow]
    · rw [if_neg h1]
      have z (m : Nat) (hm : 24 ≤ m) : x.toNat / 2 ^ m = 0 :=
        Nat.div_eq_of_lt (Nat.lt_of_lt_of_le hx (Nat.pow_le_pow_right (by decide) hm))
      rw [z n (by omega), z (n - 1) (by omega)]
      rfl

theorem ofInt_toInt_div (x : W24) (n : Nat) : x.sshiftRight n = BitVec.ofInt 24 (x.toInt / 2 ^ n) := by
  rw [← BitVec.ofInt_toInt (x := x.sshiftRight n), BitVec.toInt_sshiftRight, Int.shiftRight_eq_div_pow]
  simp

theorem sshiftRight_bit (x : W24) (n : Nat) :
    (x.sshiftRight n).getLsbD 0 = decide (x.toInt / 2 ^ n % 2 = 1) := by
  have h : (x.sshiftRight n).toInt = x.toInt / 2 ^ n := by
    rw [BitVec.toInt_sshiftRight, Int.shiftRight_eq_div_pow]; simp
  rw [bit_of_div, ← h, toInt24, Nat.pow_zero, Nat.div_one]
  congr 1
  split <;> simp only [eq_iff_iff] <;> omega

theorem shift_asr (x : W24) (n : Nat) :
    shift .asr x n
      = (BitVec.ofInt 24 (x.toInt / 2 ^ n), if n = 0 then none else some (decide (x.toInt / 2 ^ (n - 1) % 2 = 1))) := by
  unfold shift
  by_cases h0 : n = 0
  · subst h0; simp
  · rw [if_neg h0, if_neg h0, ← ofInt_toInt_div, ← sshiftRight_bit]
    dsimp only
    by_cases h1 : n ≤ 24
    · rw [if_pos h1]
      congr 2
      rw [BitVec.getLsbD_sshiftRight]
      simp [show n - 1 < 24 by omega]
    · rw [if_neg h1]
      congr 1
      · apply BitVec.eq_of_getLsbD_eq
        intro i hi
        rw [BitVec.getLsbD_sshiftRight, BitVec.getLsbD_sshiftRight]
        simp [show ¬(24 + i < 24) by omega, show ¬(n + i < 24) by omega, hi]
      · rw [BitVec.getLsbD_sshiftRight]
        simp [show ¬(n - 1 < 24) by omega]

theorem shift_rol (x : W24) (n : Nat) :
    shift .rol x n
      = (BitVec.ofNat 24 (x.toNat * 2 ^ (n % 24) + x.toNat / 2 ^ (24 - n % 24)),
          if n = 0 then none
          else some (decide ((BitVec.ofNat 24 (x.toNat * 2 ^ (n % 24) + x.toNat / 2 ^ (24 - n % 24))).toNat % 2 = 1))) := by
  have e : x.rotateLeft (n % 24) = BitVec.ofNat 24 (x.toNat * 2 ^ (n % 24) + x.toNat / 2 ^ (24 - n % 24)) := by
    have hm : n % 24 < 24 := Nat.mod_lt _ (by decide)
    generalize n % 24 = m at hm
    rw [← BitVec.toNat_inj, BitVec.toNat_rotateLeft, Nat.mod_eq_of_lt hm, BitVec.toNat_ofNat, Nat.shiftLeft_eq,
      Nat.shiftRight_eq_div_pow]
    have hlt : x.toNat / 2 ^ (24 - m) < 2 ^ m := by
      rw [Nat.div_lt_iff_lt_mul (Nat.two_pow_pos _), ← Nat.pow_add]
      have := x.isLt; rwa [show m + (24 - m) = 24 by omega]
    have h2 : x.toNat * 2 ^ m % 2 ^ 24 = (x.toNat % 2 ^ (24 - m)) * 2 ^ m := by
      rw [← Nat.mul_mod_mul_right, ← Nat.pow_add, show 24 - m + m = 24 by omega]
    have h3 : x.toNat / 2 ^ (24 - m) < 2 ^ 24 := Nat.lt_of_le_of_lt (Nat.div_le_self _ _) x.isLt
    have h4 : x.toNat % 2 ^ (24 - m) + 1 ≤ 2 ^ (24 - m) := Nat.mod_lt _ (Nat.two_pow_pos _)
    have h5 := Nat.mul_le_mul_right (2 ^ m) h4
    rw [← Nat.pow_add, show 24 - m + m = 24 by omega, Nat.add_mul, Nat.one_mul] at h5
    have h6 : (x.toNat * 2 ^ m + x.toNat / 2 ^ (24 - m)) % 2 ^ 24
        = x.toNat % 2 ^ (24 - m) * 2 ^ m + x.toNat / 2 ^ (24 - m) := by
      rw [Nat.add_mod, h2, Nat.mod_eq_of_lt h3, Nat.mod_eq_of_lt (by omega)]
    rw [h6, h2, Nat.mul_comm _ (2 ^ m), ← Nat.two_pow_add_eq_or_of_lt hlt]
  unfold shift
  by_cases h0 : n = 0
  · subst h0
    have z : x.toNat / 16777216 = 0 := Nat.div_eq_of_lt x.isLt
    simp [z]
  · rw [if_neg h0, if_neg h0]
    dsimp only
    rw [e, bit_of_div]
    simp

/-! ## Accumulators (R116, R117, R140 to R142) -/

theorem toInt56 (a : W56) : a.toInt = if a.msb then (a.toNat : Int) - 72057594037927936 else a.toNat := by
  rw [BitVec.toInt_eq_msb_cond]; rfl

theorem msb56 (a : W56) : a.msb = decide (36028797018963968 ≤ a.toNat) := by
  rw [BitVec.msb_eq_decide]

/-- The signed value of an accumulator, by cases. -/
theorem toInt56_cases (a : W56) :
    (a.toNat < 36028797018963968 ∧ a.toInt = a.toNat)
      ∨ (36028797018963968 ≤ a.toNat ∧ a.toNat < 72057594037927936 ∧ a.toInt = (a.toNat : Int) - 72057594037927936) := by
  have := a.isLt
  rw [toInt56, msb56]
  by_cases h : 36028797018963968 ≤ a.toNat
  · right; simp [h]; omega
  · left; simp [h]; omega

/-- The signed value of a word, by cases. -/
theorem toInt24_cases (a : W24) :
    (a.toNat < 8388608 ∧ a.toInt = a.toNat)
      ∨ (8388608 ≤ a.toNat ∧ a.toNat < 16777216 ∧ a.toInt = (a.toNat : Int) - 16777216) := by
  have := a.isLt
  rw [toInt24, msb24]
  by_cases h : 8388608 ≤ a.toNat
  · right; simp [h]; omega
  · left; simp [h]; omega

/-- A sum under ST.ACCMODE (R140). -/
theorem accFit_spec (wrap : Bool) (s : Int) : accFit wrap s = (accOf wrap s, !inAcc s) := by
  unfold accFit accOf
  by_cases h1 : s > 2 ^ 55 - 1
  · have i : inAcc s = false := by unfold inAcc; rw [decide_eq_false (show ¬s < 2 ^ 55 by omega), Bool.and_false]
    rw [if_pos h1, i, if_neg (show ¬s < 0 by omega)]
    cases wrap <;> rfl
  · rw [if_neg h1]
    by_cases h2 : s < -(2 ^ 55)
    · have i : inAcc s = false := by unfold inAcc; rw [decide_eq_false (show ¬-(2 ^ 55) ≤ s by omega), Bool.false_and]
      rw [if_pos h2, i, if_pos (show s < 0 by omega)]
      cases wrap <;> rfl
    · have i : inAcc s = true := by
        unfold inAcc
        rw [decide_eq_true (show -(2 ^ 55) ≤ s by omega), decide_eq_true (show s < 2 ^ 55 by omega), Bool.and_self]
      rw [if_neg h2, i]
      rfl

/-- AG: the written value leaves 48 bits (R141). -/
theorem guardUsed_spec (a : W56) : guardUsed a = !(decide (-(2 ^ 47) ≤ a.toInt) && decide (a.toInt < 2 ^ 47)) := by
  have h0 : (a.extractLsb' 47 9).toNat = a.toNat / 140737488355328 := by
    rw [BitVec.extractLsb'_toNat, Nat.shiftRight_eq_div_pow]
    have := a.isLt; omega
  have h1 : (decide (a.extractLsb' 47 9 ≠ 0)) = decide (a.toNat / 140737488355328 ≠ 0) := by
    congr 1; rw [← h0, ne_eq, ← BitVec.toNat_inj]; rfl
  have h2 : (decide (a.extractLsb' 47 9 ≠ 0x1FF)) = decide (a.toNat / 140737488355328 ≠ 511) := by
    congr 1; rw [← h0, ne_eq, ← BitVec.toNat_inj]; rfl
  unfold guardUsed
  rw [h1, h2, Bool.eq_iff_iff]
  simp only [Bool.and_eq_true, decide_eq_true_eq, Bool.not_eq_true', Bool.and_eq_false_iff, decide_eq_false_iff_not]
  rcases toInt56_cases a with ⟨h3, h4⟩ | ⟨h3, h5, h4⟩ <;> rw [h4] <;> omega

/-- The rounding of R116. -/
theorem round_spec (r : Rnd) (a : W56) : (a.toInt + rndAdd r a) / 2 ^ 24 = roundAt24 r a.toInt := by
  have h0 : (a.extractLsb' 0 24).toNat = a.toNat % 16777216 := by
    rw [BitVec.extractLsb'_toNat]; simp
  have h1 : decide (a.extractLsb' 0 24 = 0x800000) = decide (a.toNat % 16777216 = 8388608) := by
    congr 1; rw [← h0, ← BitVec.toNat_inj]; rfl
  have h2 : a.getLsbD 24 = decide (a.toNat / 16777216 % 2 = 1) := by
    rw [BitVec.getLsbD, Nat.testBit_eq_decide_div_mod_eq]
  cases r with
  | trunc => simp [rndAdd, roundAt24]
  | halfup => simp only [rndAdd, roundAt24]; split <;> omega
  | conv =>
    simp only [rndAdd, roundAt24]
    rw [h1, h2]
    simp only [Bool.and_eq_true, decide_eq_true_eq, Bool.not_eq_true', decide_eq_false_iff_not]
    rcases toInt56_cases a with ⟨h3, h4⟩ | ⟨h3, h5, h4⟩ <;> rw [h4] <;> split <;> split <;> omega

/-- MACR's rounding (R142). -/
theorem accRound_spec (wrap : Bool) (a : W56) :
    accRound wrap a
      = if roundAt24 .conv a.toInt * 2 ^ 24 < 2 ^ 55 then (BitVec.ofInt 56 (roundAt24 .conv a.toInt * 2 ^ 24), false)
        else (if wrap then 0x80000000000000 else 0x7FFFFFFF000000, true) := by
  unfold accRound
  rw [round_spec]
  dsimp only
  by_cases h : roundAt24 .conv a.toInt * 2 ^ 24 < 2 ^ 55
  · rw [if_pos h, if_neg (by omega)]
  · rw [if_neg h, if_pos (by omega)]

/-- A product fits its accumulator (R138). -/
theorem product_spec (x y : W24) (int : Bool) :
    product x y int = x.toInt * y.toInt * (if int then 1 else 2) ∧ inAcc (product x y int) = true := by
  have hb : -(2 ^ 46) ≤ x.toInt * y.toInt ∧ x.toInt * y.toInt ≤ 2 ^ 46 := by
    have hx1 := BitVec.toInt_lt (x := x); have hx2 := BitVec.le_toInt (x := x)
    have hy1 := BitVec.toInt_lt (x := y); have hy2 := BitVec.le_toInt (x := y)
    have h1 : x.toInt.natAbs ≤ 2 ^ 23 := by omega
    have h2 : y.toInt.natAbs ≤ 2 ^ 23 := by omega
    have h3 := Nat.mul_le_mul h1 h2
    rw [← Int.natAbs_mul] at h3
    omega
  unfold product inAcc
  generalize x.toInt * y.toInt = p at *
  cases int
  · simp only [Bool.false_eq_true, if_false, Bool.and_eq_true, decide_eq_true_eq]; omega
  · simp only [if_true, Bool.and_eq_true, decide_eq_true_eq]; omega

/-- The count of R117 is what its definition says. -/
theorem signRun_spec {a : W56} {e : Nat} (h : SignBits a e) : signRun a = e := by
  have key : ∀ n, n ≤ 55 → (∀ i, n ≤ i → i < 55 → a.getLsbD i = a.msb) → runDown a a.msb n + (55 - n) = e := by
    intro n
    induction n with
    | zero =>
      intro _ hall
      by_cases he : e < 55
      · exact absurd (hall (54 - e) (Nat.zero_le _) (by omega)) (h.2.2 he)
      · have := h.1; simp only [runDown]; omega
    | succ n ih =>
      intro hn hall
      unfold runDown
      by_cases hb : a.getLsbD n = a.msb
      · rw [if_pos hb]
        have := ih (by omega) (by
          intro i hi hi'
          by_cases hin : i = n
          · rw [hin, hb]
          · exact hall i (by omega) hi')
        omega
      · rw [if_neg hb]
        have h1 : ¬ 54 - n < e := by
          intro hlt
          have := h.2.1 (54 - n) hlt
          rw [show 54 - (54 - n) = n by omega] at this
          exact hb this
        have h2 : ¬ e < 54 - n := by
          intro hlt
          have := hall (54 - e) (by omega) (by omega)
          exact h.2.2 (by omega) this
        omega
  have := key 55 (Nat.le_refl _) (by omega)
  unfold signRun; omega

theorem shiftLeft56 (a : W56) (n : Nat) : a <<< n = BitVec.ofInt 56 (a.toInt * 2 ^ n) := by
  rw [BitVec.shiftLeft_eq_mul_twoPow, BitVec.ofInt_mul, BitVec.ofInt_toInt]
  congr 1
  rw [← BitVec.toNat_inj, BitVec.toNat_twoPow, BitVec.toNat_ofInt]
  have e : ((2 : Int) ^ n) = ((2 ^ n : Nat) : Int) := by simp
  rw [e, ← Int.natCast_emod, Int.toNat_natCast]

theorem sshiftRight56 (a : W56) (n : Nat) : a.sshiftRight n = BitVec.ofInt 56 (a.toInt / 2 ^ n) := by
  rw [← BitVec.ofInt_toInt (x := a.sshiftRight n), BitVec.toInt_sshiftRight, Int.shiftRight_eq_div_pow]
  simp

end Sys2Proof.Machine
end

