-- ==== Sys2Proof/Laws/Market.lean ====
section
/-!
SUPPORT. What an access to the Market or a pocket can change (R170 to R174, R190, R191, R406).
-/
namespace Sys2Proof.Machine

/-- A probe's value reaches tally records alone (R406). -/
theorem tally_frame (d : Dev) (p t : Nat) (v : Int) : { tally d p t v with tallies := d.tallies } = d := rfl

/-- The wait of an access reaches tally records and the free values alone. -/
theorem mktWait_frame (d : Dev) (m : Nat) : { mktWait d m with tallies := d.tallies, fresh := d.fresh } = d := by
  unfold mktWait
  exact ite_ind (fun x : Dev => { x with tallies := d.tallies, fresh := d.fresh } = d) rfl rfl

theorem mktWait_mkt (d : Dev) (m : Nat) : (mktWait d m).mkt = d.mkt := by
  have e := congrArg Dev.mkt (mktWait_frame d m); exact e
theorem mktWait_ecc (d : Dev) (m : Nat) : (mktWait d m).ecc = d.ecc := by
  have e := congrArg Dev.ecc (mktWait_frame d m); exact e
theorem mktWait_stalls (d : Dev) (m : Nat) : (mktWait d m).stalls = d.stalls := by
  have e := congrArg Dev.stalls (mktWait_frame d m); exact e
theorem mktWait_past (d : Dev) (m : Nat) : (mktWait d m).past = d.past := by
  have e := congrArg Dev.past (mktWait_frame d m); exact e
theorem mktWait_ctl (d : Dev) (m : Nat) : (mktWait d m).ctl = d.ctl := by
  have e := congrArg Dev.ctl (mktWait_frame d m); exact e
theorem mktWait_cores (d : Dev) (m : Nat) : (mktWait d m).cores = d.cores := by
  have e := congrArg Dev.cores (mktWait_frame d m); exact e
theorem mktWait_wrote (d : Dev) (m : Nat) : (mktWait d m).wrote = d.wrote := by
  have e := congrArg Dev.wrote (mktWait_frame d m); exact e

/-- The check of a word that carries no error: nothing but the wait is seen of it. -/
theorem mktCheck_clean {d : Dev} {m a : Nat} (q : Bool) (h : Tab.get 0 d.ecc a = 0) :
    mktCheck d m a 0 q = (false, { d with ecc := Tab.set 0 d.ecc a 0 }) := by
  unfold mktCheck
  rw [h]
  rfl

/-- A read of a word that carries no error (R171). -/
theorem mktRead_clean {d : Dev} {m a : Nat} (ha : a < mktSize) (h : Tab.get 0 d.ecc a = 0) :
    mktRead d m a 0
      = (Tab.get 0 d.mkt a, false, { mktWait d m with ecc := Tab.set 0 (mktWait d m).ecc a 0 }) := by
  unfold mktRead
  rw [Nat.mod_eq_of_lt ha]
  dsimp only
  rw [mktCheck_clean false (by rw [mktWait_ecc]; exact h), mktWait_mkt]
  rfl

/-- What a full write can change (R170, R172). -/
theorem mktWrite_spec {d : Dev} {m a : Nat} (ha : a < mktSize) (v : W24) :
    (mktWrite d m a v).mkt = Tab.set 0 d.mkt a v ∧ (mktWrite d m a v).ecc = Tab.set 0 d.ecc a 0
      ∧ (mktWrite d m a v).stalls = { d.stalls with scrubs := d.stalls.scrubs.filter (· != a) }
      ∧ { mktWrite d m a v with
          mkt := d.mkt, ecc := d.ecc, past := d.past, stalls := d.stalls, tallies := d.tallies, fresh := d.fresh } = d := by
  have h0 := mktWait_frame d m
  have h1 := mktWait_mkt d m
  have h2 := mktWait_ecc d m
  have h3 := mktWait_stalls d m
  have h4 := mktWait_past d m
  unfold mktWrite
  rw [Nat.mod_eq_of_lt ha]
  dsimp only
  unfold tally tallyWhere mktPut
  dsimp only
  rw [h1, h2, h3]
  generalize mktWait d m = e at h0 h1 h2 h3 h4
  refine ⟨rfl, rfl, rfl, ?_⟩
  rw [← h4, ← h3, ← h2, ← h1]
  exact (show _ = { e with tallies := d.tallies, fresh := d.fresh } from rfl).trans (by rw [h0])

/-! ## Words that reach memory -/

/-- A word completes, given the device its effects leave. -/
theorem wordGives_of {i : Instr} {h : Hdr} {s : State} {k : Core} {P : Dev → Prop} {D : Dev} (w : Word) (l : List Eff)
    (he : exec i s = execWord w h s) (hr : Ready s.dev h) (hc : Passes s.dev h)
    (hn : lacksWord s.dev h.core.val w.need = false) (hd : w.duet = false) (hw : w.rsv = false) (hb : w.bad = false)
    (hl : w.lacks = false) (hbody : w.body s.dev (here s.dev h) = { effs := l })
    (hi : issueHold s.dev h.core.val l = none)
    (hD : applyEffs h.core.val h.late h.upset (setCore s.dev h.core.val (here s.dev h)) l = D)
    (hk : inKat D h.core.val = false) (hcore : core D h.core.val = k) (hcourse : k.course = (here s.dev h).course)
    (ho : ∀ j, j ≠ h.core.val → core D j = core s.dev j) (hP : ∀ D', OnlyCore h.core.val D D' → P D') :
    WordGives i h s k.follow P := by
  have hh : w.holds h s.dev = true := by unfold Word.holds; rw [hd]; exact hc
  have e1 : k.pc = (here s.dev h).pc := by have := congrArg (fun x => x.2.1) hcourse; exact this
  have e2 : k.loops = (here s.dev h).loops := by have := congrArg (fun x => x.2.2.1) hcourse; exact this
  have e3 : k.rpc = (here s.dev h).rpc := by have := congrArg (fun x => x.2.2.2.1) hcourse; exact this
  obtain ⟨r1, r2⟩ := runWord_seq hr hw (staticCase_zero hn hb hl hd hc.cond) hh hbody hi hD hk (by rw [hcore, e1])
    (by rw [hcore, e2, e3]; exact hr.stays)
  exact ⟨s.onDev (runWord w h), he, by rw [← hcore]; exact r2, fun j hj => (r1.1 j hj).trans (ho j hj), hP _ r1, rfl, rfl⟩

theorem readUndefined_of {d d' : Dev} (h : d'.wrote = d.wrote) (k : d'.ctl = d.ctl) (c a : Nat) :
    readUndefined d' (posOf d' c) a = readUndefined d (posOf d c) a := by
  unfold readUndefined; rw [h, posOf_of_ctl k]

theorem Core.issue_course (k : Core) (p n : Nat) (v : W24) (b : Bool) : (k.issue p n v b).course = k.course := by
  unfold Core.issue; dsimp only; split <;> rfl

/-- A load of a Market word that carries no error (R89, R171). -/
theorem wordGives_load {i : Instr} {h : Hdr} {s : State} {p n a : Nat} (w : Word) (ha : a < mktSize)
    (he : exec i s = execWord w h s) (hr : Ready s.dev h) (hc : Passes s.dev h)
    (hn : lacksWord s.dev h.core.val w.need = false) (hd : w.duet = false) (hw : w.rsv = false) (hb : w.bad = false)
    (hl : w.lacks = false) (src : LoadSrc) (v : W24)
    (hsrc : (src = .mkt a ∧ v = Tab.get 0 s.dev.mkt a) ∨ (src = .byte a ∧ v = Tab.get 0 s.dev.mkt a &&& 0xFF))
    (hbody : w.body s.dev (here s.dev h) = { effs := [.load p n src] }) (hrd : Readable s.dev h a) :
    WordGives i h s ((here s.dev h).issue p n v (!h.late)).follow (MarketRead s.dev) := by
  obtain ⟨hu, hecc, hund⟩ := hrd
  generalize hd0 : setCore s.dev h.core.val (here s.dev h) = d0
  have o1 : OnlyCore h.core.val s.dev d0 := by rw [← hd0]; exact .setCore ..
  have c1 : core d0 h.core.val = here s.dev h := by rw [← hd0]; exact core_setCore_same ..
  have m1 : d0.mkt = s.dev.mkt := by have e := congrArg Dev.mkt o1.2; exact e
  have x1 : d0.ecc = s.dev.ecc := by have e := congrArg Dev.ecc o1.2; exact e
  have w1 : d0.wrote = s.dev.wrote := by have e := congrArg Dev.wrote o1.2; exact e
  have t1 : d0.tallies = s.dev.tallies := by have e := congrArg Dev.tallies o1.2; exact e
  have f1 : d0.fresh = s.dev.fresh := by have e := congrArg Dev.fresh o1.2; exact e
  have hread : coreRead d0 h.core.val a h.upset
      = (Tab.get 0 s.dev.mkt a, { mktWait d0 h.core.val with ecc := Tab.set 0 (mktWait d0 h.core.val).ecc a 0 }) := by
    unfold coreRead
    rw [Nat.mod_eq_of_lt ha, hu]
    dsimp only
    rw [mktRead_clean ha (by rw [x1]; exact hecc), m1]
    dsimp only
    rw [if_neg]
    rcases hund with hp | hu'
    · simp [hp]
    · have : readUndefined { mktWait d0 h.core.val with ecc := Tab.set 0 (mktWait d0 h.core.val).ecc a 0 }
          (posOf { mktWait d0 h.core.val with ecc := Tab.set 0 (mktWait d0 h.core.val).ecc a 0 } h.core.val) a = false :=
        (readUndefined_of ((mktWait_wrote ..).trans w1) ((mktWait_ctl ..).trans o1.ctl) _ _).trans hu'
      intro h2
      exact Bool.false_ne_true (this.symm.trans ((Bool.and_eq_true _ _).mp h2).2)
  have h0 := mktWait_frame d0 h.core.val
  have hc2 : core (mktWait d0 h.core.val) h.core.val = here s.dev h := (core_of_cores (mktWait_cores ..) _).trans c1
  have hD : applyEffs h.core.val h.late h.upset d0 [.load p n src]
      = updCore { mktWait d0 h.core.val with ecc := Tab.set 0 (mktWait d0 h.core.val).ecc a 0 } h.core.val
          fun k => k.issue p n v (!h.late) := by
    have k2 : inKat { mktWait d0 h.core.val with ecc := Tab.set 0 (mktWait d0 h.core.val).ecc a 0 } h.core.val = false :=
      (inKat_of_ctl ((mktWait_ctl ..).trans o1.ctl) _).trans hr.kat
    have hs : sampleLoads h.core.val h.upset d0 [.load p n src]
        = ({ mktWait d0 h.core.val with ecc := Tab.set 0 (mktWait d0 h.core.val).ecc a 0 }, [.load p n (.value v)]) := by
      rcases hsrc with ⟨h1, h2⟩ | ⟨h1, h2⟩ <;> subst h1 h2 <;>
        · unfold sampleLoads sampleLoad
          simp only [List.foldl, hread, List.nil_append]
    unfold applyEffs
    rw [hs]
    dsimp only [List.foldl]
    rw [applyEff_local (e := .load p n (.value v)) rfl k2]
    refine scrubAfter_quiet ?_ _ _
    have e := congrArg Dev.pscrub h0
    exact (show _ = d0.pscrub from e).trans (o1.pscrub.trans hr.scrub)
  subst hd0
  refine wordGives_of w _ he hr hc hn hd hw hb hl hbody ?_ hD ?_ ?_ ?_ ?_ ?_
  · rcases hsrc with ⟨h1, _⟩ | ⟨h1, _⟩ <;> subst h1 <;> exact issueHold_none (by simp)
  · exact (inKat_updCore ..).trans ((inKat_of_ctl ((mktWait_ctl ..).trans o1.ctl) _).trans hr.kat)
  · rw [core_updCore_same]
    exact congrArg (fun k : Core => k.issue p n v (!h.late)) hc2
  · exact Core.issue_course ..
  · intro j hj
    rw [core_updCore_other _ _ hj]
    exact ((core_of_cores (mktWait_cores ..) j).trans (o1.1 j hj))
  · intro D' hD'
    have e1 := hD'.2
    generalize setCore s.dev h.core.val (here s.dev h) = d0 at *
    constructor
    · intro b
      have e2 : D'.ecc = Tab.set 0 (mktWait d0 h.core.val).ecc a 0 := by have e := congrArg Dev.ecc e1; exact e
      rw [e2, mktWait_ecc, x1]
      by_cases hb : b = a
      · subst hb; rw [Tab.get_set_same, hecc]
      · exact Tab.get_set_other _ _ _ _ hb
    · have e2 := congrArg (fun x : Dev =>
        { x with cores := s.dev.cores, ecc := s.dev.ecc, tallies := s.dev.tallies, fresh := s.dev.fresh }) e1
      have e3 := congrArg (fun x : Dev =>
        { x with cores := s.dev.cores, ecc := s.dev.ecc, tallies := s.dev.tallies, fresh := s.dev.fresh }) h0
      have e4 := congrArg (fun x : Dev =>
        { x with ecc := s.dev.ecc, tallies := s.dev.tallies, fresh := s.dev.fresh }) o1.2
      exact e2.trans (e3.trans e4)

/-- A store to a Market word (R170). -/
theorem wordGives_store {i : Instr} {h : Hdr} {s : State} {a : Nat} {v : W24} (w : Word) (ha : a < mktSize)
    (he : exec i s = execWord w h s) (hr : Ready s.dev h) (hc : Passes s.dev h)
    (hn : lacksWord s.dev h.core.val w.need = false) (hd : w.duet = false) (hw : w.rsv = false) (hb : w.bad = false)
    (hl : w.lacks = false) (hbody : w.body s.dev (here s.dev h) = { effs := [.store a v] }) :
    WordGives i h s (here s.dev h).follow (fun d => MarketWritten s.dev d a v) := by
  generalize hd0 : setCore s.dev h.core.val (here s.dev h) = d0
  have o1 : OnlyCore h.core.val s.dev d0 := by rw [← hd0]; exact .setCore ..
  have c1 : core d0 h.core.val = here s.dev h := by rw [← hd0]; exact core_setCore_same ..
  have o2 : OnlyCore h.core.val s.dev (updCore d0 h.core.val fun k => k) := o1.trans (.updCore ..)
  have c2 : core (updCore d0 h.core.val fun k => k) h.core.val = here s.dev h := (core_updCore_same ..).trans c1
  generalize hd1 : (updCore d0 h.core.val fun k => k) = d1 at o2 c2
  obtain ⟨s1, s2, s3, s4⟩ := mktWrite_spec (d := d1) (m := h.core.val) ha v
  generalize hd2 : mktWrite d1 h.core.val a v = d2 at s1 s2 s3 s4
  have t2 : d2.ctl = d1.ctl := by have e := congrArg Dev.ctl s4; exact e
  have t3 : d2.cores = d1.cores := by have e := congrArg Dev.cores s4; exact e
  have hstore : coreWrite d1 h.core.val a v
      = if isPc h.core.val then d2 else { d2 with wrote := Tab.set 99 d2.wrote a (posOf d2 h.core.val) } := by
    unfold coreWrite
    rw [Nat.mod_eq_of_lt ha]
    dsimp only
    rw [hd2]
  generalize hd3 : (if isPc h.core.val then d2 else { d2 with wrote := Tab.set 99 d2.wrote a (posOf d2 h.core.val) }) = d3
    at hstore
  have u : { d3 with wrote := d2.wrote } = d2 := by
    rw [← hd3]; exact ite_ind (fun x : Dev => { x with wrote := d2.wrote } = d2) rfl rfl
  have u1 : d3.ctl = d2.ctl := by have e := congrArg Dev.ctl u; exact e
  have u2 : d3.cores = d2.cores := by have e := congrArg Dev.cores u; exact e
  have hD : applyEffs h.core.val h.late h.upset d0 [.store a v] = d3 := by
    have hs : sampleLoads h.core.val h.upset d0 [.store a v] = (d0, [.store a v]) := rfl
    unfold applyEffs
    rw [hs]
    dsimp only [List.foldl]
    have e1 : applyEff h.core.val h.late d0 (.store a v) = coreWrite d1 h.core.val a v := by
      unfold applyEff
      rw [(o1.inKat _).trans hr.kat]
      dsimp only
      rw [if_neg Bool.false_ne_true, if_neg Bool.false_ne_true, ← hd1]
      rfl
    rw [e1, hstore]
    refine scrubAfter_quiet ?_ _ _
    have e2 := congrArg Dev.pscrub u
    have e3 := congrArg Dev.pscrub s4
    exact (show d3.pscrub = d2.pscrub from e2).trans ((show d2.pscrub = d1.pscrub from e3).trans (o2.pscrub.trans hr.scrub))
  subst hd0
  refine wordGives_of w _ he hr hc hn hd hw hb hl hbody (issueHold_none (by simp)) hD ?_ ?_ rfl ?_ ?_
  · exact (inKat_of_ctl (u1.trans (t2.trans o2.ctl)) _).trans hr.kat
  · exact (core_of_cores (u2.trans t3) _).trans c2
  · intro j hj
    exact (core_of_cores (u2.trans t3) _).trans (o2.1 j hj)
  · intro D' hD'
    have e1 := hD'.2
    have m1 : D'.mkt = Tab.set 0 s.dev.mkt a v := by
      have e := congrArg Dev.mkt e1
      have e' := congrArg Dev.mkt u
      have e'' := congrArg Dev.mkt o2.2
      exact (show D'.mkt = d3.mkt from e).trans ((show d3.mkt = d2.mkt from e').trans (s1.trans
        (by rw [show d1.mkt = s.dev.mkt from e''])))
    have m2 : D'.ecc = Tab.set 0 s.dev.ecc a 0 := by
      have e := congrArg Dev.ecc e1
      have e' := congrArg Dev.ecc u
      have e'' := congrArg Dev.ecc o2.2
      exact (show D'.ecc = d3.ecc from e).trans ((show d3.ecc = d2.ecc from e').trans (s2.trans
        (by rw [show d1.ecc = s.dev.ecc from e''])))
    have m3 : D'.stalls = { s.dev.stalls with scrubs := s.dev.stalls.scrubs.filter (· != a) } := by
      have e := congrArg Dev.stalls e1
      have e' := congrArg Dev.stalls u
      have e'' := congrArg Dev.stalls o2.2
      exact (show D'.stalls = d3.stalls from e).trans ((show d3.stalls = d2.stalls from e').trans (s3.trans
        (by rw [show d1.stalls = s.dev.stalls from e''])))
    refine ⟨?_, ?_, ?_, ?_, ?_, ?_, ?_⟩
    · rw [m1, Tab.get_set_same]
    · rw [m2, Tab.get_set_same]
    · intro b hb'; rw [m1]; exact Tab.get_set_other _ _ _ _ hb'
    · intro b hb'; rw [m2]; exact Tab.get_set_other _ _ _ _ hb'
    · rw [m3]
    · have f1 := congrArg (fun x : Dev => { x with
        cores := s.dev.cores, mkt := s.dev.mkt, ecc := s.dev.ecc, past := s.dev.past, stalls := s.dev.stalls, tallies := s.dev.tallies,
        fresh := s.dev.fresh, wrote := s.dev.wrote }) e1
      have f2 := congrArg (fun x : Dev => { x with
        cores := s.dev.cores, mkt := s.dev.mkt, ecc := s.dev.ecc, past := s.dev.past, stalls := s.dev.stalls, tallies := s.dev.tallies,
        fresh := s.dev.fresh, wrote := s.dev.wrote }) u
      have f3 := congrArg (fun x : Dev => { x with
        cores := s.dev.cores, mkt := s.dev.mkt, ecc := s.dev.ecc, past := s.dev.past, stalls := s.dev.stalls, tallies := s.dev.tallies,
        fresh := s.dev.fresh, wrote := s.dev.wrote }) s4
      have f4 := congrArg (fun x : Dev => { x with
        mkt := s.dev.mkt, ecc := s.dev.ecc, past := s.dev.past, stalls := s.dev.stalls, tallies := s.dev.tallies,
        fresh := s.dev.fresh, wrote := s.dev.wrote }) o2.2
      exact f1.trans (f2.trans (f3.trans f4))
    · rw [m3]

/-- A source word that is clean, and that nobody has written since the transform started, is read as it stands (R154). -/
theorem sourceWord_same {d : Dev} {u a : Nat} (hp : ∀ e ∈ d.past, e.1 ≠ u ∨ e.2.1 ≠ a) (he : Tab.get 0 d.ecc a = 0) :
    sourceWord d u [] a
      = (Tab.get 0 d.mkt a, false, { mktWait d (23 + u) with ecc := Tab.set 0 (mktWait d (23 + u)).ecc a 0 }) := by
  have hv : sourceVersions d u a = [(Tab.get 0 d.mkt a, Tab.get 0 d.ecc a)] := by
    unfold sourceVersions
    rw [List.filter_eq_nil_iff.2 (by
      intro e h
      rcases hp e h with h' | h' <;> simp [h'])]
    rfl
  unfold sourceWord
  simp only [hv]
  simp only [List.length_cons, List.length_nil, Nat.reduceAdd, if_true, BitVec.toNat_ofNat, Nat.zero_mod, Nat.mod_one,
    List.getD_cons_zero, List.contains_nil, Bool.false_eq_true, if_false]
  rw [mktCheck_clean false (by rw [mktWait_ecc]; exact he)]
  rfl

end Sys2Proof.Machine
end

