-- ==== Sys2Proof/Laws/Order.lean ====
section
/-!
SUPPORT. What the accesses that waited behind a held Board write do when it proceeds (R22, R437).
-/
namespace Sys2Proof.Machine

/-- No access is made again where none was held. -/
@[simp] theorem reissue_nil (s : State) : reissue s [] = s := rfl

/-- Nothing proceeds where nothing waits. -/
theorem boardGo_nil {s : State} (h : s.dev.boardHeld = []) : boardGo s = s := by
  unfold boardGo; rw [h]; split <;> rfl

/-- Nothing proceeds while the device is HALTED (R402). -/
theorem boardGo_halted {s : State} (h : halted s.dev = true) : boardGo s = s := if_pos h

/-- One access that waited proceeds once. -/
theorem boardGo_one {s : State} {e : Nat × Nat × Option W24} (h : halted s.dev = false) (hb : s.dev.boardHeld = [e]) :
    boardGo s = reissue (s.onDev fun d => { d with boardHeld := [] }) [e] := by
  unfold boardGo; rw [h, if_neg (by decide), hb]; simp only [List.foldl_cons, List.foldl_nil, hb]

/-- Accesses are made again one after another. -/
theorem reissue_append (s : State) (l m : List (Nat × Nat × Option W24)) :
    reissue s (l ++ m) = reissue (reissue s l) m := List.foldl_append ..

end Sys2Proof.Machine
end

