-- ==== Sys2Proof/Laws/PerInstr.lean ====
section
/-!
SUPPORT. Which rows are Ikimal words, one lemma per row: a row has a word (R107 to R111, R125) exactly where it carries
a word's header.
-/
namespace Sys2Proof.Laws.Words

/-- The row has a word exactly where it carries a word's header. -/
def Statement (i : Instr) : Prop := (encodeWord i).isSome = i.hdr.isSome

theorem nop (h : Hdr) : Statement (.nop h) := rfl
theorem add (h : Hdr) (rd ra : BitVec 5) (b : Src) : Statement (.add h rd ra b) := by cases b <;> rfl
theorem addc (h : Hdr) (rd ra rb : BitVec 5) : Statement (.addc h rd ra rb) := rfl
theorem sub (h : Hdr) (rd ra : BitVec 5) (b : Src) : Statement (.sub h rd ra b) := by cases b <;> rfl
theorem subb (h : Hdr) (rd ra rb : BitVec 5) : Statement (.subb h rd ra rb) := rfl
theorem and (h : Hdr) (rd ra : BitVec 5) (b : Src) : Statement (.and h rd ra b) := by cases b <;> rfl
theorem or (h : Hdr) (rd ra : BitVec 5) (b : Src) : Statement (.or h rd ra b) := by cases b <;> rfl
theorem xor (h : Hdr) (rd ra : BitVec 5) (b : Src) : Statement (.xor h rd ra b) := by cases b <;> rfl
theorem shl (h : Hdr) (rd ra : BitVec 5) (s : Amt) : Statement (.shl h rd ra s) := by cases s <;> rfl
theorem shr (h : Hdr) (rd ra : BitVec 5) (s : Amt) : Statement (.shr h rd ra s) := by cases s <;> rfl
theorem asr (h : Hdr) (rd ra : BitVec 5) (s : Amt) : Statement (.asr h rd ra s) := by cases s <;> rfl
theorem rol (h : Hdr) (rd ra : BitVec 5) (s : Amt) : Statement (.rol h rd ra s) := by cases s <;> rfl
theorem min (h : Hdr) (rd ra rb : BitVec 5) : Statement (.min h rd ra rb) := rfl
theorem max (h : Hdr) (rd ra rb : BitVec 5) : Statement (.max h rd ra rb) := rfl
theorem cmp (h : Hdr) (ra : BitVec 5) (b : Src) : Statement (.cmp h ra b) := by cases b <;> rfl
theorem mov (h : Hdr) (rd ra : BitVec 5) : Statement (.mov h rd ra) := rfl
theorem abs (h : Hdr) (rd ra : BitVec 5) : Statement (.abs h rd ra) := rfl
theorem neg (h : Hdr) (rd ra : BitVec 5) : Statement (.neg h rd ra) := rfl
theorem movi (h : Hdr) (rd : BitVec 5) (imm : BitVec 15) : Statement (.movi h rd imm) := rfl
theorem movu (h : Hdr) (rd : BitVec 5) (imm : BitVec 9) : Statement (.movu h rd imm) := rfl
theorem addB (h : Hdr) (rd ra rb : BitVec 5) : Statement (.addB h rd ra rb) := rfl
theorem addcB (h : Hdr) (rd ra rb : BitVec 5) : Statement (.addcB h rd ra rb) := rfl
theorem subB (h : Hdr) (rd ra rb : BitVec 5) : Statement (.subB h rd ra rb) := rfl
theorem subbB (h : Hdr) (rd ra rb : BitVec 5) : Statement (.subbB h rd ra rb) := rfl
theorem cmpB (h : Hdr) (ra rb : BitVec 5) : Statement (.cmpB h ra rb) := rfl
theorem mpy (h : Hdr) (ad : BitVec 2) (xs xt : BitVec 5) (f : Bool) : Statement (.mpy h ad xs xt f) := rfl
theorem mac (h : Hdr) (ad : BitVec 2) (xs xt : BitVec 5) (f : Bool) : Statement (.mac h ad xs xt f) := rfl
theorem msu (h : Hdr) (ad : BitVec 2) (xs xt : BitVec 5) (f : Bool) : Statement (.msu h ad xs xt f) := rfl
theorem macr (h : Hdr) (ad : BitVec 2) (xs xt : BitVec 5) (f : Bool) : Statement (.macr h ad xs xt f) := rfl
theorem mac2 (h : Hdr) (a1 : BitVec 2) (s1 t1 : BitVec 3) (a2 : BitVec 2) (s2 t2 : BitVec 3) (m1 m2 f : Bool) : Statement (.mac2 h a1 s1 t1 a2 s2 t2 m1 m2 f) := rfl
theorem clra (h : Hdr) (mask : BitVec 4) : Statement (.clra h mask) := rfl
theorem mova (h : Hdr) (rd : BitVec 5) (as_ : BitVec 2) (rnd : BitVec 2) (ns : Bool) : Statement (.mova h rd as_ rnd ns) := rfl
theorem exp (h : Hdr) (rd : BitVec 5) (as_ : BitVec 2) : Statement (.exp h rd as_) := rfl
theorem norm (h : Hdr) (ad : BitVec 2) (rd : BitVec 5) : Statement (.norm h ad rd) := rfl
theorem scla (h : Hdr) (ad : BitVec 2) (right : Bool) : Statement (.scla h ad right) := rfl
theorem bxd (h : Hdr) (as_ : BitVec 2) (start : Bool) : Statement (.bxd h as_ start) := rfl
theorem mfs (h : Hdr) (rd : BitVec 5) (sn : BitVec 6) : Statement (.mfs h rd sn) := rfl
theorem mts (h : Hdr) (rs : BitVec 5) (sn : BitVec 6) : Statement (.mts h rs sn) := rfl
theorem ld (h : Hdr) (sp : BitVec 2) (rd xa : BitVec 5) (bk : BitVec 2) (d : BitVec 8) : Statement (.ld h sp rd xa bk d) := rfl
theorem st (h : Hdr) (sp : BitVec 2) (rs xa : BitVec 5) (bk : BitVec 2) (d : BitVec 8) : Statement (.st h sp rs xa bk d) := rfl
theorem ldp (h : Hdr) (rd xa : BitVec 5) (d : BitVec 10) : Statement (.ldp h rd xa d) := rfl
theorem stp (h : Hdr) (rs xa : BitVec 5) (d : BitVec 10) : Statement (.stp h rs xa d) := rfl
theorem ldc (h : Hdr) (rd xa : BitVec 5) (d : BitVec 10) : Statement (.ldc h rd xa d) := rfl
theorem stc (h : Hdr) (rs xa : BitVec 5) (d : BitVec 10) : Statement (.stc h rs xa d) := rfl
theorem ldb (h : Hdr) (rd xa : BitVec 5) (d : BitVec 10) : Statement (.ldb h rd xa d) := rfl
theorem stb (h : Hdr) (rs xa : BitVec 5) (d : BitVec 10) : Statement (.stb h rs xa d) := rfl
theorem ldw (h : Hdr) (rd : BitVec 5) (wr : WinRef) : Statement (.ldw h rd wr) := by cases wr <;> rfl
theorem stw (h : Hdr) (rs : BitVec 5) (wr : WinRef) : Statement (.stw h rs wr) := by cases wr <;> rfl
theorem bset (h : Hdr) (b : BitRef) : Statement (.bset h b) := by cases b <;> rfl
theorem bclr (h : Hdr) (b : BitRef) : Statement (.bclr h b) := by cases b <;> rfl
theorem btgl (h : Hdr) (b : BitRef) : Statement (.btgl h b) := by cases b <;> rfl
theorem btst (h : Hdr) (b : BitRef) : Statement (.btst h b) := by cases b <;> rfl
theorem bmov (h : Hdr) (p : BitVec 3) (b : BitRef) : Statement (.bmov h p b) := by cases b <;> rfl
theorem bput (h : Hdr) (p : BitVec 3) (b : BitRef) : Statement (.bput h p b) := by cases b <;> rfl
theorem pand (h : Hdr) (pd pa pb : BitVec 3) (na nb : Bool) : Statement (.pand h pd pa pb na nb) := rfl
theorem por (h : Hdr) (pd pa pb : BitVec 3) (na nb : Bool) : Statement (.por h pd pa pb na nb) := rfl
theorem pxor (h : Hdr) (pd pa pb : BitVec 3) (na nb : Bool) : Statement (.pxor h pd pa pb na nb) := rfl
theorem dyn (h : Hdr) (rd rs : BitVec 5) (ch : ChRef) : Statement (.dyn h rd rs ch) := by cases ch <;> rfl
theorem collect (h : Hdr) (as_ : BitVec 2) (idle : Bool) (bus : BitVec 9) : Statement (.collect h as_ idle bus) := rfl
theorem tucmd (h : Hdr) (unit bk : BitVec 2) (xa : BitVec 5) (d : BitVec 8) : Statement (.tucmd h unit bk xa d) := rfl
theorem bra (h : Hdr) (off : BitVec 15) : Statement (.bra h off) := rfl
theorem call (h : Hdr) (off : BitVec 15) : Statement (.call h off) := rfl
theorem callr (h : Hdr) (xs : BitVec 5) : Statement (.callr h xs) := rfl
theorem ret (h : Hdr) : Statement (.ret h) := rfl
theorem loop (h : Hdr) (count : BitVec 12) (e : BitVec 8) : Statement (.loop h count e) := rfl
theorem loopr (h : Hdr) (xc : BitVec 5) (e : BitVec 15) : Statement (.loopr h xc e) := rfl
theorem leave (h : Hdr) : Statement (.leave h) := rfl
theorem rep (h : Hdr) (n : BitVec 13) : Statement (.rep h n) := rfl
theorem repr (h : Hdr) (xs : BitVec 5) : Statement (.repr h xs) := rfl
theorem endProg (h : Hdr) : Statement (.endProg h) := rfl
theorem trap (h : Hdr) (num : BitVec 4) : Statement (.trap h num) := rfl
theorem reti (h : Hdr) : Statement (.reti h) := rfl
theorem wait (h : Hdr) : Statement (.wait h) := rfl
theorem duet (h : Hdr) (sa : BitVec 5) (oa : BitVec 9) (sb : BitVec 5) (ob : BitVec 9) : Statement (.duet h sa oa sb ob) := rfl
theorem unassigned (h : Hdr) (op : BitVec 7) (opd : BitVec 20) : Statement (.unassigned h op opd) := rfl
theorem loadDataArrival (c : Fin 19) (r : BitVec 7) : Statement (.loadDataArrival c r) := rfl
theorem collectFifoRoom (c : Fin 17) : Statement (.collectFifoRoom c) := rfl
theorem tickEdge (dt : BitVec 16) : Statement (.tickEdge dt) := rfl
theorem ingressLatch (loc : List LocSample) : Statement (.ingressLatch loc) := rfl
theorem rampPhase : Statement (.rampPhase) := rfl
theorem windowHeadAdvance : Statement (.windowHeadAdvance) := rfl
theorem engineRun : Statement (.engineRun) := rfl
theorem cutOffPoint : Statement (.cutOffPoint) := rfl
theorem collectorDrain (lane : Fin 4) (ns : BitVec 15) : Statement (.collectorDrain lane ns) := rfl
theorem busOutputStage : Statement (.busOutputStage) := rfl
theorem dynService (u : Fin 4) : Statement (.dynService u) := rfl
theorem suKatEnd : Statement (.suKatEnd) := rfl
theorem suTakeoverCmd (w : BitVec 6) (v : W24) : Statement (.suTakeoverCmd w v) := rfl
theorem suRelease (w : BitVec 6) (v : W24) : Statement (.suRelease w v) := rfl
theorem suClrfault (w : BitVec 6) (v : W24) : Statement (.suClrfault w v) := rfl
theorem suEnableWrite (w : BitVec 6) (v : W24) : Statement (.suEnableWrite w v) := rfl
theorem seEnableWrite (w : BitVec 6) (n : Fin 16) (v : W24) : Statement (.seEnableWrite w n v) := rfl
theorem ovrStatReopen (w : BitVec 6) (n : Fin 16) (v : W24) : Statement (.ovrStatReopen w n v) := rfl
theorem ovrStatClr (w : BitVec 6) (n : Fin 16) (v : W24) : Statement (.ovrStatClr w n v) := rfl
theorem duetClashClr (w : BitVec 6) (n : Fin 18) (v : W24) : Statement (.duetClashClr w n v) := rfl
theorem undPcClr (w : BitVec 6) (n : Fin 16) (v : W24) : Statement (.undPcClr w n v) := rfl
theorem stickyClr (w : BitVec 6) (n : Fin 16) (v : W24) : Statement (.stickyClr w n v) := rfl
theorem pktEccClr (w : BitVec 6) (n : Fin 17) (v : W24) : Statement (.pktEccClr w n v) := rfl
theorem mmlogClr (w : BitVec 6) (v : W24) : Statement (.mmlogClr w v) := rfl
theorem marketAccess (m : BitVec 6) (a : BitVec 26) (wr : Option W24) (flips : BitVec 30) (wait : W24) : Statement (.marketAccess m a wr flips wait) := rfl
theorem scrubWrite (k : Fin 129) : Statement (.scrubWrite k) := rfl
theorem bar2Write (a : BitVec 26) (be : HostBytes) (v : W32) : Statement (.bar2Write a be v) := rfl
theorem mktsClr (w : BitVec 6) (n : Fin 129) (v : W24) : Statement (.mktsClr w n v) := rfl
theorem ueLogClr (w : BitVec 6) (v : W24) : Statement (.ueLogClr w v) := rfl
theorem spareGo (w : BitVec 6) (v : W24) : Statement (.spareGo w v) := rfl
theorem sparingRedirect : Statement (.sparingRedirect) := rfl
theorem rehearsalSlotStart : Statement (.rehearsalSlotStart) := rfl
theorem rehearsalCopyOutDone : Statement (.rehearsalCopyOutDone) := rfl
theorem rehearsalTestDone (failed : Bool) : Statement (.rehearsalTestDone failed) := rfl
theorem rehearsalCopyBackDone : Statement (.rehearsalCopyBackDone) := rfl
theorem rehEnableWrite (w : BitVec 6) (v : W24) : Statement (.rehEnableWrite w v) := rfl
theorem winHeadWrite (w : BitVec 6) (n : BitVec 12) (v : W24) : Statement (.winHeadWrite w n v) := rfl
theorem wliveLoad (w : BitVec 6) (v : W24) : Statement (.wliveLoad w v) := rfl
theorem wliveApply (w : BitVec 6) (v : W24) : Statement (.wliveApply w v) := rfl
theorem wliveDone : Statement (.wliveDone) := rfl
theorem wclampClr (w : BitVec 6) (v : W24) : Statement (.wclampClr w v) := rfl
theorem boardViewSet (w : BitVec 6) (i : BitVec 12) (v : W24) : Statement (.boardViewSet w i v) := rfl
theorem boardViewClr (w : BitVec 6) (i : BitVec 12) (v : W24) : Statement (.boardViewClr w i v) := rfl
theorem tuQpush (w : BitVec 6) (u : Fin 2) (v : W24) : Statement (.tuQpush w u v) := rfl
theorem tuDescriptorStart (u : Fin 2) : Statement (.tuDescriptorStart u) := rfl
theorem tuDescriptorEnd (u : Fin 2) : Statement (.tuDescriptorEnd u) := rfl
theorem tuEnableWrite (w : BitVec 6) (u : Fin 2) (v : W24) : Statement (.tuEnableWrite w u v) := rfl
theorem tuCntClr (w : BitVec 6) (u : Fin 2) (v : W24) : Statement (.tuCntClr w u v) := rfl
theorem vaultDataAccess (w : BitVec 6) (wr : Option W24) (upset : BitVec 30) : Statement (.vaultDataAccess w wr upset) := rfl
theorem wrap (w : BitVec 6) (v : W24) : Statement (.wrap w v) := rfl
theorem unwrap (w : BitVec 6) (v : W24) : Statement (.unwrap w v) := rfl
theorem vaultCmdDone : Statement (.vaultCmdDone) := rfl
theorem sha384 (w : BitVec 6) (v : W24) : Statement (.sha384 w v) := rfl
theorem gcmenc (w : BitVec 6) (v : W24) : Statement (.gcmenc w v) := rfl
theorem gcmdec (w : BitVec 6) (v : W24) : Statement (.gcmdec w v) := rfl
theorem sign (w : BitVec 6) (v : W24) : Statement (.sign w v) := rfl
theorem verify (w : BitVec 6) (v : W24) : Statement (.verify w v) := rfl
theorem keygen (w : BitVec 6) (v : W24) : Statement (.keygen w v) := rfl
theorem random (w : BitVec 6) (v : W24) : Statement (.random w v) := rfl
theorem cryptoDone : Statement (.cryptoDone) := rfl
theorem cueSubmit (w : BitVec 6) (n : Fin 64) (v : W24) : Statement (.cueSubmit w n v) := rfl
theorem cueEntryCancel (w : BitVec 6) (n : Fin 64) (v : W24) : Statement (.cueEntryCancel w n v) := rfl
theorem cueLoad (w : BitVec 6) (v : W24) : Statement (.cueLoad w v) := rfl
theorem cueVerify (w : BitVec 6) (v : W24) : Statement (.cueVerify w v) := rfl
theorem autoload : Statement (.autoload) := rfl
theorem cueLoadDone : Statement (.cueLoadDone) := rfl
theorem cueSlotWrite (w : BitVec 6) (n : Fin 16) (hi : Bool) (v : W24) : Statement (.cueSlotWrite w n hi v) := rfl
theorem cueEnableWrite (w : BitVec 6) (v : W24) : Statement (.cueEnableWrite w v) := rfl
theorem wingsWrite (p : Fin 17) (a : BitVec 14) (v : W32) : Statement (.wingsWrite p a v) := rfl
theorem rampGo (w : BitVec 6) (n : BitVec 12) (v : W24) : Statement (.rampGo w n v) := rfl
theorem rampEnableWrite (w : BitVec 6) (v : W24) : Statement (.rampEnableWrite w v) := rfl
theorem rampStatClr (w : BitVec 6) (v : W24) : Statement (.rampStatClr w v) := rfl
theorem collEnableWrite (w : BitVec 6) (v : W24) : Statement (.collEnableWrite w v) := rfl
theorem collStatClr (w : BitVec 6) (v : W24) : Statement (.collStatClr w v) := rfl
theorem curtClose (w : BitVec 6) (v : W24) : Statement (.curtClose w v) := rfl
theorem curtOpen (w : BitVec 6) (v : W24) : Statement (.curtOpen w v) := rfl
theorem duEnableWrite (w : BitVec 6) (n : Fin 4) (v : W24) : Statement (.duEnableWrite w n v) := rfl
theorem duStatClr (w : BitVec 6) (n : Fin 4) (v : W24) : Statement (.duStatClr w n v) := rfl
theorem govWindowEnd : Statement (.govWindowEnd) := rfl
theorem avsTransactionEnd (ok : AvsEnd) : Statement (.avsTransactionEnd ok) := rfl
theorem avsRetry : Statement (.avsRetry) := rfl
theorem govLimitsWrite (w : BitVec 6) (v : W24) : Statement (.govLimitsWrite w v) := rfl
theorem watchdogKick (w : BitVec 6) (n : Fin 2) (v : W24) : Statement (.watchdogKick w n v) := rfl
theorem watchdogExpiry (n : Fin 2) : Statement (.watchdogExpiry n) := rfl
theorem linkUp (n : Fin 4) : Statement (.linkUp n) := rfl
theorem linkDown (n : Fin 4) (cause : BitVec 3) : Statement (.linkDown n cause) := rfl
theorem portConfigWrite (w : BitVec 6) (n : Fin 4) (v : W24) : Statement (.portConfigWrite w n v) := rfl
theorem portEnableWrite (w : BitVec 6) (n : Fin 4) (v : W24) : Statement (.portEnableWrite w n v) := rfl
theorem frameReceive (n : Fin 4) (f : RxFrame) : Statement (.frameReceive n f) := rfl
theorem streamPacket (n : Fin 4) (bytes : List Byte) : Statement (.streamPacket n bytes) := rfl
theorem pauseFrame (n : Fin 4) (q : BitVec 16) : Statement (.pauseFrame n q) := rfl
theorem pauseEnd (n : Fin 4) : Statement (.pauseEnd n) := rfl
theorem pauseStorm (n : Fin 4) : Statement (.pauseStorm n) := rfl
theorem holdoffEnd (n : Fin 4) : Statement (.holdoffEnd n) := rfl
theorem expressDiscard (n : Waiter) : Statement (.expressDiscard n) := rfl
theorem verifyMpacket (n : Fin 4) : Statement (.verifyMpacket n) := rfl
theorem respondMpacket (n : Fin 4) : Statement (.respondMpacket n) := rfl
theorem verifyTimer (n : Fin 4) : Statement (.verifyTimer n) := rfl
theorem frameBoundary (n : TxPoint) : Statement (.frameBoundary n) := rfl
theorem stepRequest (n : Fin 4) : Statement (.stepRequest n) := rfl
theorem stepReqFrame (n : Fin 4) (bytes : List Byte) : Statement (.stepReqFrame n bytes) := rfl
theorem stepAckFrame (n : Fin 4) (bytes : List Byte) : Statement (.stepAckFrame n bytes) := rfl
theorem stepNakFrame (n : Fin 4) (bytes : List Byte) : Statement (.stepNakFrame n bytes) := rfl
theorem stepReqTimeout (n : Fin 4) : Statement (.stepReqTimeout n) := rfl
theorem stepSwitch (n : Fin 4) : Statement (.stepSwitch n) := rfl
theorem stepUpTimeout (n : Fin 4) : Statement (.stepUpTimeout n) := rfl
theorem partnerExpiry (n : Fin 4) : Statement (.partnerExpiry n) := rfl
theorem portStepWrite (w : BitVec 6) (n : Fin 4) (v : W24) : Statement (.portStepWrite w n v) := rfl
theorem portCntclr (w : BitVec 6) (n : Fin 4) (v : W24) : Statement (.portCntclr w n v) := rfl
theorem ringTailWrite (w : BitVec 6) (r : Fin 8) (v : W24) : Statement (.ringTailWrite w r v) := rfl
theorem ringEnableWrite (w : BitVec 6) (r : Fin 8) (v : W24) : Statement (.ringEnableWrite w r v) := rfl
theorem ringClr (w : BitVec 6) (r : Fin 8) (v : W24) : Statement (.ringClr w r v) := rfl
theorem twiGo (w : BitVec 6) (v : W24) : Statement (.twiGo w v) := rfl
theorem twiDone (res : BitVec 2) (data : List Byte) : Statement (.twiDone res data) := rfl
theorem streamEnable (w : BitVec 6) (tx : Bool) (s : BitVec 10) (v : W24) : Statement (.streamEnable w tx s v) := rfl
theorem rxStreamDisable (w : BitVec 6) (s : BitVec 10) (v : W24) : Statement (.rxStreamDisable w s v) := rfl
theorem txStreamDisable (w : BitVec 6) (s : BitVec 10) (v : W24) : Statement (.txStreamDisable w s v) := rfl
theorem strmEnableWrite (w : BitVec 6) (v : W24) : Statement (.strmEnableWrite w v) := rfl
theorem strmClr (w : BitVec 6) (v : W24) : Statement (.strmClr w v) := rfl
theorem liveTimeout (s : BitVec 10) (legB : Bool) : Statement (.liveTimeout s legB) := rfl
theorem mcHiRead (w : BitVec 6) : Statement (.mcHiRead w) := rfl
theorem timeSnap (w : BitVec 6) (v : W24) : Statement (.timeSnap w v) := rfl
theorem timeSet (w : BitVec 6) (v : W24) : Statement (.timeSet w v) := rfl
theorem timeAdd (w : BitVec 6) (v : W24) : Statement (.timeAdd w v) := rfl
theorem timeStepApply : Statement (.timeStepApply) := rfl
theorem taiSecond : Statement (.taiSecond) := rfl
theorem s1enWrite (w : BitVec 6) (v : W24) : Statement (.s1enWrite w v) := rfl
theorem s2enWrite (w : BitVec 6) (v : W24) : Statement (.s2enWrite w v) := rfl
theorem familyChange (w : BitVec 6) (v : W24) : Statement (.familyChange w v) := rfl
theorem refSelWrite (w : BitVec 6) (v : W24) : Statement (.refSelWrite w v) := rfl
theorem s2calGo (w : BitVec 6) (v : W24) : Statement (.s2calGo w v) := rfl
theorem s2calDone (vtune : BitVec 8) : Statement (.s2calDone vtune) := rfl
theorem s2LockAttempt (tj : BitVec 8) : Statement (.s2LockAttempt tj) := rfl
theorem s2Locked : Statement (.s2Locked) := rfl
theorem s2Unlock (tj : BitVec 8) : Statement (.s2Unlock tj) := rfl
theorem refValid : Statement (.refValid) := rfl
theorem refQualified (dac : BitVec 20) : Statement (.refQualified dac) := rfl
theorem refInvalid : Statement (.refInvalid) := rfl
theorem loopUpdate (err : BitVec 32) (dac : BitVec 24) : Statement (.loopUpdate err dac) := rfl
theorem lockDeclared : Statement (.lockDeclared) := rfl
theorem lockLost : Statement (.lockLost) := rfl
theorem nolockTimeout (win : Bool) : Statement (.nolockTimeout win) := rfl
theorem mcsReturn (err : BitVec 32) : Statement (.mcsReturn err) := rfl
theorem slewDone : Statement (.slewDone) := rfl
theorem lpLockAttempt (n : Fin 2) (band : BitVec 5) (locks : Bool) : Statement (.lpLockAttempt n band locks) := rfl
theorem lpLoss (n : Fin 2) (absent : Bool) : Statement (.lpLoss n absent) := rfl
theorem lpEnableWrite (w : BitVec 6) (n : Fin 2) (v : W24) : Statement (.lpEnableWrite w n v) := rfl
theorem slaveFrame (p : Fin 26) (inGuard badLen : Bool) (phase : BitVec 11) (samples : List LocSample) : Statement (.slaveFrame p inGuard badLen phase samples) := rfl
theorem inputLockChange (p : Fin 26) (locked : Bool) (code : BitVec 18) : Statement (.inputLockChange p locked code) := rfl
theorem asrcSettled (a : Fin 8) : Statement (.asrcSettled a) := rfl
theorem locPortEnableWrite (w : BitVec 6) (p : Fin 34) (v : W24) : Statement (.locPortEnableWrite w p v) := rfl
theorem tdmStatClr (w : BitVec 6) (p : Fin 16) (v : W24) : Statement (.tdmStatClr w p v) := rfl
theorem aesiStatClr (w : BitVec 6) (a : Fin 8) (v : W24) : Statement (.aesiStatClr w a v) := rfl
theorem madiStatClr (w : BitVec 6) (m : Fin 2) (v : W24) : Statement (.madiStatClr w m v) := rfl
theorem tipSwitchChange (t : Fin 2) (ins : Bool) (ms : BitVec 16) : Statement (.tipSwitchChange t ins ms) := rfl
theorem typeMeasured (t : Fin 2) (z : Accessory) (ms : BitVec 16) : Statement (.typeMeasured t z ms) := rfl
theorem micUnmute (t : MuteEnd) : Statement (.micUnmute t) := rfl
theorem buttonPress (t : Fin 2) (ohm : BitVec 10) (ms : BitVec 16) : Statement (.buttonPress t ohm ms) := rfl
theorem buttonRelease (t : Fin 2) (ms : BitVec 16) : Statement (.buttonRelease t ms) := rfl
theorem buttonLong (t : Fin 2) (ms : BitVec 16) : Statement (.buttonLong t ms) := rfl
theorem hpCurrentLimit (t : Fin 2) (ms : BitVec 16) : Statement (.hpCurrentLimit t ms) := rfl
theorem remeasure (t : Fin 2) (ms : BitVec 16) : Statement (.remeasure t ms) := rfl
theorem tbEnableWrite (w : BitVec 6) (t : Fin 2) (v : W24) : Statement (.tbEnableWrite w t v) := rfl
theorem biasenWrite (w : BitVec 6) (t : Fin 2) (v : W24) : Statement (.biasenWrite w t v) := rfl
theorem tbBoardBaseWrite (w : BitVec 6) (t : Fin 2) (v : W24) : Statement (.tbBoardBaseWrite w t v) := rfl
theorem tbEvtRead (w : BitVec 6) (t : Fin 2) : Statement (.tbEvtRead w t) := rfl
theorem pcRunWrite (w : BitVec 6) (n : Fin 2) (v : W24) : Statement (.pcRunWrite w n v) := rfl
theorem pcResetWrite (w : BitVec 6) (n : Fin 2) (v : W24) : Statement (.pcResetWrite w n v) := rfl
theorem interruptEntry (n : Fin 2) : Statement (.interruptEntry n) := rfl
theorem waitWake (n : Fin 2) : Statement (.waitWake n) := rfl
theorem swset (w : BitVec 6) (s : BitVec 6) (v : W24) : Statement (.swset w s v) := rfl
theorem msixUnmask (s : BitVec 6) : Statement (.msixUnmask s) := rfl
theorem bar4Write (word : BitVec 20) (be : BitVec 4) (v : W32) : Statement (.bar4Write word be v) := rfl
theorem hostReset : Statement (.hostReset) := rfl
theorem hostStatClr (w : BitVec 6) (v : W24) : Statement (.hostStatClr w v) := rfl
theorem porterDescriptorStart (n : Fin 4) : Statement (.porterDescriptorStart n) := rfl
theorem porterDescriptorEnd (n : Fin 4) (host : List Byte) (hostErr : Option (BitVec 24)) : Statement (.porterDescriptorEnd n host hostErr) := rfl
theorem ptClr (w : BitVec 6) (n : Fin 4) (v : W24) : Statement (.ptClr w n v) := rfl
theorem powerGood (addr : BitVec 3) : Statement (.powerGood addr) := rfl
theorem powerLoss : Statement (.powerLoss) := rfl
theorem memTestDone (fails : List (BitVec 6 × BitVec 17)) : Statement (.memTestDone fails) := rfl
theorem bootImageChecked (a b : Option (List Byte)) : Statement (.bootImageChecked a b) := rfl
theorem runCmd (w : BitVec 6) (pec : BitVec 2) : Statement (.runCmd w pec) := rfl
theorem hushCmd (w : BitVec 6) (pec : BitVec 2) : Statement (.hushCmd w pec) := rfl
theorem darkCmd (w : BitVec 6) (pec : BitVec 2) : Statement (.darkCmd w pec) := rfl
theorem hushWake : Statement (.hushWake) := rfl
theorem wakeN : Statement (.wakeN) := rfl
theorem coreEnRise : Statement (.coreEnRise) := rfl
theorem grant (w : BitVec 6) (pec : BitVec 2) (v : W24) : Statement (.grant w pec v) := rfl
theorem nextEvent (w : BitVec 6) (pec : BitVec 2) (sec : BitVec 48) (ns : BitVec 30) (valid : Bool) : Statement (.nextEvent w pec sec ns valid) := rfl
theorem lcAdvance (w : BitVec 6) (pec : BitVec 2) (target : BitVec 3) (confirm : BitVec 16) : Statement (.lcAdvance w pec target confirm) := rfl
theorem smbState (pec : BitVec 2) : Statement (.smbState pec) := rfl
theorem smbGrantRead (pec : BitVec 2) : Statement (.smbGrantRead pec) := rfl
theorem smbNextEventRead (pec : BitVec 2) : Statement (.smbNextEventRead pec) := rfl
theorem smbSerial (pec : BitVec 2) : Statement (.smbSerial pec) := rfl
theorem smbLc (pec : BitVec 2) : Statement (.smbLc pec) := rfl
theorem smbTemp (pec : BitVec 2) (tj : BitVec 16) : Statement (.smbTemp pec tj) := rfl
theorem smbVcore (pec : BitVec 2) : Statement (.smbVcore pec) := rfl
theorem smbAlert (pec : BitVec 2) : Statement (.smbAlert pec) := rfl
theorem smbAlertClr (pec : BitVec 2) (v : BitVec 16) : Statement (.smbAlertClr pec v) := rfl
theorem smbAlertMask (pec : BitVec 2) (wr : Option (BitVec 16)) : Statement (.smbAlertMask pec wr) := rfl
theorem smbLedger (pec : BitVec 2) : Statement (.smbLedger pec) := rfl
theorem smbResetDevice (pec : BitVec 2) : Statement (.smbResetDevice pec) := rfl
theorem smbResetPc (pec : BitVec 2) (n : Fin 2) : Statement (.smbResetPc pec n) := rfl
theorem smbTamper (pec : BitVec 2) : Statement (.smbTamper pec) := rfl
theorem smbAlertResponse : Statement (.smbAlertResponse) := rfl
theorem tamperEvent (causes : BitVec 4) : Statement (.tamperEvent causes) := rfl
theorem pbDataAccess (w : BitVec 6) (wr : Option W24) : Statement (.pbDataAccess w wr) := rfl
theorem pbData3Access (w : BitVec 6) (wr : Option W24) : Statement (.pbData3Access w wr) := rfl
theorem pbWriteDone : Statement (.pbWriteDone) := rfl
theorem ledgerPost : Statement (.ledgerPost) := rfl
theorem ledgerStore : Statement (.ledgerStore) := rfl
theorem ledgerTailWrite (w : BitVec 6) (v : W24) : Statement (.ledgerTailWrite w v) := rfl
theorem ledgerClear (w : BitVec 6) (v : W24) : Statement (.ledgerClear w v) := rfl
theorem ledgerEntry0Read (w : BitVec 6) : Statement (.ledgerEntry0Read w) := rfl
theorem ledgCntclrAll (w : BitVec 6) (v : W24) : Statement (.ledgCntclrAll w v) := rfl
theorem ledgStatclr (w : BitVec 6) (v : W24) : Statement (.ledgStatclr w v) := rfl
theorem ledgCntclrCode (w : BitVec 6) (v : W24) : Statement (.ledgCntclrCode w v) := rfl
theorem flush (w : BitVec 6) (v : W24) : Statement (.flush w v) := rfl
theorem flushPeriod : Statement (.flushPeriod) := rfl
theorem flushDone : Statement (.flushDone) := rfl
theorem swpost (w : BitVec 6) (v : W24) : Statement (.swpost w v) := rfl
theorem tallyWindowEnd (n : Fin 64) : Statement (.tallyWindowEnd n) := rfl
theorem tallyEnableWrite (w : BitVec 6) (n : Fin 64) (v : W24) : Statement (.tallyEnableWrite w n v) := rfl
theorem tallyConfigWrite (w : BitVec 6) (n : Fin 64) (off : Fin 6) (v : W24) : Statement (.tallyConfigWrite w n off v) := rfl
theorem feed (w : BitVec 6) (n : Fin 64) (v : W24) : Statement (.feed w n v) := rfl
theorem tallyClr (w : BitVec 6) (n : Fin 64) (v : W24) : Statement (.tallyClr w n v) := rfl
theorem registerWrite (w : BitVec 6) (a : W24) (v : BusWord) : Statement (.registerWrite w a v) := rfl
theorem vaultWipeDone : Statement (.vaultWipeDone) := rfl
theorem tjAbove105 : Statement (.tjAbove105) := rfl
theorem rawButtonSign (t : Fin 2) : Statement (.rawButtonSign t) := rfl
theorem pcieLinkUp (speed width : BitVec 2) : Statement (.pcieLinkUp speed width) := rfl

end Sys2Proof.Laws.Words
end

