-- ==== Sys2Proof/Tests/Slice0.lean ====
section
/-!
SUPPORT. The model's own tests: well-formedness refuses, words decode to what they stand for, the spec's worked
examples, and the hypotheses of every statement met together. Expected results come from the spec's tables and worked
examples, whose places the comments name.
-/
set_option maxRecDepth 100000
set_option synthInstance.maxHeartbeats 4000000
set_option synthInstance.maxSize 100000
set_option linter.unusedVariables false

namespace Sys2Proof.Machine.Tests


/-! ## Well-formedness -/

/-- Words: reserved bits outside the layout, a duet with a condition of 8 or a reserved bit, an opcode that has a row. -/
theorem test_wf_refuses_words :
    ∀ i ∈ [Instr.ld { core := 0, rsv := 1 } 0 0 0 0 0, .add { core := 0, rsv := 1 } 0 0 (.imm 0), .movi { core := 0, rsv := 1 } 0 0,
      .duet { core := 0, cond := 8 } 0 0 0 0, .duet { core := 0, rsv := 1 } 0 0 0 0, .unassigned { core := 0 } 0x01 0,
      .unassigned { core := 0, rsv := 1 } 0x7F 0], i.wf = false := by decide

/-- Writes: a bit the row is about that is not as the row has it, and a master that does not write control space. -/
theorem test_wf_refuses_writes :
    ∀ i ∈ [Instr.suTakeoverCmd 32 0, .cueSubmit 16 0 0x800000, .cueEntryCancel 32 0 0x800000,
      .rxStreamDisable 32 0 0x800000, .txStreamDisable 32 0 0x800000, .cueLoad 32 0xC00000,
      .cueVerify 32 0x800000, .sha384 32 0x800002, .gcmenc 32 0x800001, .gcmdec 32 0x800001,
      .sign 32 0x800001, .verify 32 0x800001, .keygen 32 0x800001, .random 32 0x800001,
      .registerWrite 0 0 { word := 0 }, .vaultDataAccess 16 (some 0) 0, .pbDataAccess 33 none, .mcHiRead 63,
      .grant 33 1 0, .winHeadWrite 63 0 0, .suRelease 32 0, .suClrfault 32 0, .ovrStatReopen 32 0 0,
      .ovrStatClr 32 0 0, .duetClashClr 32 0 0, .undPcClr 32 0 0, .stickyClr 32 0 0, .pktEccClr 32 0 0,
      .mmlogClr 32 0, .mktsClr 32 0 0, .ueLogClr 32 0, .spareGo 32 0, .wliveLoad 32 0, .wliveApply 32 0,
      .wclampClr 32 0, .tuCntClr 32 0 0, .wrap 32 0, .unwrap 32 0, .cueSubmit 32 0 0, .rampGo 32 0 0,
      .rampStatClr 32 0, .collStatClr 32 0, .curtClose 32 0, .curtOpen 32 0, .duStatClr 32 0 0,
      .watchdogKick 32 0 0, .portCntclr 32 0 0, .ringClr 32 0 0, .twiGo 32 0, .streamEnable 32 false 0 0,
      .strmClr 32 0, .timeSnap 32 0, .timeSet 32 0, .timeAdd 32 0, .s2calGo 32 0, .tdmStatClr 32 0 0,
      .aesiStatClr 32 0 0, .madiStatClr 32 0 0, .pcResetWrite 32 0 0, .swset 32 0 0, .hostStatClr 32 0,
      .ptClr 32 0 0, .ledgerClear 32 0, .ledgCntclrAll 32 0, .ledgStatclr 32 0, .flush 32 0, .swpost 32 0,
      .tallyClr 32 0 0], i.wf = false := by decide

/-- Events: a PEC code of 3, and each number out of its range. -/
theorem test_wf_refuses_events :
    ∀ i ∈ [Instr.runCmd 32 3, .smbState 3, .marketAccess 34 0 none 0 0, .linkDown 0 0,
      .ingressLatch [⟨658, 0, 0⟩], .slaveFrame 0 false false 0 [⟨658, 0, 0⟩], .memTestDone [(19, 0)],
      .memTestDone [(49, 0)], .pcieLinkUp 0 3], i.wf = false := by decide

/-- Terms that are well formed: a reserved bit within its layout, each kind of writer and reader. -/
theorem test_wf_takes :
    ∀ i ∈ [Instr.add { core := 0, rsv := 0x1F } 0 0 (.reg 0), .unassigned { core := 18 } 0x7F 0, .cueSubmit 32 0 0x800000,
      .cueEntryCancel 17 0 0, .registerWrite 31 0 { word := 0 }, .vaultDataAccess 16 none 0, .grant 63 2 0, .marketAccess 33 0 none 0 0,
      .linkDown 0 1, .memTestDone [(48, 0), (63, 0)]], i.wf = true := by decide

/-! ## Words from the encodings (R107 to R111, R125) -/

/-- A word of every group of opcodes, its fields written out in the order of its layout. -/
theorem test_decode_long :
    let h : Hdr := { core := 3 }
    decodeWord h (0#1 ++ 0#4 ++ 0x06#7 ++ 31#5 ++ 30#5 ++ 29#5 ++ 0#5) = .or h 31 30 (.reg 29)
    ∧ decodeWord h (0#1 ++ 14#4 ++ 0x0E#7 ++ 0#5 ++ 2#5 ++ 3#5 ++ 0#5) = .cmp { h with cond := 14 } 2 (.reg 3)
    ∧ decodeWord h (0#1 ++ 0#4 ++ 0x22#7 ++ 1#5 ++ 2#5 ++ 3#5 ++ 0#5) = .subB h 1 2 3
    ∧ decodeWord h (0#1 ++ 0#4 ++ 0x2C#7 ++ 1#2 ++ 2#3 ++ 3#3 ++ 2#2 ++ 4#3 ++ 5#3 ++ 1#1 ++ 0#1 ++ 1#1 ++ 0#1)
        = .mac2 h 1 2 3 2 4 5 true false true
    ∧ decodeWord h (0#1 ++ 0#4 ++ 0x2E#7 ++ 10#5 ++ 1#2 ++ 2#2 ++ 1#1 ++ 0#10) = .mova h 10 1 2 true
    ∧ decodeWord h (0#1 ++ 0#4 ++ 0x31#7 ++ 1#2 ++ 20#5 ++ 0#13) = .norm h 1 20
    ∧ decodeWord h (0#1 ++ 0#4 ++ 0x48#7 ++ 11#5 ++ 12#5 ++ 0x3FE#10) = .ldp h 11 12 0x3FE
    ∧ decodeWord h (0#1 ++ 0#4 ++ 0x4F#7 ++ 9#5 ++ 10#5 ++ 11#5 ++ 0x1F#5) = .stw h 9 (.reg 10 11 0x1F)
    ∧ decodeWord h (0#1 ++ 0#4 ++ 0x60#7 ++ 0#3 ++ 1#2 ++ 7#5 ++ 0x155#10) = .bset h (.idx 1 7 0x155)
    ∧ decodeWord h (0#1 ++ 0#4 ++ 0x67#7 ++ 2#3 ++ 2#3 ++ 0#1 ++ 2#3 ++ 1#1 ++ 0#9) = .por h 2 2 2 false true
    ∧ decodeWord h (0#1 ++ 0#4 ++ 0x6C#7 ++ 5#5 ++ 6#5 ++ 7#5 ++ 0#5) = .dyn h 5 6 (.reg 7)
    ∧ decodeWord h (0#1 ++ 0#4 ++ 0x6E#7 ++ 1#2 ++ 2#2 ++ 17#5 ++ 0x5A#8 ++ 0#3) = .tucmd h 1 2 17 0x5A
    ∧ decodeWord h (0#1 ++ 0#4 ++ 0x71#7 ++ 0#5 ++ 0x7FFF#15) = .call h 0x7FFF
    ∧ decodeWord h (0#1 ++ 0#4 ++ 0x77#7 ++ 0#7 ++ 0x1000#13) = .rep h 0x1000
    ∧ decodeWord h (0#1 ++ 0#4 ++ 0x7A#7 ++ 0#16 ++ 5#4) = .trap h 5
    ∧ decodeWord h (0#1 ++ 0#4 ++ 0x7B#7 ++ 0#20) = .reti h := by decide

/-- 0124_DC31h, 0134_9500h and 8085_0CE2h are the words of the worked encodings ("Worked encodings" of spec/04). -/
theorem test_encode_worked :
    let h : Hdr := { core := 3 }
    encodeWord (.movi h 9 0x5C31) = some 0x0124DC31 ∧ encodeWord (.movu h 9 0x054) = some 0x01349500
      ∧ encodeWord (.duet h 1 0x014 6 0xE2) = some 0x80850CE2 := by decide

/-- Every bit of an operand of all ones reaches its field and no other. -/
theorem test_round_trip_ones :
    let h : Hdr := { core := 3, cond := 15 }
    ∀ i ∈ [Instr.ldc h 31 31 1023, .mts h 31 63, .loop h 4095 255, .loopr h 31 32767, .bput h 7 (.imm 3 32767),
      .ldw h 31 (.imm 4095 31), .dyn h 31 31 (.imm 2047), .collect h 3 true 511],
      (encodeWord i).map (decodeWord h) = some i := by decide

/-! ## Worked examples of the spec -/

/-- Core 3 running, with those registers, accumulators and pocket words. -/
def ready (xs : List (Nat × W24)) (acc : List (Nat × W56) := []) (be : BitVec 6 := 0) : State :=
  { dev := { cores := [(3, { run := .on, xs := xs, acc := acc, be := be })] } }

/-- The device after a command, as it was where the command does not complete. -/
def after (i : Instr) (s : State) : Dev := match exec i s with | .next t => t.dev | _ => s.dev

/-- The word header of core 3. -/
def h3 : Hdr := { core := 3 }

/-- `movi x9, 5C31h` leaves FF_DC31h ("A 24-bit constant" of spec/04). -/
theorem test_movi : (core (after (.movi h3 9 0x5C31) (ready [])) 3).x 9 = 0xFFDC31 := by decide

/-- `movu x9, 054h` then leaves 2A_5C31h. -/
theorem test_movu : (core (after (.movu h3 9 0x054) (ready [(9, 0xFFDC31)])) 3).x 9 = 0x2A5C31 := by decide

/-- ADD wraps: 7F_FFFFh + 1 is 80_0000h, with V and N, without C and Z. -/
theorem test_add_overflow :
    let k := core (after (.add h3 9 10 (.reg 11)) (ready [(10, 0x7FFFFF), (11, 1)])) 3
    k.x 9 = 0x800000 ∧ k.st = 0xA := by decide

/-- SUB of equal words: Z, and C for no borrow. -/
theorem test_sub_equal : (core (after (.sub h3 9 10 (.reg 10)) (ready [(10, 5)])) 3).st = 0x5 := by decide

/-- ROL by 25 turns by 1; the bit that leaves comes back as bit 0 and as C. -/
theorem test_rol : (core (after (.rol h3 9 10 (.imm 25)) (ready [(10, 0x800000)])) 3).x 9 = 1 := by decide

/-- The address of `ld x9, [bk1: x10+5]` with BK1 = 0123h and x10 = 12_FFFEh is 123_0003h (after R79). -/
theorem test_ld_bank :
    let s : State :=
      { dev := { cores := [(3, { run := .on, xs := [(10, 0x12FFFE)], bk := [(1, 0x123)] })], mkt := [(0x1230003, 0x777)] } }
    (core (after (.ld h3 0 9 10 1 5) s) 3).loads.map (·.val) = [0x777] := by decide

/-- `bxd a0, start` of 00_0000_3000_0000h gives BE = 25 (after R146). -/
theorem test_bxd : (core (after (.bxd h3 0 true) (ready [] [(0, 0x30000000)])) 3).be = 25 := by decide

/-- `scla a1, left` with BE = 17 takes FF_FFFF_F000_0000h to FF_E000_0000_0000h. -/
theorem test_scla : Tab.get 0 (core (after (.scla h3 1 false) (ready [] [(1, 0xFFFFFFF0000000)] 17)) 3).acc 1 = 0xFFE00000000000 := by
  decide

/-- `mova x10, a0` of 00_6000_0000_0000h is 60_0000h. -/
theorem test_mova : (core (after (.mova h3 10 0 0 false) (ready [] [(0, 0x600000000000)])) 3).x 10 = 0x600000 := by decide

/-- The addresses of the table "Finding an address" of spec/17. -/
theorem test_addresses :
    F.SE_STICKY_UND.addr 5 = 0x21415 ∧ F.RXL_DPORT_DPORT.addr (2 * 212 + 1) = 0x1A6A5 ∧ F.CUEN_STATE_STATE.addr 5 = 0x2812D
      ∧ F.TLBIN_BIN.addr (64 * 12 + 55) = 0x3337 ∧ F.DCH0_EN.addr 529 = 0x35088 := by decide

/-- A host write of E0_00C8h to 03_5088h: the next copy takes EN = 1 and THR = 200, TYPE keeps its value, the live copy
stays, and one REG_RSVD is posted by source 32 (after R443). -/
theorem test_register_write_rsvd :
    let d := after (.registerWrite 32 0x35088 { word := 0xE000C8 }) { dev := { house := { boot := 3 } } }
    F.DCH0_EN.of (nrd d 0x35088) = 1 ∧ F.DCH0_THR.of (nrd d 0x35088) = 200 ∧ F.DCH0_TYPE.of (nrd d 0x35088) = 0
      ∧ fld d F.DCH0_EN 529 = 0 ∧ d.led.arriving = [{ code := 0x01, src := 32, d1 := 0x35088, d2 := 0xE000C8 }] := by decide

/-- A write to 02_1416h reaches no register and is presented as REG_HOLE (after R443). -/
theorem test_register_write_hole :
    let d := after (.registerWrite 28 0x21416 { word := 5 }) State.reset
    d.ctl = [] ∧ d.led.arriving = [{ code := 0x02, src := 28, d1 := 0x21416, d2 := 5 }] := by decide

/-- Window 1,540 of the shortened delay line (after R188): its head, phase 4, the write at 0 and the tap at −24. -/
theorem test_window_shortened :
    let d := (State.reset.onDev fun d => [(F.WIN_BASE_BASE_LO, 0x0C04000), (F.WIN_LEN_LENM1, 0x1F), (F.WIN_CFG_STEP, 1),
      (F.WIN_HEAD_HEAD, 13)].foldl (fun d x => setf d x.1 1540 x.2) d)
    let d := after .windowHeadAdvance d
    fld d F.WIN_HEAD_HEAD 1540 = 14 ∧ winAddr d 1540 0 = 0x0C0400E ∧ winAddr d 1540 (-24) = 0x0C04016 := by decide

/-- The automatic cut-off points of R38. -/
theorem test_cutoff : (List.range 4).map (fun r => autoCutoff (setf {} F.TICK_RATE_RATE 0 r)) = [21176, 19333, 10588, 9667] := by
  decide

/-- Bus 45 before and after the third microphone opens: gains and outputs (before R246). -/
theorem test_bus_gain :
    gainOf 1 2 = 0x5A827A ∧ gainOf 1 3 = 0x49E69D ∧ busScale 0x400000000000 0x5A827A = 0x2D413D
      ∧ busScale 0x600000000000 0x5A799E = 0x43DB36 ∧ busScale 0x600000000000 0x49E69D = 0x376CF6 := by decide

/-- Step 1 and step 240 of the ramp of that gain. -/
theorem test_bus_ramp :
    (gainRamp { g := 0x5A827A, target := 0x5A827A } 0x49E69D 480).g = 0x5A799E
      ∧ (gainRamp { g := 0, target := 0x49E69D, start := 0x5A827A, i := 239 } 0x49E69D 480).g = 0x52348B := by decide

/-- The commentary compressor of channel 529: gain reduction and output (after R253). -/
theorem test_compressor : dynGain 0 48 0 (5 * 2560) (5 * 1536) = -1920 ∧ dynOut 2652674 (-1920) 50 = 0x1E5A69 := by decide

/-- The bins of TL12 (after R409). -/
theorem test_bins :
    binOf true 28 0 0x100 = (4, false, false) ∧ binOf true 28 0 0x1E5A69 = (55, false, false)
      ∧ binOf true 28 0 0x7FFFFF = (63, false, false) ∧ binOf true 28 0 160 = (1, false, false) ∧ (binOf true 28 0 0).1 = 0 := by
  decide

/-- A packet of stream 212 holds 36 payload bytes (after R320). -/
theorem test_stream_payload :
    payloadLen ([(F.RXS_CFG_FMT, 1), (F.RXS_CFG_PTIME, 0), (F.RXS_CFG_RATE, 1), (F.RXS_CFG_CH, 2)].foldl
      (fun d x => setf d x.1 212 x.2) {}) false 212 = 36 := by decide

/-- Sample 7,340,034 of stream 212, channel 1, completes at MC = 7,340,049 and is written to 0A0_0402h. -/
theorem test_stream_place :
    let d := [(F.RXS_CFG_FMT, 1), (F.RXS_CFG_PTIME, 0), (F.RXS_CFG_RATE, 1), (F.RXS_CFG_CH, 2), (F.RXS_CFG_STATUS, 1),
      (F.RXS_LO_LO, 48), (F.RXS_BUF_LO_BUF, 0xA00000)].foldl (fun d x => setf d x.1 212 x.2) {}
    let d := placePacket { d with mc := 7340049, rx := [(212, { lo := 48 })] } 212 0 7340034 [[(0x111111, 0), (0x222222, 0)]]
    Tab.get 0 d.mkt 0xA00402 = 0x222222 ∧ Tab.get 0 d.mkt 0xA00002 = 0x111111 := by decide

/-- The state after a step, as it was where the step does not complete. -/
def stepped (s : State) : State := match step s with | .next t => t | _ => s

/-- A queued command runs first and leaves the queue; an empty queue idles. -/
theorem test_step :
    (stepped { State.reset with pending := [.registerWrite 28 0x21416 { word := 5 }, .tickEdge 0] }).dev.led.arriving.length = 1
      ∧ (stepped { State.reset with pending := [.registerWrite 28 0x21416 { word := 5 }, .tickEdge 0] }).pending = [.tickEdge 0]
      ∧ (stepped State.reset).pending = [] ∧ (stepped State.reset).dev.ctl = [] := by decide

/-! ## The hypotheses of the statements can be met

For each statement with hypotheses, `without…` is the statement with every conclusion taken out: clause `n` (0 where a
conclusion has only the premises common to all) fails exactly where the hypotheses of that conclusion hold together. -/

/-- `Able` (Sys2Proof/Safety.lean) as a condition that evaluates. -/
abbrev IsAble (d : Dev) (h : Hdr) : Prop :=
  (core d h.core.val).run = .on ∧ (core d h.core.val).hold = .free ∧ badFetch d h = false
    ∧ (∀ l ∈ (core d h.core.val).begin.loads, (core d h.core.val).words < l.due)
    ∧ inKat d h.core.val = false ∧ d.pscrub = [] ∧ h.mm = 0

/-- `Ready` as a condition that evaluates. -/
abbrev IsReady (d : Dev) (h : Hdr) : Prop := IsAble d h ∧ h.rsv = 0 ∧ Stays d h

theorem able_of_isAble {d : Dev} {h : Hdr} (a : IsAble d h) : Able d h :=
  ⟨a.1, a.2.1, a.2.2.1, a.2.2.2.1, a.2.2.2.2.1, a.2.2.2.2.2.1, a.2.2.2.2.2.2⟩

theorem ready_of_isReady {d : Dev} {h : Hdr} (r : IsReady d h) : Ready d h := ⟨able_of_isAble r.1, r.2.1, r.2.2⟩

/-- The device `d` with those fields set, in life-cycle state 0 where `sec` does not say otherwise. -/
def having (l : List (Fld × Nat × Nat)) (d : Dev := {}) (sec : Sec := { lc := 0 }) : State :=
  { dev := l.foldl (fun d x => setf d x.1 x.2.1 x.2.2) d, sec := sec }

/-- The hypotheses of ArithmeticWords: each conclusion replaced by a falsehood where it is the one asked for. -/
abbrev withoutArithmeticWords (clause : Nat) (h : Hdr) (s : State) (rd : BitVec 5) (ra : BitVec 5) (rb : BitVec 5)
    (b : Src) : Prop :=
 IsReady s.dev h → Passes s.dev h → clause ≠ 0

theorem hypotheses_ArithmeticWords :
    ¬ withoutArithmeticWords 0 { core := 0 } (having [] { cores := [(0, { run := .on })] }) 0 0 0 (.reg 0) := by
  dsimp only [withoutArithmeticWords]
  decide

/-- The hypotheses of LogicWords: each conclusion replaced by a falsehood where it is the one asked for. -/
abbrev withoutLogicWords (clause : Nat) (h : Hdr) (s : State) (rd : BitVec 5) (ra : BitVec 5) (rb : BitVec 5) (b :
    Src) (imm : BitVec 15) (hi : BitVec 9) : Prop :=
    IsReady s.dev h → Passes s.dev h → clause ≠ 0

theorem hypotheses_LogicWords :
    ¬ withoutLogicWords 0 { core := 0 } (having [] { cores := [(0, { run := .on })] }) 0 0 0 (.reg 0) 0 0 := by
  dsimp only [withoutLogicWords]
  decide

/-- The hypotheses of ShiftWords: each conclusion replaced by a falsehood where it is the one asked for. -/
abbrev withoutShiftWords (clause : Nat) (h : Hdr) (s : State) (rd : BitVec 5) (ra : BitVec 5) (amt : Amt) : Prop :=
 IsReady s.dev h → Passes s.dev h → clause ≠ 0

theorem hypotheses_ShiftWords :
    ¬ withoutShiftWords 0 { core := 0 } (having [] { cores := [(0, { run := .on })] }) 0 0 (.reg 0) := by
  dsimp only [withoutShiftWords]
  decide

/-- The hypotheses of ByteWords: each conclusion replaced by a falsehood where it is the one asked for. -/
abbrev withoutByteWords (clause : Nat) (h : Hdr) (s : State) (rd : BitVec 5) (ra : BitVec 5) (rb : BitVec 5) : Prop :=
 IsReady s.dev h → Passes s.dev h →
    17 ≤ h.core.val → fld s.dev F.PC_GLENEX_EN (h.core.val - 17) = 1 → clause ≠ 0

theorem hypotheses_ByteWords :
    ¬ withoutByteWords 0 { core := 17 } (having [(F.PC_GLENEX_EN, 0, 1)] { cores := [(17, { run := .on })] }) 0 0 0
        := by
  dsimp only [withoutByteWords]
  decide

/-- The hypotheses of SumWords: each conclusion replaced by a falsehood where it is the one asked for. -/
abbrev withoutSumWords (clause : Nat) (h : Hdr) (s : State) (ad : BitVec 2) (xs : BitVec 5) (xt : BitVec 5) (int :
    Bool) : Prop :=
 IsReady s.dev h → Passes s.dev h →
    let k := here s.dev h
    let wrap := k.st.getLsbD 9
    let a : Int := (Tab.get 0 k.acc ad.toNat).toInt
    (clause ∈ [0] → clause ≠ 0)
    ∧ (clause ∈ [1] → (∀ e < 57, SignBits (Tab.get 0 k.acc ad.toNat) e →
        let fits := decide (k.be.toNat ≤ e) || decide (a = 0)
        let v : W56 := if fits || wrap then BitVec.ofInt 56 (a * 2 ^ k.be.toNat)
          else if a < 0 then BitVec.ofInt 56 (-(2 ^ 55)) else BitVec.ofInt 56 (2 ^ 55 - 1)
        clause ≠ 1))

theorem hypotheses_SumWords :
    (∀ c ∈ [0, 1], ¬ withoutSumWords c { core := 0 } (having [] { cores := [(0, { run := .on })] }) 0 0 0 false) := by
  dsimp only [withoutSumWords]
  decide

/-- The hypotheses of AccumulatorWords: each conclusion replaced by a falsehood where it is the one asked for. -/
abbrev withoutAccumulatorWords (clause : Nat) (h : Hdr) (s : State) (ad : BitVec 2) (rd : BitVec 5) (mask : BitVec
    4) (e : Nat) : Prop :=
 IsReady s.dev h → Passes s.dev h →
    SignBits (Tab.get 0 (here s.dev h).acc ad.toNat) e →
    let k := here s.dev h
    let a : Int := (Tab.get 0 k.acc ad.toNat).toInt
    let moved (rnd : BitVec 2) (r : Rnd) (nosat : Bool) : Prop :=
      let t := roundAt24 r a
      let sat := !nosat && (decide (0x7FFFFF < t) || decide (t < -0x800000))
      let v : W24 := if sat then (if t < 0 then 0x800000 else 0x7FFFFF) else BitVec.ofInt 24 t
      clause ≠ 1
    let moved2 (rnd : BitVec 2) (r : Rnd) (nosat : Bool) : Prop :=
      let t := roundAt24 r a
      let sat := !nosat && (decide (0x7FFFFF < t) || decide (t < -0x800000))
      let v : W24 := if sat then (if t < 0 then 0x800000 else 0x7FFFFF) else BitVec.ofInt 24 t
      clause ≠ 2
    let moved3 (rnd : BitVec 2) (r : Rnd) (nosat : Bool) : Prop :=
      let t := roundAt24 r a
      let sat := !nosat && (decide (0x7FFFFF < t) || decide (t < -0x800000))
      let v : W24 := if sat then (if t < 0 then 0x800000 else 0x7FFFFF) else BitVec.ofInt 24 t
      clause ≠ 3
    (clause ∈ [0] → clause ≠ 0)
    ∧ (clause ∈ [1, 2, 3] → (∀ nosat, moved 0 .conv nosat ∧ moved2 1 .trunc nosat ∧ moved3 2 .halfup nosat))

theorem hypotheses_AccumulatorWords :
    (∀ c ∈ [0, 1, 2, 3], ¬ withoutAccumulatorWords c { core := 18 } (having []
        { cores := [(18, { run := .on, acc := [(1, 0x80000000000000)] })] }) 1 0 0 0) := by
  dsimp only [withoutAccumulatorWords]
  decide

/-- The hypotheses of DoubleSumWord: each conclusion replaced by a falsehood where it is the one asked for. -/
abbrev withoutDoubleSumWord (clause : Nat) (h : Hdr) (s : State) (a1 : BitVec 2) (a2 : BitVec 2) (s1 : BitVec 3) (t1
    : BitVec 3) (s2 : BitVec 3) (t2 : BitVec 3) (m1 : Bool) (m2 : Bool) (int : Bool) : Prop :=
    IsReady s.dev h → Passes s.dev h → clause ≠ 0

theorem hypotheses_DoubleSumWord :
    ¬ withoutDoubleSumWord 0 { core := 0 } (having [] { cores := [(0, { run := .on })] }) 0 0 0 0 0 0 false false
        false := by
  dsimp only [withoutDoubleSumWord]
  decide

/-- The hypotheses of SpecialReadWord: each conclusion replaced by a falsehood where it is the one asked for. -/
abbrev withoutSpecialReadWord (clause : Nat) (h : Hdr) (s : State) (rd : BitVec 5) : Prop :=
 IsReady s.dev h → Passes s.dev h →
    let k := here s.dev h
    (clause ∈ [0] → clause ≠ 0)
    ∧ (clause ∈ [1, 2, 3] → (k.loops = [] → clause ≠ 1 ∧ clause ≠ 2 ∧ clause ≠ 3))
    ∧ (clause ∈ [4, 5, 6] → (∀ l ∈ k.loops.take 1, clause ≠ 4 ∧ clause ≠ 5 ∧ clause ≠ 6))
    ∧ (clause ∈ [7] → (∀ i < 4, clause ≠ 7))
    ∧ (clause ∈ [8, 9, 10] → (∀ i < 4,
        clause ≠ 8
        ∧ clause ≠ 9
        ∧ clause ≠ 10))
    ∧ (clause ∈ [11, 12, 13, 14, 15] → (isPc h.core.val = true →
        (∀ i < 8, clause ≠ 11)
        ∧ clause ≠ 12
        ∧ (∀ v ∈ [({}, 0), (k.c0, 1), (k.c1, 2), (k.ct, 3)], k.ctx = v.2 →
            clause ≠ 13 ∧ clause ≠ 14 ∧ clause ≠ 15)))

theorem hypotheses_SpecialReadWord :
    (∀ c ∈ [0, 1, 2, 3, 7, 8, 9, 10], ¬ withoutSpecialReadWord c { core := 0 } (having []
        { cores := [(0, { run := .on })] }) 0)
    ∧ (∀ c ∈ [4, 5, 6], ¬ withoutSpecialReadWord c { core := 0 } (having []
        { cores := [(0, { run := .on, loops := [{ ls := 0, le := 0, lc := 0 }] })] }) 0)
    ∧ (∀ c ∈ [11, 12, 13, 14, 15], ¬ withoutSpecialReadWord c { core := 17 } (having []
        { cores := [(17, { run := .on })] }) 0) := by
  dsimp only [withoutSpecialReadWord]
  refine ⟨?_, ?_, ?_⟩ <;> decide

/-- The hypotheses of SpecialWriteWord: each conclusion replaced by a falsehood where it is the one asked for. -/
abbrev withoutSpecialWriteWord (clause : Nat) (h : Hdr) (s : State) (rs : BitVec 5) : Prop :=
 IsReady s.dev h → Passes s.dev h →
    let k := here s.dev h
    let x := k.x rs
    (clause ∈ [0] → clause ≠ 0)
    ∧ (clause ∈ [1] → (isPc h.core.val = true → clause ≠ 1))
    ∧ (clause ∈ [2] → (isPc h.core.val = false → x.getLsbD 6 = false → clause ≠ 2))
    ∧ (clause ∈ [3] → (isPc h.core.val = false → x.getLsbD 6 = true → clause ≠ 3))
    ∧ (clause ∈ [4, 5, 6, 7] → (k.loops ≠ [] →
        let f := k.follow
        (f.loops.length = k.loops.length → ∀ l ∈ f.loops.take 1,
          let t := f.loops.tail
          clause ≠ 4
          ∧ clause ≠ 5
          ∧ clause ≠ 6)
        ∧ (f.loops.length ≠ k.loops.length → ∀ n ∈ [2, 3, 4], clause ≠ 7)))
    ∧ (clause ∈ [8] → (k.loops = [] → ∀ n ∈ [2, 3, 4], clause ≠ 8))
    ∧ (clause ∈ [9] → (x.toNat % 64 < 56 → clause ≠ 9))
    ∧ (clause ∈ [10] → (56 ≤ x.toNat % 64 → clause ≠ 10))
    ∧ (clause ∈ [11, 12] → (isPc h.core.val = false →
        (x.getLsbD 12 = true ∨ x.getLsbD 13 = true → clause ≠ 11)
        ∧ (x.getLsbD 12 = false → x.getLsbD 13 = false → clause ≠ 12)))
    ∧ (clause ∈ [13] → (∀ i < 4, clause ≠ 13))
    ∧ (clause ∈ [14] → (∀ i < 4, ∀ j < 3, clause ≠ 14))
    ∧ (clause ∈ [15, 16, 17, 18, 19, 20, 21, 22, 23, 24, 25, 26, 27, 28, 29, 30, 31, 32, 33, 34, 35] → (isPc
        h.core.val = true →
        (x.getLsbD 12 = true → x.getLsbD 13 = false → 3 < k.res → clause ≠ 15)
        ∧ (x.getLsbD 12 = false → x.getLsbD 13 = true → k.res < 15 → clause ≠ 16)
        ∧ (x.getLsbD 12 = false → x.getLsbD 13 = false → clause ≠ 17)
        ∧ (x.getLsbD 12 = true → x.getLsbD 13 = true → 3 < k.res → k.res ≤ 15 → clause ≠ 18)
        ∧ (x.getLsbD 12 = true → x.getLsbD 13 = true → k.res ≤ 3 → clause ≠ 19)
        ∧ (x.getLsbD 12 = true → x.getLsbD 13 = false → k.res ≤ 3 → clause ≠ 20)
        ∧ (x.getLsbD 12 = false → x.getLsbD 13 = true → 15 ≤ k.res → clause ≠ 21)
        ∧ clause ≠ 22
        ∧ (∀ i < 8, clause ≠ 23)
        ∧ (k.ctx = 0 → clause ≠ 24 ∧ clause ≠ 25 ∧ clause ≠ 26)
        ∧ (k.ctx = 1 → clause ≠ 27 ∧ clause ≠ 28
            ∧ clause ≠ 29)
        ∧ (k.ctx = 2 → clause ≠ 30 ∧ clause ≠ 31
            ∧ clause ≠ 32)
        ∧ (k.ctx = 3 → clause ≠ 33 ∧ clause ≠ 34
            ∧ clause ≠ 35)))

theorem hypotheses_SpecialWriteWord :
    (∀ c ∈ [0, 2, 8, 9, 12, 13, 14], ¬ withoutSpecialWriteWord c { core := 0 } (having []
        { cores := [(0, { run := .on })] }) 0)
    ∧ (∀ c ∈ [1, 17, 22, 23, 24, 25, 26], ¬ withoutSpecialWriteWord c { core := 17 } (having []
        { cores := [(17, { run := .on })] }) 0)
    ∧ ¬ withoutSpecialWriteWord 3 { core := 14 } (having [] { cores := [(14, { run := .on, xs := [(1, 64)] })] }) 1
    ∧ (∀ c ∈ [4, 5, 6], ¬ withoutSpecialWriteWord c { core := 0 } (having []
        { cores := [(0, { run := .on, loops := [{ ls := 0, le := 1, lc := 0 }] })] }) 0)
    ∧ ¬ withoutSpecialWriteWord 7 { core := 7 } (having []
        { cores := [(7, { run := .on, pc := 9, loops := [{ ls := 0, le := 9, lc := 0 }] })] }) 0
    ∧ ¬ withoutSpecialWriteWord 10 { core := 8 } (having [] { cores := [(8, { run := .on, xs := [(2, 56)] })] }) 2
    ∧ ¬ withoutSpecialWriteWord 11 { core := 14 } (having []
        { cores := [(14, { run := .on, xs := [(1, 0x1000)] })] }) 1
    ∧ ¬ withoutSpecialWriteWord 15 { core := 17 } (having []
        { cores := [(17, { run := .on, xs := [(1, 0x1000)], res := 4 })] }) 1
    ∧ ¬ withoutSpecialWriteWord 16 { core := 18 } (having []
        { cores := [(18, { run := .on, xs := [(5, 0x2000)] })] }) 5
    ∧ ¬ withoutSpecialWriteWord 18 { core := 18 } (having []
        { cores := [(18, { run := .on, xs := [(112, 0x3000)], cwp := 11, res := 4 })] }) 16
    ∧ ¬ withoutSpecialWriteWord 19 { core := 17 } (having []
        { cores := [(17, { run := .on, xs := [(2, 0x3000)] })] }) 2
    ∧ ¬ withoutSpecialWriteWord 20 { core := 17 } (having []
        { cores := [(17, { run := .on, xs := [(3, 0x1000)] })] }) 3
    ∧ ¬ withoutSpecialWriteWord 21 { core := 18 } (having []
        { cores := [(18, { run := .on, xs := [(120, 0x2000)], cwp := 12, res := 15 })] }) 16
    ∧ (∀ c ∈ [27, 28, 29], ¬ withoutSpecialWriteWord c { core := 17 } (having []
        { cores := [(17, { run := .on, st := 0x1000 })] }) 0)
    ∧ (∀ c ∈ [30, 31, 32], ¬ withoutSpecialWriteWord c { core := 17 } (having []
        { cores := [(17, { run := .on, st := 0x2000 })] }) 0)
    ∧ (∀ c ∈ [33, 34, 35], ¬ withoutSpecialWriteWord c { core := 17 } (having []
        { cores := [(17, { run := .on, st := 0x3000 })] }) 0) := by
  dsimp only [withoutSpecialWriteWord]
  refine ⟨?_, ?_, ?_, ?_, ?_, ?_, ?_, ?_, ?_, ?_, ?_, ?_, ?_, ?_, ?_, ?_⟩ <;> decide

/-- The hypotheses of LoadWords: each conclusion replaced by a falsehood where it is the one asked for. -/
abbrev withoutLoadWords (clause : Nat) (h : Hdr) (s : State) (rd : BitVec 5) (xa : BitVec 5) (bk : BitVec 2) (d8 :
    BitVec 8) (d10 : BitVec 10) (w : WinRef) : Prop :=
    IsReady s.dev h → Passes s.dev h →
    let k := here s.dev h
    let pc := isPc h.core.val
    let a := (Tab.get 0 k.bk bk.toNat).toNat * 65536 + (k.x xa + d8.signExtend 24).toNat % 65536
    let e := (k.x xa + d10.signExtend 24).toNat
    let p := e % (if pc then 65536 else 16384)
    let key := if pc then localKey (h.core.val - 17) p else pktKey (posOf s.dev h.core.val) p
    let b := fld s.dev F.PC_GLENEX_BANK (h.core.val - 17) * 65536 + e % 65536
    let wa := winAddr s.dev (w.num k) (w.off k)
    let gkey := progKey (h.core.val - 17) ((k.x xa + d8.signExtend 24).toNat % 131072 / 2)
    (clause ∈ [1] → (Readable s.dev h a →
      clause ≠ 1))
    ∧ (clause ∈ [2] → ((pc = true → h.upset = 0 ∧ Tab.get 0 s.dev.gecc gkey = 0) →
        clause ≠ 2))
    ∧ (clause ∈ [3] → (h.upset = 0 → Tab.get 0 s.dev.pecc key = 0 →
        clause ≠ 3))
    ∧ (clause ∈ [4] → (pc = true → fld s.dev F.PC_GLENEX_EN (h.core.val - 17) = 1 → Readable s.dev h b →
        clause ≠ 4))
    ∧ (clause ∈ [5] → (Readable s.dev h wa →
        clause ≠ 5))

theorem hypotheses_LoadWords :
    (∀ c ∈ [1, 2, 3, 5], ¬ withoutLoadWords c { core := 0 } (having [] { cores := [(0, { run := .on })] }) 0 0 0 0 0
        (.imm 0 0))
    ∧ ¬ withoutLoadWords 4 { core := 17 } (having [(F.PC_GLENEX_EN, 0, 1)] { cores := [(17, { run := .on })] }) 0 0
        0 0 0 (.reg 0 0 0) := by
  dsimp only [withoutLoadWords]
  refine ⟨?_, ?_⟩ <;> decide

/-- The hypotheses of StoreWords: each conclusion replaced by a falsehood where it is the one asked for. -/
abbrev withoutStoreWords (clause : Nat) (h : Hdr) (s : State) (rs : BitVec 5) (xa : BitVec 5) (bk : BitVec 2) (d8 :
    BitVec 8) (d10 : BitVec 10) (w : WinRef) : Prop :=
    IsReady s.dev h → Passes s.dev h →
    let pc := isPc h.core.val
    (clause ∈ [0] → clause ≠ 0)
    ∧ (clause ∈ [1] → (pc = true → fld s.dev F.PC_GLENEX_EN (h.core.val - 17) = 1 →
        clause ≠ 1))

theorem hypotheses_StoreWords :
    ¬ withoutStoreWords 0 { core := 0 } (having [] { cores := [(0, { run := .on })] }) 0 0 0 0 0 (.imm 0 0)
    ∧ ¬ withoutStoreWords 1 { core := 17 } (having [(F.PC_GLENEX_EN, 0, 1)] { cores := [(17, { run := .on })] }) 0 0
        0 0 0 (.reg 0 0 0) := by
  dsimp only [withoutStoreWords]
  refine ⟨?_, ?_⟩ <;> decide

/-- The hypotheses of LocalBitWords: each conclusion replaced by a falsehood where it is the one asked for. -/
abbrev withoutLocalBitWords (clause : Nat) (h : Hdr) (s : State) (b : BitRef) (a : Nat) (p : BitVec 3) (pa : BitVec
    3) (pb : BitVec 3) (na : Bool) (nb : Bool) : Prop :=
 IsReady s.dev h → Passes s.dev h →
    b.bad = false →
    let k := here s.dev h
    (clause ∈ [0] → clause ≠ 0)
    ∧ (clause ∈ [1, 2, 3, 4, 5, 6] → (b.at k = .localBit a →
      clause ≠ 1 ∧ clause ≠ 2 ∧ clause ≠ 3
      ∧ clause ≠ 4
      ∧ clause ≠ 5
      ∧ clause ≠ 6))
    ∧ (clause ∈ [7, 8] → (b.at k = .board a →
      clause ≠ 7
      ∧ clause ≠ 8))

theorem hypotheses_LocalBitWords :
    (∀ c ∈ [0, 7, 8], ¬ withoutLocalBitWords c { core := 7 } (having []
        { cores := [(7, { run := .on, xs := [(1, 1)] })] }) (.idx 1 1 0) 1 0 0 0 false false)
    ∧ (∀ c ∈ [1, 2, 3, 4, 5, 6], ¬ withoutLocalBitWords c { core := 0 } (having []
        { cores := [(0, { run := .on, xs := [(1, 1)] })] }) (.idx 0 1 1) 2 0 0 0 false false) := by
  dsimp only [withoutLocalBitWords]
  refine ⟨?_, ?_⟩ <;> decide

/-- The hypotheses of BoardBitWords: each conclusion replaced by a falsehood where it is the one asked for. -/
abbrev withoutBoardBitWords (clause : Nat) (h : Hdr) (s : State) (b : BitRef) (a : Nat) (p : BitVec 3) : Prop :=
 IsReady s.dev h → Passes s.dev h → b.bad = false →
    b.at (here s.dev h) = .board a →
    let k := here s.dev h
    let q := if isPc h.core.val then h.core.val + 3 else posOf s.dev h.core.val
    let bit := Tab.get false s.dev.brd (a % 65536)
    let queued (i : Instr) (op : Nat) (v : Bool) : Prop :=
      (s.dev.ticking = false → clause ≠ 1)
      ∧ (s.dev.ticking = true → boardRoom s.dev q = true →
        clause ≠ 2)
      ∧ (boardRoom s.dev q = false →
        clause ≠ 3)
    let queued2 (i : Instr) (op : Nat) (v : Bool) : Prop :=
      (s.dev.ticking = false → clause ≠ 4)
      ∧ (s.dev.ticking = true → boardRoom s.dev q = true →
        clause ≠ 5)
      ∧ (boardRoom s.dev q = false →
        clause ≠ 6)
    let queued3 (i : Instr) (op : Nat) (v : Bool) : Prop :=
      (s.dev.ticking = false → clause ≠ 7)
      ∧ (s.dev.ticking = true → boardRoom s.dev q = true →
        clause ≠ 8)
      ∧ (boardRoom s.dev q = false →
        clause ≠ 9)
    let queued4 (i : Instr) (op : Nat) (v : Bool) : Prop :=
      (s.dev.ticking = false → clause ≠ 10)
      ∧ (s.dev.ticking = true → boardRoom s.dev q = true →
        clause ≠ 11)
      ∧ (boardRoom s.dev q = false →
        clause ≠ 12)
    (clause ∈ [1, 2, 3] → queued (.bset h b) 1 true)
    ∧ (clause ∈ [4, 5, 6] → queued2 (.bclr h b) 2 false)
    ∧ (clause ∈ [7, 8, 9] → queued3 (.btgl h b) 3 (!bit))
    ∧ (clause ∈ [10, 11, 12] → queued4 (.bput h p b) (if k.preds.getLsbD p.toNat then 1 else 2) (k.preds.getLsbD
        p.toNat))

theorem hypotheses_BoardBitWords :
    (∀ c ∈ [1, 4, 7, 10], ¬ withoutBoardBitWords c { core := 0 } (having [] { cores := [(0, { run := .on })] })
        (.imm 2 2) 0x8002 0)
    ∧ (∀ c ∈ [2, 5, 8, 11], ¬ withoutBoardBitWords c { core := 0 } (having []
        { cores := [(0, { run := .on })], ticking := true }) (.imm 1 1) 1 0)
    ∧ (∀ c ∈ [3, 6, 9, 12], ¬ withoutBoardBitWords c { core := 13 } (having []
        { cores := [(13, { run := .on })], bq := [(13, (List.replicate 64 { op := 0, base := 0, mask := 0 }))], ticking := true })
        (.idx 1 0 3) 3 0) := by
  dsimp only [withoutBoardBitWords]
  refine ⟨?_, ?_, ?_⟩ <;> decide

/-- The hypotheses of BranchWords: each conclusion replaced by a falsehood where it is the one asked for. -/
abbrev withoutBranchWords (clause : Nat) (h : Hdr) (s : State) (off : BitVec 15) (xs : BitVec 5) : Prop :=
 IsReady s.dev h → Passes s.dev h →
    let k := here s.dev h
    (clause ∈ [0] → clause ≠ 0)
    ∧ (clause ∈ [1, 2] → ((if isPc h.core.val then k.res < 14 else k.res ≠ 15) →
        clause ≠ 1 ∧ clause ≠ 2))
    ∧ (clause ∈ [3] → (3 < k.res →
        clause ≠ 3))

theorem hypotheses_BranchWords :
    (∀ c ∈ [0, 1, 2], ¬ withoutBranchWords c { core := 0 } (having [] { cores := [(0, { run := .on })] }) 0 0)
    ∧ ¬ withoutBranchWords 3 { core := 12 } (having [] { cores := [(12, { run := .on, res := 4 })] }) 0 0 := by
  dsimp only [withoutBranchWords]
  refine ⟨?_, ?_⟩ <;> decide

/-- The hypotheses of LoopWords: each conclusion replaced by a falsehood where it is the one asked for. -/
abbrev withoutLoopWords (clause : Nat) (h : Hdr) (s : State) (count : BitVec 12) (e8 : BitVec 8) (xc : BitVec 5)
    (e15 : BitVec 15) (n : BitVec 13) : Prop :=
    IsReady s.dev h → Passes s.dev h →
    let k := here s.dev h
    let pc := k.pc.toNat
    let size := storeSize h.core.val
    let le (e : Int) : Nat := (((pc : Int) + e) % (size : Int)).toNat
    let looped (i : Instr) (c le : Nat) : Prop :=
      (le ≤ pc → clause ≠ 1)
      ∧ (pc < le →
        (c = 0 → le + 1 < size → clause ≠ 2)
        ∧ (0 < c → k.loops.length < 4 → pc + 1 < size →
            clause ≠ 3)
        ∧ (0 < c → 4 ≤ k.loops.length →
            (isPc h.core.val = true → clause ≠ 4)
            ∧ (isPc h.core.val = false → clause ≠ 5)))
    let looped2 (i : Instr) (c le : Nat) : Prop :=
      (le ≤ pc → clause ≠ 6)
      ∧ (pc < le →
        (c = 0 → le + 1 < size → clause ≠ 7)
        ∧ (0 < c → k.loops.length < 4 → pc + 1 < size →
            clause ≠ 8)
        ∧ (0 < c → 4 ≤ k.loops.length →
            (isPc h.core.val = true → clause ≠ 9)
            ∧ (isPc h.core.val = false → clause ≠ 10)))
    let repeated (i : Instr) (c : Nat) : Prop :=
      ((core s.dev h.core.val).rpc ≠ 0 ∨ (∃ l ∈ k.loops.take 1, l.le.toNat = pc) →
        clause ≠ 13)
      ∧ ((core s.dev h.core.val).rpc = 0 → (∀ l ∈ k.loops.take 1, l.le.toNat ≠ pc) → pc + 1 < size →
        (0 < c → c ≤ 4096 → clause ≠ 14)
        ∧ (4096 < c → clause ≠ 15)
        ∧ (c = 0 → (endCheck (pc + 1) k.loops (pc + 2)).2.1 < size →
            clause ≠ 16))
    let repeated2 (i : Instr) (c : Nat) : Prop :=
      ((core s.dev h.core.val).rpc ≠ 0 ∨ (∃ l ∈ k.loops.take 1, l.le.toNat = pc) →
        clause ≠ 17)
      ∧ ((core s.dev h.core.val).rpc = 0 → (∀ l ∈ k.loops.take 1, l.le.toNat ≠ pc) → pc + 1 < size →
        (0 < c → c ≤ 4096 → clause ≠ 18)
        ∧ (4096 < c → clause ≠ 19)
        ∧ (c = 0 → (endCheck (pc + 1) k.loops (pc + 2)).2.1 < size →
            clause ≠ 20))
    (clause ∈ [1, 2, 3, 4, 5] → looped (.loop h count e8) count.toNat (le e8.toInt))
    ∧ (clause ∈ [6, 7, 8, 9, 10] → looped2 (.loopr h xc e15) (k.x xc).toNat (le e15.toInt))
    ∧ (clause ∈ [11] → (k.loops ≠ [] → (endCheck pc k.loops.tail (pc + 1)).2.1 < size →
        clause ≠ 11))
    ∧ (clause ∈ [12] → (k.loops = [] → clause ≠ 12))
    ∧ (clause ∈ [13, 14, 15, 16] → repeated (.rep h n) n.toNat)
    ∧ (clause ∈ [17, 18, 19, 20] → repeated2 (.repr h xc) (k.x xc).toNat)

theorem hypotheses_LoopWords :
    (∀ c ∈ [1, 7], ¬ withoutLoopWords c { core := 0 } (having [] { cores := [(0, { run := .on })] }) 0 0 0 1 0)
    ∧ (∀ c ∈ [2, 6, 12, 16, 20], ¬ withoutLoopWords c { core := 0 } (having [] { cores := [(0, { run := .on })] }) 0
        1 0 0 0)
    ∧ ¬ withoutLoopWords 3 { core := 0 } (having [] { cores := [(0, { run := .on })] }) 1 1 0 0 0
    ∧ ¬ withoutLoopWords 4 { core := 18 } (having []
        { cores := [(18, { run := .on, loops := [{ ls := 0, le := 0, lc := 0 }, { ls := 0, le := 0, lc := 0 }, { ls := 0, le := 0, lc := 0 }, { ls := 0, le := 0, lc := 0 }] })] })
        1 1 0 0 0
    ∧ ¬ withoutLoopWords 5 { core := 2 } (having []
        { cores := [(2, { run := .on, loops := [{ ls := 0, le := 0, lc := 0 }, { ls := 0, le := 0, lc := 0 }, { ls := 0, le := 0, lc := 0 }, { ls := 0, le := 0, lc := 0 }] })] })
        1 1 0 0 0
    ∧ ¬ withoutLoopWords 8 { core := 1 } (having [] { cores := [(1, { run := .on, xs := [(24, 1)] })] }) 0 0 16 1 0
    ∧ ¬ withoutLoopWords 9 { core := 18 } (having []
        { cores := [(18, { run := .on, xs := [(12, 1)], loops := [{ ls := 0, le := 0, lc := 0 }, { ls := 0, le := 0, lc := 0 }, { ls := 0, le := 0, lc := 0 }, { ls := 0, le := 0, lc := 0 }] })] })
        0 0 12 1 0
    ∧ ¬ withoutLoopWords 10 { core := 13 } (having []
        { cores := [(13, { run := .on, xs := [(2, 1)], loops := [{ ls := 0, le := 0, lc := 0 }, { ls := 0, le := 0, lc := 0 }, { ls := 0, le := 0, lc := 0 }, { ls := 0, le := 0, lc := 0 }] })] })
        0 0 2 1 0
    ∧ ¬ withoutLoopWords 11 { core := 1 } (having []
        { cores := [(1, { run := .on, loops := [{ ls := 0, le := 0, lc := 0 }] })] }) 0 0 0 0 0
    ∧ (∀ c ∈ [13, 17], ¬ withoutLoopWords c { core := 1 } (having [] { cores := [(1, { run := .on, rpc := 1 })] }) 0
        0 0 0 0)
    ∧ ¬ withoutLoopWords 14 { core := 3 } (having [] { cores := [(3, { run := .on })] }) 0 0 0 0 1
    ∧ ¬ withoutLoopWords 15 { core := 1 } (having [] { cores := [(1, { run := .on })] }) 0 0 0 0 0x1001
    ∧ ¬ withoutLoopWords 18 { core := 16 } (having [] { cores := [(16, { run := .on, xs := [(1, 1)] })] }) 0 0 1 0 0
    ∧ ¬ withoutLoopWords 19 { core := 16 } (having [] { cores := [(16, { run := .on, xs := [(2, 0x4000)] })] }) 0 0
        2 0 0 := by
  dsimp only [withoutLoopWords]
  refine ⟨?_, ?_, ?_, ?_, ?_, ?_, ?_, ?_, ?_, ?_, ?_, ?_, ?_, ?_⟩ <;> decide

/-- The hypotheses of EndAndContextWords: each conclusion replaced by a falsehood where it is the one asked for. -/
abbrev withoutEndAndContextWords (clause : Nat) (h : Hdr) (s : State) (num : BitVec 4) : Prop :=
 IsReady s.dev h → Passes s.dev h →
    let k := here s.dev h
    (clause ∈ [1] → (isPc h.core.val = false →
      clause ≠ 1))
    ∧ (clause ∈ [2, 3, 4] → (isPc h.core.val = true →
        (k.ctx ≠ 3 →
          clause ≠ 2)
        ∧ (3 < k.res →
            clause ≠ 3)
        ∧ clause ≠ 4))

theorem hypotheses_EndAndContextWords :
    ¬ withoutEndAndContextWords 1 { core := 0 } (having [] { cores := [(0, { run := .on })] }) 0
    ∧ (∀ c ∈ [2, 4], ¬ withoutEndAndContextWords c { core := 17 } (having [] { cores := [(17, { run := .on })] }) 0)
    ∧ ¬ withoutEndAndContextWords 3 { core := 17 } (having [] { cores := [(17, { run := .on, res := 4 })] }) 0 := by
  dsimp only [withoutEndAndContextWords]
  refine ⟨?_, ?_, ?_⟩ <;> decide

/-- The hypotheses of WindowTraps: each conclusion replaced by a falsehood where it is the one asked for. -/
abbrev withoutWindowTraps (clause : Nat) (h : Hdr) (s : State) (off : BitVec 15) (xs : BitVec 5) : Prop :=
 Passes s.dev h →
    let k := here s.dev h
    let past := endCheck k.pc.toNat k.loops (k.pc.toNat + 1)
    (clause ∈ [1, 2, 3, 4] → (IsReady s.dev h → isPc h.core.val = true → k.ctx ≠ 3 →
      (14 ≤ k.res → clause ≠ 1 ∧ clause ≠ 2)
      ∧ (k.res ≤ 3 → clause ≠ 3 ∧ clause ≠ 4)))
    ∧ (clause ∈ [5] → (IsReady s.dev h → isPc h.core.val = false → k.res = 15 →
        ∀ i ∈ [Instr.call h off, Instr.callr h xs], clause ≠ 5))
    ∧ (clause ∈ [6] → (IsReady s.dev h → isPc h.core.val = false → k.res ≤ 3 → clause ≠ 6))
    ∧ (clause ∈ [7, 8] → (IsAble s.dev h → h.rsv = 0 → k.rpc = 0 → past.2.1 = storeSize h.core.val →
        (isPc h.core.val = true → clause ≠ 7)
        ∧ (isPc h.core.val = false → clause ≠ 8)))

theorem hypotheses_WindowTraps :
    (∀ c ∈ [1, 2], ¬ withoutWindowTraps c { core := 17 } (having [] { cores := [(17, { run := .on, res := 14 })] })
        0 0)
    ∧ (∀ c ∈ [3, 4], ¬ withoutWindowTraps c { core := 18 } (having [] { cores := [(18, { run := .on })] }) 0 0)
    ∧ ¬ withoutWindowTraps 5 { core := 15 } (having [] { cores := [(15, { run := .on, res := 15 })] }) 0 0
    ∧ ¬ withoutWindowTraps 6 { core := 16 } (having [] { cores := [(16, { run := .on })] }) 0 0
    ∧ ¬ withoutWindowTraps 7 { core := 17 } (having [] { cores := [(17, { run := .on, pc := 0xFFFF })] }) 0 0
    ∧ ¬ withoutWindowTraps 8 { core := 5 } (having [] { cores := [(5, { run := .on, pc := 0x3FFF })] }) 0 0 := by
  dsimp only [withoutWindowTraps]
  refine ⟨?_, ?_, ?_, ?_, ?_, ?_⟩ <;> decide

/-- The hypotheses of WordsNotRun: each conclusion replaced by a falsehood where it is the one asked for. -/
abbrev withoutWordsNotRun (clause : Nat) (h : Hdr) (s : State) (i : Instr) (op : BitVec 7) (opd : BitVec 20) (rs :
    BitVec 5) (xa : BitVec 5) (oa : BitVec 5) (ob : BitVec 5) (d10 : BitVec 10) (bk : BitVec 2) (ad : BitVec 2) (d8
        : BitVec 8) (sat : Bool) (fa : BitVec 9) (fb : BitVec 9) : Prop :=
    let k := here s.dev h
    let c := h.core.val
    let holds := condHolds (condOf h i) k.st k.preds
    let key := progKey (c - 17) (core s.dev c).pc.toNat
    (clause ∈ [1, 2, 3, 4, 5, 6] → (i.hdr = some h →
      ((core s.dev c).run ≠ .on ∨ (core s.dev c).hold ≠ .free → clause ≠ 1)
      ∧ (regularWord s.dev h i = true →
          (IsReady s.dev h → condOf h i = 15 → clause ≠ 2)
          ∧ (IsReady s.dev h → condOf h i ≠ 15 → holds = false → clause ≠ 3)
          ∧ (IsAble s.dev h → h.rsv ≠ 0 → i.wf = true → condOf h i ≠ 15 →
              (holds = false → Stays s.dev h → clause ≠ 4)
              ∧ (holds = true → isPc c = false → clause ≠ 5)))
      ∧ (h.poison = true ∨ poisoned (Tab.get 0 s.dev.gecc key) = true → isPc c = true → (core s.dev c).run = .on →
          (core s.dev c).hold = .free → clause ≠ 6)))
    ∧ (clause ∈ [7, 8] → (IsReady s.dev h → h.cond.toNat < 15 →
        (∀ i ∈ [Instr.mova h rs ad 3 sat, .mfs h rs 63, .mts h rs 63, .ld h 2 rs xa bk d8, .st h 3 rs xa bk d8],
        clause ≠ 7)
        ∧ (isPc c = false → clause ≠ 8)))
    ∧ (clause ∈ [9] → (IsReady s.dev h → h.cond.toNat < 7 → oa.toNat ≤ 10 → ob.toNat ≤ 10 →
        (slotPlain oa.toNat fa && slotPlain ob.toNat fb) = false →
        condHolds (condOf h (Instr.duet h oa fa ob fb)) k.st k.preds = false → clause ≠ 9))
    ∧ (clause ∈ [10, 11] → (IsReady s.dev h → isPc c = false →
        ((core s.dev c).udtrap = false → clause ≠ 10)
        ∧ ((core s.dev c).udtrap = true → clause ≠ 11)))
    ∧ (clause ∈ [12, 13] → (IsReady s.dev h → isPc c = true →
        (fld s.dev F.PC_CTRL_UDTRAP (c - 17) = 0 → clause ≠ 12)
        ∧ (fld s.dev F.PC_CTRL_UDTRAP (c - 17) = 1 → k.ctx ≠ 3 →
          clause ≠ 13)))

theorem hypotheses_WordsNotRun :
    ¬ withoutWordsNotRun 1 { core := 0 } (having []) (.nop { core := 0 }) 0 0 0 0 0 0 0 0 0 0 false 0 0
    ∧ ¬ withoutWordsNotRun 2 { core := 0, cond := 15 } (having [] { cores := [(0, { run := .on })] }) (.nop
        { core := 0, cond := 15 }) 0 0 0 0 0 0 0 0 0 0 false 0 0
    ∧ ¬ withoutWordsNotRun 3 { core := 0, cond := 1 } (having [] { cores := [(0, { run := .on })] }) (.nop
        { core := 0, cond := 1 }) 0 0 0 0 0 0 0 0 0 0 false 0 0
    ∧ ¬ withoutWordsNotRun 4 { core := 12, cond := 1, rsv := 1 } (having [] { cores := [(12, { run := .on })] })
        (.nop { core := 12, cond := 1, rsv := 1 }) 0 0 0 0 0 0 0 0 0 0 false 0 0
    ∧ ¬ withoutWordsNotRun 5 { core := 6, rsv := 1 } (having [] { cores := [(6, { run := .on })] }) (.nop
        { core := 6, rsv := 1 }) 0 0 0 0 0 0 0 0 0 0 false 0 0
    ∧ ¬ withoutWordsNotRun 6 { core := 17, poison := true } (having [] { cores := [(17, { run := .on })] }) (.nop
        { core := 17, poison := true }) 0 0 0 0 0 0 0 0 0 0 false 0 0
    ∧ (∀ c ∈ [7, 8, 10], ¬ withoutWordsNotRun c { core := 0 } (having [] { cores := [(0, { run := .on })] }) (.nop
        { core := 0 }) 0 0 0 0 0 0 0 0 0 0 false 0 0)
    ∧ ¬ withoutWordsNotRun 9 { core := 0, cond := 1 } (having [] { cores := [(0, { run := .on })] }) (.nop
        { core := 0, cond := 1 }) 0 0 0 0 0 0 0 0 0 0 false 0 1
    ∧ ¬ withoutWordsNotRun 11 { core := 0 } (having [] { cores := [(0, { run := .on, udtrap := true })] }) (.nop
        { core := 0 }) 0 0 0 0 0 0 0 0 0 0 false 0 0
    ∧ ¬ withoutWordsNotRun 12 { core := 17 } (having [(F.PC_CTRL_UDTRAP, 0, 0)] { cores := [(17, { run := .on })] })
        (.nop { core := 17 }) 0 0 0 0 0 0 0 0 0 0 false 0 0
    ∧ ¬ withoutWordsNotRun 13 { core := 17 } (having [] { cores := [(17, { run := .on })] }) (.nop { core := 17 }) 0
        0 0 0 0 0 0 0 0 0 false 0 0 := by
  dsimp only [withoutWordsNotRun]
  refine ⟨?_, ?_, ?_, ?_, ?_, ?_, ?_, ?_, ?_, ?_, ?_⟩ <;> decide

/-- The hypotheses of DuetWord: each conclusion replaced by a falsehood where it is the one asked for. -/
abbrev withoutDuetWord (clause : Nat) (h : Hdr) (s : State) (ra : BitVec 3) (rb : BitVec 3) (rc : BitVec 3) (sa :
    BitVec 3) (sb : BitVec 3) (sc : BitVec 3) (oa : BitVec 5) (ob : BitVec 5) (fa : BitVec 9) (fb : BitVec 9) : Prop
        :=
 IsReady s.dev h → h.cond.toNat < 7 →
    let k := here s.dev h
    let pc := isPc h.core.val
    let holds := condHolds ([0, 1, 2, 3, 4, 11, 12].getD h.cond.toNat 15) k.st k.preds
    let runs (oa ob : BitVec 5) (va vb : W24) : Prop :=
      ra ≠ sa → clause ≠ 1
    let runs2 (oa ob : BitVec 5) (va vb : W24) : Prop :=
      ra ≠ sa → clause ≠ 2
    let runs3 (oa ob : BitVec 5) (va vb : W24) : Prop :=
      ra ≠ sa → clause ≠ 3
    let runs4 (oa ob : BitVec 5) (va vb : W24) : Prop :=
      ra ≠ sa → clause ≠ 4
    let runs5 (oa ob : BitVec 5) (va vb : W24) : Prop :=
      ra ≠ sa → clause ≠ 5
    let p (o : BitVec 9) := ((k.x (short (o.extractLsb' 3 3))).toNat + (o.extractLsb' 0 3).toNat) % (if pc then
        65536 else 16384)
    let key (o : BitVec 9) := if pc then localKey (h.core.val - 17) (p o) else pktKey (posOf s.dev h.core.val) (p o)
    let wa := winAddr s.dev ((k.x (short (fa.extractLsb' 3 3))).toNat % 4096) (k.x (short (fa.extractLsb' 0 3))).toInt
    (clause ∈ [1] → runs 3 3 (k.x (short rb) + k.x (short rc)) (k.x (short sb) + k.x (short sc)))
    ∧ (clause ∈ [2] → runs2 3 4 (k.x (short rb) + k.x (short rc)) (k.x (short sb) - k.x (short sc)))
    ∧ (clause ∈ [3] → runs3 4 3 (k.x (short rb) - k.x (short rc)) (k.x (short sb) + k.x (short sc)))
    ∧ (clause ∈ [4] → (sc = 0 → runs4 3 5 (k.x (short rb) + k.x (short rc)) (k.x (short sb))))
    ∧ (clause ∈ [5] → (rc = 0 → runs5 5 4 (k.x (short rb)) (k.x (short sb) - k.x (short sc))))
    ∧ (clause ∈ [6] → (oa.toNat ∈ [0, 1, 2, 3, 4, 5, 9, 10] → ob.toNat ∈ [0, 1, 2, 3, 4, 5, 9, 10] → slotPlain
        oa.toNat fa = true →
        slotPlain ob.toNat fb = true →
        clause ≠ 6))
    ∧ (clause ∈ [7, 8, 9] → (holds = true → ob.toNat ∈ [0, 1, 2, 3, 4, 5, 9, 10] → slotPlain ob.toNat fb = true →
        slotTarget ob.toNat fb ≠ some (0, (fa.extractLsb' 6 3).toNat) →
        (h.upset = 0 → Tab.get 0 s.dev.pecc (key fa) = 0 →
          ∀ i ∈ [Instr.duet h 6 fa ob fb, Instr.duet h ob fb 6 fa],
            clause ≠ 7)
        ∧ (Readable s.dev h wa →
          ∀ i ∈ [Instr.duet h 7 fa ob fb, Instr.duet h ob fb 7 fa],
            clause ≠ 8)
        ∧ (∀ i ∈ [Instr.duet h 8 fa ob fb, Instr.duet h ob fb 8 fa], clause ≠ 9)))

theorem hypotheses_DuetWord :
    (∀ c ∈ [1, 2, 3, 4, 5, 6, 7, 8, 9], ¬ withoutDuetWord c { core := 0 } (having []
        { cores := [(0, { run := .on })] }) 0 0 0 1 0 0 0 0 0 0) := by
  dsimp only [withoutDuetWord]
  decide

/-- The hypotheses of ControlAccessWords: each conclusion replaced by a falsehood where it is the one asked for. -/
abbrev withoutControlAccessWords (clause : Nat) (h : Hdr) (s : State) (r : BitVec 5) (xa : BitVec 5) (d10 : BitVec
    10) : Prop :=
 IsReady s.dev h → Passes s.dev h →
    let k := here s.dev h
    let a := (k.x xa + d10.signExtend 24).toNat
    let read := readAny (if h.core.val = 16 then posOf s.dev 16 else h.core.val) a s
    (clause ∈ [1] → (read.2 = s → ctlHold s h.core.val a false = none →
      clause ≠ 1))
    ∧ (clause ∈ [2] → (isPc h.core.val = true → ctlHold s h.core.val a true = none → (a < 0x42000 ∨ 0x44000 ≤ a) →
        clause ≠ 2))
    ∧ (clause ∈ [3, 4] → (∀ x ∈ [Hold.busy, Hold.board],
        (ctlHold s h.core.val a false = some x →
          clause ≠ 3)
        ∧ (isPc h.core.val = true → ctlHold s h.core.val a true = some x →
          clause ≠ 4)))

theorem hypotheses_ControlAccessWords :
    ¬ withoutControlAccessWords 1 { core := 15 } (having [] { cores := [(15, { run := .on })] }) 0 0 0
    ∧ ¬ withoutControlAccessWords 2 { core := 17 } (having [] { cores := [(17, { run := .on })] }) 0 0 0
    ∧ ¬ withoutControlAccessWords 3 { core := 15 } (having [] { cores := [(15, { run := .on })] }
        { lc := 0, pbHeld := [(15, (0, none))] }) 0 0 0
    ∧ ¬ withoutControlAccessWords 4 { core := 17 } (having [] { cores := [(17, { run := .on })] }
        { lc := 0, pbHeld := [(17, (0, none))] }) 0 0 0 := by
  dsimp only [withoutControlAccessWords]
  refine ⟨?_, ?_, ?_, ?_⟩ <;> decide

/-- The hypotheses of ClearRows: each conclusion replaced by a falsehood where it is the one asked for. -/
abbrev withoutClearRows (clause : Nat) (s : State) (w : BitVec 6) (v : W24) (n : Fin 16) (p : Fin 18) (q : Fin 17)
    (k : Fin 129) (u : Fin 2) (x : Fin 4) (r : Fin 8) (m : Fin 2) (t : Fin 64) : Prop :=
 s.takes w →
    (clause ∈ [0] → clause ≠ 0)
    ∧ (clause ∈ [1] → (∀ i ∈ [Instr.ovrStatReopen w n v, Instr.ovrStatClr w n v],
      clause ≠ 1))
    ∧ (clause ∈ [2] → (F.LEDG_CNTCLR_STATCLR.of v = 0 → F.LEDG_CNTCLR_ALL.of v = 1 →
        clause ≠ 2))
    ∧ (clause ∈ [3] → (F.LEDG_CNTCLR_ALL.of v = 0 → F.LEDG_CNTCLR_STATCLR.of v = 1 →
        clause ≠ 3))
    ∧ (clause ∈ [4] → (F.LEDG_CNTCLR_ALL.of v = 0 → F.LEDG_CNTCLR_STATCLR.of v = 0 →
        clause ≠ 4))

theorem hypotheses_ClearRows :
    (∀ c ∈ [0, 1, 4], ¬ withoutClearRows c (having []) 0 0 0 0 0 0 0 0 0 0 0)
    ∧ ¬ withoutClearRows 2 (having []) 0 0x800000 0 0 0 0 0 0 0 0 0
    ∧ ¬ withoutClearRows 3 (having []) 0 0x400000 0 0 0 0 0 0 0 0 0 := by
  dsimp only [withoutClearRows]
  refine ⟨?_, ?_, ?_⟩ <;> decide

/-- The hypotheses of SignalWords: each conclusion replaced by a falsehood where it is the one asked for. -/
abbrev withoutSignalWords (clause : Nat) (h : Hdr) (s : State) (a : BitVec 2) (u : BitVec 2) (bk : BitVec 2) (idle :
    Bool) (bus : BitVec 9) (rd : BitVec 5) (rs : BitVec 5) (xa : BitVec 5) (c : ChRef) (d8 : BitVec 8) : Prop :=
 IsReady s.dev h → Passes s.dev h → isPc h.core.val = false →
    let k := here s.dev h
    let pos := posOf s.dev h.core.val
    let b := bus.toNat
    let f := 4 * pos + b % 4
    let old : BusSum := Tab.get {} s.dev.col.sums b
    let fifo : List Contrib := Tab.get [] s.dev.col.fifo f
    let ch := c.num k
    let due := (core s.dev h.core.val).words + 5
    let unit : Tu := Tab.get {} s.dev.tus u.toNat
    (clause ∈ [1, 2] → (fld s.dev F.COLL_CTRL_STATUS 0 = 1 → fld s.dev F.COLLN_CFG_EN b = 1 → (b < 256 ∨ fld s.dev
        F.TICK_RATE_RATE 0 < 2) →
        old.total < 8192 →
        (fifo.length < 8 → clause ≠ 1)
        ∧ (8 ≤ fifo.length →
            clause ≠ 2)))
    ∧ (clause ∈ [3] → (fld s.dev F.COLL_CTRL_STATUS 0 ≠ 1 → clause ≠ 3))
    ∧ (clause ∈ [4] → (fld s.dev F.DU_CTRL_STATUS (ch / 512) = 1 →
        clause ≠ 4))
    ∧ (clause ∈ [5] → (fld s.dev F.DU_CTRL_STATUS (ch / 512) ≠ 1 → rd ≠ 0 → (∀ l ∈ k.loads, l.due ≠ due) → h.late =
        false →
        clause ≠ 5))
    ∧ (clause ∈ [6] → (u.toNat < 2 → fld s.dev F.TU_CTRL_STATUS u.toNat = 1 →
        unit.queue.length + (if unit.running.isSome then 1 else 0) < 16 →
        clause ≠ 6))

theorem hypotheses_SignalWords :
    ¬ withoutSignalWords 1 { core := 0 } (having [(F.COLLN_CFG_EN, 438, 1)] { cores := [(0, { run := .on })] }) 0 0
        0 false 438 0 0 0 (.reg 0) 0
    ∧ ¬ withoutSignalWords 2 { core := 0 } (having [(F.COLLN_CFG_EN, 1, 1)]
        { cores := [(0, { run := .on })], col := { fifo := [(1, (List.replicate 8 { acc := 0, bus := 0, active := false, pos := 0 }))] } })
        0 0 0 false 1 0 0 0 (.imm 0) 0
    ∧ (∀ c ∈ [3, 4, 6], ¬ withoutSignalWords c { core := 0 } (having [(F.COLL_CTRL_ENABLE, 0, 0),
        (F.COLL_CTRL_STATUS, 0, 0)] { cores := [(0, { run := .on })] }) 0 0 0 false 0 0 0 0 (.imm 0) 0)
    ∧ ¬ withoutSignalWords 5 { core := 0 } (having [(F.DU_CTRL_ENABLE, 0, 0), (F.DU_CTRL_STATUS, 0, 0)]
        { cores := [(0, { run := .on })] }) 0 0 0 false 0 1 0 0 (.imm 0) 0 := by
  dsimp only [withoutSignalWords]
  refine ⟨?_, ?_, ?_, ?_⟩ <;> decide

/-- The hypotheses of EngineRunRows: each conclusion replaced by a falsehood where it is the one asked for. -/
abbrev withoutEngineRunRows (clause : Nat) (s : State) (c : Fin 19) (e : Fin 17) (p : Fin 16) (r : BitVec 7) (pre :
    List Load) (post : List Load) (l : Load) : Prop :=
 halted s.dev = false →
    let mode := fld s.dev F.SU_STAT_MODE 0
    (clause ∈ [0] → clause ≠ 0)
    ∧ (clause ∈ [1] → ((mode ≠ 2 ∨ s.dev.su.kat = 0) → clause ≠ 1))
    ∧ (clause ∈ [2] → (mode ≠ 4 → clause ≠ 2))
    ∧ (clause ∈ [3] → ((core s.dev c).loads = pre ++ l :: post → l.reg = r.toNat → l.arrived = false →
        (∀ m ∈ pre, m.reg = r.toNat → m.arrived = true) → s.dev.dus = [] →
        clause ≠ 3))

theorem hypotheses_EngineRunRows :
    (∀ c ∈ [0, 1, 2], ¬ withoutEngineRunRows c (having []) 0 0 0 0 [] []
        { reg := 0, val := 0, due := 0, arrived := false })
    ∧ ¬ withoutEngineRunRows 3 (having []
        { cores := [(5, { loads := [{ reg := 12, val := 0, due := 102, arrived := false }, { reg := 2, val := 1, due := 101, arrived := false }] })] })
        5 0 0 2 [{ reg := 12, val := 0, due := 102, arrived := false }] []
        { reg := 2, val := 1, due := 101, arrived := false } := by
  dsimp only [withoutEngineRunRows]
  refine ⟨?_, ?_⟩ <;> decide

/-- The hypotheses of UnderstudyRows: each conclusion replaced by a falsehood where it is the one asked for. -/
abbrev withoutUnderstudyRows (clause : Nat) (s : State) (w : BitVec 6) (v : W24) : Prop :=
 s.takes w →
    let k := core s.dev 16
    let su := s.dev.su
    let mode := fld s.dev F.SU_STAT_MODE 0
    let status := fld s.dev F.SU_CTRL_STATUS 0
    let take := F.SU_CMD_TAKEOVER.of v = 1
    let release := F.SU_CMD_RELEASE.of v = 1
    let clear := F.SU_CMD_CLRFAULT.of v = 1
    let busy := mode = 4 ∨ su.take.isSome = true ∨ (su.confirmed.isSome = true ∧ fld s.dev F.HOUSE_POLICY_TAKEOVER 0
        = 1)
    (clause ∈ [1] → (inKat s.dev 16 = true → k.run = .ended → k.und = false → k.spoilt = false → k.crc.toNat = fld
        s.dev F.SU_KAT_SIG_SIG 0 →
        clause ≠ 1))
    ∧ (clause ∈ [2] → (inKat s.dev 16 = true → k.run = .ended → (k.und = true ∨ k.spoilt = true ∨ k.crc.toNat ≠ fld
        s.dev F.SU_KAT_SIG_SIG 0) →
        clause ≠ 2))
    ∧ (clause ∈ [3] → (take → ¬release → ¬clear → busy → clause ≠ 3))
    ∧ (clause ∈ [4] → (take → ¬release → ¬clear → ¬busy → mode = 5 → clause ≠ 4))
    ∧ (clause ∈ [5] → (take → ¬release → ¬clear → ¬busy → mode ≠ 5 → status ≠ 1 →
        clause ≠ 5))
    ∧ (clause ∈ [6] → (take → ¬release → ¬clear → ¬busy → mode ≠ 5 → status = 1 →
        clause ≠ 6))
    ∧ (clause ∈ [7] → (¬take → release → ¬clear → clause ≠ 7))
    ∧ (clause ∈ [8] → (¬take → ¬release → clear → clause ≠ 8))
    ∧ (clause ∈ [9] → (F.SU_CTRL_ENABLE.of v = 1 →
        clause ≠ 9))
    ∧ (clause ∈ [10] → (F.SU_CTRL_ENABLE.of v = 0 → status = 1 → s.dev.ticking = true ∨ mode = 4 →
        clause ≠ 10))
    ∧ (clause ∈ [11] → (F.SU_CTRL_ENABLE.of v = 0 → status = 1 → s.dev.ticking = false → mode ≠ 4 →
        clause ≠ 11))
    ∧ (clause ∈ [12] → (F.SU_CTRL_ENABLE.of v = 0 → status ≠ 1 →
        clause ≠ 12))

theorem hypotheses_UnderstudyRows :
    (∀ c ∈ [1, 11], ¬ withoutUnderstudyRows c (having [(F.SU_STAT_MODE, 0, 2)]
        { cores := [(16, { run := .ended, crc := 0x3C96A5 })] }) 0 0)
    ∧ ¬ withoutUnderstudyRows 2 (having [(F.SU_STAT_MODE, 0, 2)] { cores := [(16, { run := .ended })] }) 0 0
    ∧ (∀ c ∈ [3, 9], ¬ withoutUnderstudyRows c (having [] { su := { take := (some (0, false)) } }) 0 0x800000)
    ∧ ¬ withoutUnderstudyRows 4 (having [(F.SU_STAT_MODE, 0, 5)]) 0 0x800000
    ∧ ¬ withoutUnderstudyRows 5 (having [(F.SU_CTRL_ENABLE, 0, 0), (F.SU_CTRL_STATUS, 0, 0)]) 0 0x800000
    ∧ ¬ withoutUnderstudyRows 6 (having []) 0 0x800000
    ∧ ¬ withoutUnderstudyRows 7 (having []) 0 0x400000
    ∧ ¬ withoutUnderstudyRows 8 (having []) 0 0x40000
    ∧ ¬ withoutUnderstudyRows 10 (having [] { ticking := true }) 0 0
    ∧ ¬ withoutUnderstudyRows 12 (having [(F.SU_CTRL_ENABLE, 0, 0), (F.SU_CTRL_STATUS, 0, 0)]) 0 0 := by
  dsimp only [withoutUnderstudyRows]
  refine ⟨?_, ?_, ?_, ?_, ?_, ?_, ?_, ?_, ?_, ?_⟩ <;> decide

/-- The hypotheses of EnableRows: each conclusion replaced by a falsehood where it is the one asked for. -/
abbrev withoutEnableRows (clause : Nat) (s : State) (w : BitVec 6) (v : W24) (n : Fin 16) (u : Fin 4) (t : Fin 2) :
    Prop :=
 s.takes w →
    let d := s.dev
    (clause ∈ [0] → clause ≠ 0)
    ∧ (clause ∈ [1] → (d.house.gated = false ∨ F.TU_CTRL_ENABLE.of v = 0 →
        clause ≠ 1))
    ∧ (clause ∈ [2] → (d.house.gated = true → F.TU_CTRL_ENABLE.of v = 1 →
        clause ≠ 2))

theorem hypotheses_EnableRows :
    (∀ c ∈ [0, 1], ¬ withoutEnableRows c (having []) 0 0 0 0 0)
    ∧ ¬ withoutEnableRows 2 (having [] { house := { gated := true } }) 0 0x800000 0 0 0 := by
  dsimp only [withoutEnableRows]
  refine ⟨?_, ?_⟩ <;> decide

/-- The hypotheses of CollectorRows: each conclusion replaced by a falsehood where it is the one asked for. -/
abbrev withoutCollectorRows (clause : Nat) (s : State) (w : BitVec 6) (v : W24) (lane : Fin 4) (ns : BitVec 15) (q :
    Contrib) (rest : List Contrib) (b : Fin 512) : Prop :=
 s.takes w →
    let d := s.dev
    let close := F.COLL_CURT_CMD_CLOSE.of v = 1
    let opens := F.COLL_CURT_CMD_OPEN.of v = 1
    (clause ∈ [1] → (Tab.get [] d.col.lane lane = q :: rest → (∀ p < 16, Tab.get [] d.col.fifo (4 * p + lane) = []) →
        fld d F.COLL_CTRL_STATUS 0 ≠ 2 →
        clause ≠ 1))
    ∧ (clause ∈ [2] → (close → ¬opens → clause ≠ 2))
    ∧ (clause ∈ [3] → (opens → ¬close → clause ≠ 3))
    ∧ (clause ∈ [4] → (close → opens → clause ≠ 4))
    ∧ (clause ∈ [5] → (d.house.engStop = true → clause ≠ 5))
    ∧ (clause ∈ [6] → (d.house.engStop = false → d.ovr = [] → (b.val < 256 ∨ fld d F.TICK_RATE_RATE 0 < 2) →
        clause ≠ 6))

theorem hypotheses_CollectorRows :
    ¬ withoutCollectorRows 1 (having []
        { col := { lane := [(1, [{ acc := 1, bus := 177, active := true, pos := 0 }, { acc := 1, bus := 184, active := false, pos := 2 }])] } })
        0 0 1 0 { acc := 1, bus := 177, active := true, pos := 0 }
        [{ acc := 1, bus := 184, active := false, pos := 2 }] 0
    ∧ ¬ withoutCollectorRows 2 (having []) 0 0x800000 0 0 { acc := 0, bus := 0, active := false, pos := 0 } [] 0
    ∧ (∀ c ∈ [3, 6], ¬ withoutCollectorRows c (having []) 0 0x400000 0 0
        { acc := 0, bus := 0, active := false, pos := 0 } [] 0)
    ∧ ¬ withoutCollectorRows 4 (having []) 0 0xC00000 0 0 { acc := 0, bus := 0, active := false, pos := 0 } [] 0
    ∧ ¬ withoutCollectorRows 5 (having [] { house := { engStop := true } }) 0 0 0 0
        { acc := 0, bus := 0, active := false, pos := 0 } [] 0 := by
  dsimp only [withoutCollectorRows]
  refine ⟨?_, ?_, ?_, ?_, ?_⟩ <;> decide

/-- The hypotheses of RampAndDynamicsRows: each conclusion replaced by a falsehood where it is the one asked for. -/
abbrev withoutRampAndDynamicsRows (clause : Nat) (s : State) (w : BitVec 6) (v : W24) (n : BitVec 12) (r : Ramp) (s0
    : Int) (u : Fin 4) (q : DynCall) (rest : List DynCall) : Prop :=
 s.takes w →
    let d := s.dev
    let j := n.toNat
    let cfg := nrd d (F.RAMPN_CFG_EN.addr j)
    let i := r.step + 1
    let a := r.addr % 67108864
    let from_ : Int := r.start.getD (Tab.get 0 d.mkt a).toInt
    let linear := r.db = false ∨ (from_ < 0 ∧ 0 < r.target) ∨ (0 < from_ ∧ r.target < 0)
    let value : Int :=
      if i = r.len then r.target
      else if linear then from_ + Real.rndAway ((r.target - from_) * i) r.len
      else rampValue true from_ r.target i r.len
    let fits := -8388608 ≤ value ∧ value ≤ 8388607
    let c := q.ch
    let unit : Du := Tab.get {} d.dus u
    (clause ∈ [0] → clause ≠ 0)
    ∧ (clause ∈ [1] → (F.RAMPN_GO_GO.of v = 1 → F.RAMPN_CFG_EN.of cfg = 1 → fld d F.RAMP_CTRL_STATUS 0 = 1 →
        clause ≠ 1))
    ∧ (clause ∈ [2] → (F.RAMPN_GO_GO.of v = 1 → F.RAMPN_CFG_EN.of cfg = 1 → fld d F.RAMP_CTRL_STATUS 0 ≠ 1 →
        clause ≠ 2))
    ∧ (clause ∈ [3] → (F.RAMPN_GO_GO.of v = 0 → clause ≠ 3))
    ∧ (clause ∈ [4] → (F.RAMPN_GO_GO.of v = 1 → F.RAMPN_CFG_EN.of cfg = 0 → clause ≠ 4))
    ∧ (clause ∈ [5] → (d.house.engStop = false → d.ramps = [(j, r)] → r.active = true → i ≤ r.len →
        (r.start = none → Tab.get 0 d.ecc a = 0) → fits ∨ d.tallies = [] → clause ≠ 5))
    ∧ (clause ∈ [6] → (unit.calls = [] ∨ d.house.engStop = true → clause ≠ 6))
    ∧ (clause ∈ [7, 8, 9] → (unit.calls = q :: rest → c < 2048 → d.house.engStop = false →
        (fld d F.DCH0_EN c = 0 → clause ≠ 7)
        ∧ (fld d F.DCH0_EN c = 1 → fld d F.DCH0_KEYEN c = 0 → fld d F.DCH4_LA c = 0 → dynLink d c = 0 →
            clause ≠ 8)
        ∧ clause ≠ 9))

theorem hypotheses_RampAndDynamicsRows :
    (∀ c ∈ [0, 3, 6], ¬ withoutRampAndDynamicsRows c (having []) 0 0 0 {} 0 0
        { pos := 0, core := 0, reg := 0, due := 0, ch := 0, x := 0 } [])
    ∧ ¬ withoutRampAndDynamicsRows 1 (having [] { nxt := [(0x30001, 0x800000)] }) 0 0x800000 0 {} 0 0
        { pos := 0, core := 0, reg := 0, due := 0, ch := 0, x := 0 } []
    ∧ ¬ withoutRampAndDynamicsRows 2 (having [(F.RAMP_CTRL_ENABLE, 0, 0), (F.RAMP_CTRL_STATUS, 0, 0)]
        { nxt := [(0x30005, 0x800000)] }) 0 0x800000 1 {} 0 0
        { pos := 0, core := 0, reg := 0, due := 0, ch := 0, x := 0 } []
    ∧ ¬ withoutRampAndDynamicsRows 4 (having []) 0 0x800000 0 {} 0 0
        { pos := 0, core := 0, reg := 0, due := 0, ch := 0, x := 0 } []
    ∧ ¬ withoutRampAndDynamicsRows 5 (having []
        { ramps := [(0, { active := true, addr := 300, start := (some 8388607), last := 3, wrote := true, len := 6, target := 8388607, db := true })] })
        0 0 0 { active := true, addr := 300, start := (some 8388607), last := 3, wrote := true, len := 6, target := 8388607, db := true }
        0 0 { pos := 0, core := 0, reg := 0, due := 0, ch := 0, x := 0 } []
    ∧ ¬ withoutRampAndDynamicsRows 7 (having []
        { dus := [(2, { calls := [{ pos := 6, core := 8, reg := 11, due := 101, ch := 0x47C, x := 0 }] })] }) 0 0 0
        {} 0 2 { pos := 6, core := 8, reg := 11, due := 101, ch := 0x47C, x := 0 } []
    ∧ (∀ c ∈ [8, 9], ¬ withoutRampAndDynamicsRows c (having [(F.DCH0_EN, 1330, 1)]
        { dus := [(0, { calls := [{ pos := 6, core := 6, reg := 11, due := 101, ch := 0x532, x := 2 }] })] }) 0 0 0
        {} 0 0 { pos := 6, core := 6, reg := 11, due := 101, ch := 0x532, x := 2 } []) := by
  dsimp only [withoutRampAndDynamicsRows]
  refine ⟨?_, ?_, ?_, ?_, ?_, ?_, ?_⟩ <;> decide

/-- The hypotheses of MarketAccessRows: each conclusion replaced by a falsehood where it is the one asked for. -/
abbrev withoutMarketAccessRows (clause : Nat) (s : State) (m : BitVec 6) (a : BitVec 26) (v : W24) (v32 : W32) (be :
    BitVec 4) (flips : BitVec 30) (wait : W24) (i : Fin 30) (j : Fin 30) (k : Fin 129) (rest : List Nat) : Prop :=
 halted s.dev = false →
    let d := s.dev
    let n := a.toNat
    let stall := servingStall d (n % 128)
    let e := Tab.get 0 d.ecc n
    let wf (d : Dev) : Prop := Memory.wf 0 d.mkt = true ∧ Memory.wf 0 d.ecc = true
    (clause ∈ [0] → clause ≠ 0)
    ∧ (clause ∈ [1] → (wf d → ∀ i ∈ [Instr.marketAccess m a none flips wait, .marketAccess m a (some v) flips wait,
        .scrubWrite k,
        .bar2Write a { be := be, flips := flips } v32], clause ≠ 1))
    ∧ (clause ∈ [2] → (e = 0 → flips = 0 → clause ≠ 2))
    ∧ (clause ∈ [3] → (e = 0 → flips = BitVec.ofNat 30 (2 ^ i.val) → d.led.postSec.contains (0x20, stall) = true →
        fld d F.MKT_CTRL_SCRUB 0 = 1 → n ∉ d.stalls.scrubs → clause ≠ 3))
    ∧ (clause ∈ [4] → (e = 0 → i ≠ j → flips = BitVec.ofNat 30 (2 ^ i.val + 2 ^ j.val) → m.toNat < 16 → fld d
        F.MKT_CTRL_AUTOSPARE 0 = 0 →
        clause ≠ 4))
    ∧ (clause ∈ [5] → (e.getLsbD 30 = true → m.toNat < 16 → clause ≠ 5))
    ∧ (clause ∈ [6] → (d.stalls.scrubs = n :: rest → servingStall d (n % 128) = k → e.getLsbD 30 = false →
        clause ≠ 6))
    ∧ (clause ∈ [7] → (d.house.boot < 2 ∨ d.pcie.d3hot = true → clause ≠ 7))
    ∧ (clause ∈ [8, 9, 10, 11] → (2 ≤ d.house.boot → d.pcie.d3hot = false →
      (be.toNat % 8 = 0 → clause ≠ 8)
      ∧ (be.toNat % 8 = 7 ∨ (be.toNat % 8 ≠ 0 ∧ e = 0 ∧ flips = 0) →
          clause ≠ 9)
      ∧ (be.toNat % 8 ≠ 0 → be.toNat % 8 ≠ 7 → e = 0 → i ≠ j → flips = BitVec.ofNat 30 (2 ^ i.val + 2 ^ j.val) →
          fld d F.MKT_CTRL_AUTOSPARE 0 = 0 → clause ≠ 10)
      ∧ (be.toNat % 8 ≠ 0 → be.toNat % 8 ≠ 7 → e.getLsbD 30 = true →
          clause ≠ 11)))

theorem hypotheses_MarketAccessRows :
    (∀ c ∈ [0, 1, 2, 7], ¬ withoutMarketAccessRows c (having []) 0 0 0 0 0 0 0 0 0 0 [])
    ∧ ¬ withoutMarketAccessRows 4 (having [(F.MKT_CTRL_SCRUB, 0, 0), (F.MKT_CTRL_AUTOSPARE, 0, 0),
        (F.MKT_CTRL_UE_RETIRE, 0, 0)]) 0 0 0 0 0 0x1020 0 5 12 0 []
    ∧ ¬ withoutMarketAccessRows 5 (having [] { ecc := [(1, 0x40000000)] }) 0 1 0 0 0 0 0 0 0 0 []
    ∧ ¬ withoutMarketAccessRows 6 (having [] { stalls := { scrubs := [2] } }) 0 2 0 0 0 0 0 0 0 2 []
    ∧ ¬ withoutMarketAccessRows 8 (having [] { house := { boot := 2 } }) 0 0 0 0 0 0 0 0 0 0 []
    ∧ ¬ withoutMarketAccessRows 9 (having [] { house := { boot := 2 } }) 0 0 0 0 1 0 0 0 0 0 []
    ∧ ¬ withoutMarketAccessRows 10 (having [(F.MKT_CTRL_SCRUB, 0, 0), (F.MKT_CTRL_AUTOSPARE, 0, 0),
        (F.MKT_CTRL_UE_RETIRE, 0, 0)] { house := { boot := 2 } }) 0 0 0 0 1 0x420000 0 22 17 0 []
    ∧ ¬ withoutMarketAccessRows 11 (having [] { ecc := [(1, 0x40000000)], house := { boot := 2 } }) 0 1 0 0 1 0 0 0
        0 0 []
    ∧ ¬ withoutMarketAccessRows 3 (having [] { led := { postSec := [(0x20, 0)] } }) 0 0 0 0 0 1 0 0 0 0 [] := by
  dsimp only [withoutMarketAccessRows]
  refine ⟨?_, ?_, ?_, ?_, ?_, ?_, ?_, ?_, ?_⟩ <;> decide

/-- The hypotheses of SparingRows: each conclusion replaced by a falsehood where it is the one asked for. -/
abbrev withoutSparingRows (clause : Nat) (s : State) (w : BitVec 6) (v : W24) (k : Nat) (c : Nat) : Prop :=
 s.takes w → s.dev.ecc = [] → s.dev.stalls.wanted = [] → k < 128 →
    let d := s.dev
    let step := fld d F.REH_STAT_STEP 0
    let stall := fld d F.REH_STAT_STALL 0
    let next := d.stalls.next
    let spare := fld d F.MKT_SPARE_STATUS 0
    let base := regWrite d w.toNat A.MKT_SPARE v
    let wanted := fld base F.MKT_SPARE_STALL 0
    (clause ∈ [1] → (F.MKT_SPARE_GO.of v = 1 → spare = 0 → wanted < 128 → d.stalls.copying = none → step = 0 →
        fld d F.MKTS_STATE_STATE wanted ≠ 4 →
        clause ≠ 1))
    ∧ (clause ∈ [2] → (F.MKT_SPARE_GO.of v = 0 ∨ spare ≠ 0 → clause ≠ 2))
    ∧ (clause ∈ [3] → (d.stalls.copying = some (k, c) → clause ≠ 3))
    ∧ (clause ∈ [4] → (d.house.boot ≠ 1 → fld d F.REH_CTRL_EN 0 = 1 → step = 0 → d.stalls.copying = none → spare < 2
        → next ≤ 128 →
        clause ≠ 4))
    ∧ (clause ∈ [5] → (step = 2 → stall < 128 → clause ≠ 5))
    ∧ (clause ∈ [6] → (step = 4 → stall < 128 → clause ≠ 6))
    ∧ (clause ∈ [7] → (step = 4 → stall = 128 → clause ≠ 7))
    ∧ (clause ∈ [8] → (step = 6 → stall < 128 → clause ≠ 8))
    ∧ (clause ∈ [9] → (d.house.boot = 1 → clause ≠ 9))
    ∧ (clause ∈ [10] → (d.house.boot ≠ 1 → F.REH_CTRL_EN.of v = 1 → step = 0 → d.stalls.copying = none → spare < 2 →
        next ≤ 128 →
        clause ≠ 10))
    ∧ (clause ∈ [11] → (F.REH_CTRL_EN.of v = 0 → step = 0 ∨ 2 < step →
        clause ≠ 11))

theorem hypotheses_SparingRows :
    (∀ c ∈ [1, 4, 10], ¬ withoutSparingRows c (having []) 0 0x800000 0 0)
    ∧ (∀ c ∈ [2, 6, 11], ¬ withoutSparingRows c (having [(F.REH_STAT_STEP, 0, 4)]) 0 0 0 0)
    ∧ ¬ withoutSparingRows 3 (having [] { stalls := { copying := (some (2, 11)) } }) 0 0 2 11
    ∧ ¬ withoutSparingRows 5 (having [(F.REH_STAT_STEP, 0, 2)]) 0 0 0 0
    ∧ ¬ withoutSparingRows 7 (having [(F.REH_STAT_STEP, 0, 4), (F.REH_STAT_STALL, 0, 128)]) 0 0 0 0
    ∧ ¬ withoutSparingRows 8 (having [(F.REH_STAT_STEP, 0, 6)]) 0 0 0 0
    ∧ ¬ withoutSparingRows 9 (having [] { house := { boot := 1 } }) 0 0 0 0 := by
  dsimp only [withoutSparingRows]
  refine ⟨?_, ?_, ?_, ?_, ?_, ?_, ?_⟩ <;> decide

/-- The hypotheses of WindowAndBoardRows: each conclusion replaced by a falsehood where it is the one asked for. -/
abbrev withoutWindowAndBoardRows (clause : Nat) (s : State) (w : BitVec 6) (n : BitVec 12) (idx : BitVec 12) (v :
    W24) (b : Nat) (m' : BitVec 6) (a : W24) (a' : W24) (v' : W24) : Prop :=
 s.takes w →
    let d := s.dev
    let sel := fld d F.MKT_WLIVE_SEL_WIN 0
    let busy := fld d F.MKT_WLIVE_CMD_BUSY 0 = 1
    let load := F.MKT_WLIVE_CMD_LOAD.of v = 1
    let apply := F.MKT_WLIVE_CMD_APPLY.of v = 1
    let first := inOrder s w.toNat = true
    let calm := busy ∧ d.wliveHeld = [] ∧ d.boardHeld = [] ∧ ∀ c < 19, (core d c).hold ≠ .busy
    let q := if w = 17 then 20 else if w = 18 then 21 else 22
    let view (i : Instr) (o : Nat) : Prop :=
      (v.toNat % 65536 = 0 → clause ≠ 9)
      ∧ (v.toNat % 65536 ≠ 0 → d.ticking = true → (Tab.get [] d.bheld q).isEmpty = true →
          (Tab.get [] d.bdue q).length + (Tab.get [] d.bq q).length < 64 →
          clause ≠ 10)
      ∧ (v.toNat % 65536 ≠ 0 → d.ticking = false → b < 65536 → clause ≠ 11)
    let view2 (i : Instr) (o : Nat) : Prop :=
      (v.toNat % 65536 = 0 → clause ≠ 12)
      ∧ (v.toNat % 65536 ≠ 0 → d.ticking = true → (Tab.get [] d.bheld q).isEmpty = true →
          (Tab.get [] d.bdue q).length + (Tab.get [] d.bq q).length < 64 →
          clause ≠ 13)
      ∧ (v.toNat % 65536 ≠ 0 → d.ticking = false → b < 65536 → clause ≠ 14)
    (clause ∈ [0] → clause ≠ 0)
    ∧ (clause ∈ [1] → (clause ≠ 1))
    ∧ (clause ∈ [2] → (first → ¬busy → load → ¬apply → clause ≠ 2))
    ∧ (clause ∈ [3] → (first → ¬busy → apply → ¬load → clause ≠ 3))
    ∧ (clause ∈ [4] → (first → ¬busy → load → apply → clause ≠ 4))
    ∧ (clause ∈ [5] → (busy ∨ heldByWlive s w.toNat = true → heldByPb s w.toNat = false →
        ∀ i ∈ [Instr.wliveLoad w v, Instr.wliveApply w v], clause ≠ 5))
    ∧ (clause ∈ [6] → (calm → d.wliveApply = false →
        clause ≠ 6))
    ∧ (clause ∈ [7] → (calm → w ≠ 32 → m' ≠ 32 → ∀ c ∈ [Instr.wliveDone],
        clause ≠ 7))
    ∧ (clause ∈ [8] → (calm → d.wliveApply = true →
        fld d F.WIN_HEAD_HEAD sel ≤ fld d F.MKT_WLIVE_LEN_LENM1 0 →
        clause ≠ 8))
    ∧ (clause ∈ [9, 10, 11] → view (.boardViewSet w idx v) 1)
    ∧ (clause ∈ [12, 13, 14] → view2 (.boardViewClr w idx v) 2)

theorem hypotheses_WindowAndBoardRows :
    (∀ c ∈ [0, 1, 9, 12], ¬ withoutWindowAndBoardRows c (having []) 0 0 0 0 0 0 0 0 0)
    ∧ ¬ withoutWindowAndBoardRows 2 (having []) 0 0 0 0x800000 0 0 0 0 0
    ∧ ¬ withoutWindowAndBoardRows 3 (having []) 0 0 0 0x400000 0 0 0 0 0
    ∧ ¬ withoutWindowAndBoardRows 4 (having []) 0 0 0 0xC00000 0 0 0 0 0
    ∧ (∀ c ∈ [5, 6, 7], ¬ withoutWindowAndBoardRows c (having [(F.MKT_WLIVE_CMD_BUSY, 0, 1)]) 0 0 0 0 0 0 0 0 0)
    ∧ ¬ withoutWindowAndBoardRows 8 (having [(F.MKT_WLIVE_CMD_BUSY, 0, 1)] { wliveApply := true }) 0 0 0 0 0 0 0 0 0
    ∧ (∀ c ∈ [10, 13], ¬ withoutWindowAndBoardRows c (having [] { ticking := true }) 0 0 0 1 0 0 0 0 0)
    ∧ (∀ c ∈ [11, 14], ¬ withoutWindowAndBoardRows c (having []) 0 0 0 1 0 0 0 0 0) := by
  dsimp only [withoutWindowAndBoardRows]
  refine ⟨?_, ?_, ?_, ?_, ?_, ?_, ?_, ?_⟩ <;> decide

/-- The hypotheses of TransformRows: each conclusion replaced by a falsehood where it is the one asked for. -/
abbrev withoutTransformRows (clause : Nat) (s : State) (w : BitVec 6) (u : Fin 2) (v : W24) (q : TuDesc) (rest :
    List TuDesc) (r : TuRun) : Prop :=
 s.takes w →
    let d := s.dev
    let t : Tu := Tab.get {} d.tus u
    let a := F.TU_QPUSH_DESC.of v * 8 % 67108864 / 8 * 8
    let len := t.queue.length + (if t.running.isSome then 1 else 0)
    let status := fld d F.TU_CTRL_STATUS u
    let free := (Tab.get [] d.bheld (16 + u.val)).isEmpty = true
    let word (a : Nat) : Nat := (Tab.get 0 d.mkt (a % 67108864)).toNat
    let logn := word q.addr / 4096 % 16
    let op := word q.addr / 256 % 4
    let src := word (q.addr + 1) % 1024 * 65536 + word (q.addr + 2) % 65536
    let dst := word (q.addr + 3) % 1024 * 65536 + word (q.addr + 4) % 65536
    let n := 2 ^ (logn + 1)
    let runs := 6 ≤ logn ∧ logn ≤ 13 ∧ op < 2 ∧ src + n ≤ 67108864 ∧ dst + n ≤ 67108864
    let clean := ∀ i < 6, Tab.get 0 d.ecc ((q.addr + i) % 67108864) = 0
    (clause ∈ [1] → (len < 16 → status = 1 →
        clause ≠ 1))
    ∧ (clause ∈ [2] → (len ≥ 16 ∨ status ≠ 1 → ¬free → clause ≠ 2))
    ∧ (clause ∈ [3] → (len ≥ 16 ∨ status ≠ 1 → free → Tab.get 0 d.ecc (a + 5) = 0 → clause ≠ 3))
    ∧ (clause ∈ [4] → (t.running ≠ none ∨ t.queue = [] ∨ ¬free → clause ≠ 4))
    ∧ (clause ∈ [5, 6] → (t.running = none → t.queue = q :: rest → free → clean →
        (runs → clause ≠ 5)
        ∧ (¬runs → clause ≠ 6)))
    ∧ (clause ∈ [7] → (t.running = none → t.queue = q :: rest → free → (Tab.get 0 d.ecc (q.addr % 67108864)).getLsbD
        30 = true →
        clause ≠ 7))
    ∧ (clause ∈ [8] → (d.boardHeld = [] → d.house.trans ≠ 2 → t.running = none ∨ ¬free → clause ≠ 8))
    ∧ (clause ∈ [9, 10] → (d.boardHeld = [] → d.house.trans ≠ 2 → t.running = some r → free → r.dst + 2 ^ (r.logn +
        1) ≤ 67108864 → r.addr + 8 ≤ 67108864 →
        clause ≠ 9
        ∧ (r.fresh = false ∨ d.wrote = [] → r.fresh = true ∨ r.dirty = [] → (d.past.filter fun e => e.1 = u.val) =
        [] →
            (∀ j < 2 ^ (r.logn + 1), Tab.get 0 d.ecc (r.src + j) = 0) → clause ≠ 10)))

theorem hypotheses_TransformRows :
    (∀ c ∈ [1, 6], ¬ withoutTransformRows c (having []
        { tus := [(1, { queue := [{ addr := 384, fresh := true }] })] }) 0 1 0 { addr := 384, fresh := true } []
        { addr := 0, logn := 0, inverse := false, expIn := 0, src := 0, dst := 0, done := none, fresh := false, dirty := [] })
    ∧ ¬ withoutTransformRows 2 (having [(F.TU_CTRL_ENABLE, 1, 0), (F.TU_CTRL_STATUS, 1, 0)]
        { bheld := [(17, [{ op := 0, base := 0, mask := 0 }])] }) 0 1 0 { addr := 0, fresh := false } []
        { addr := 0, logn := 0, inverse := false, expIn := 0, src := 0, dst := 0, done := none, fresh := false, dirty := [] }
    ∧ (∀ c ∈ [3, 4, 8], ¬ withoutTransformRows c (having [(F.TU_CTRL_ENABLE, 1, 0), (F.TU_CTRL_STATUS, 1, 0)]) 0 1 0
        { addr := 0, fresh := false } []
        { addr := 0, logn := 0, inverse := false, expIn := 0, src := 0, dst := 0, done := none, fresh := false, dirty := [] })
    ∧ ¬ withoutTransformRows 5 (having []
        { mkt := [(312, 0x6000)], tus := [(1, { queue := [{ addr := 312, fresh := true }] })] }) 0 1 0
        { addr := 312, fresh := true } []
        { addr := 0, logn := 0, inverse := false, expIn := 0, src := 0, dst := 0, done := none, fresh := false, dirty := [] }
    ∧ ¬ withoutTransformRows 7 (having []
        { ecc := [(400, 0x40000000)], tus := [(1, { queue := [{ addr := 400, fresh := true }, { addr := 480, fresh := true }] })] })
        0 1 0 { addr := 400, fresh := true } [{ addr := 480, fresh := true }]
        { addr := 0, logn := 0, inverse := false, expIn := 0, src := 0, dst := 0, done := none, fresh := false, dirty := [] }
    ∧ (∀ c ∈ [9, 10], ¬ withoutTransformRows c (having []
        { tus := [(0, { running := (some { addr := 0x3F0, logn := 6, inverse := false, expIn := 225, src := 0, dst := 256, done := none, fresh := false, dirty := [] }) })] })
        0 0 0 { addr := 0, fresh := false } []
        { addr := 0x3F0, logn := 6, inverse := false, expIn := 225, src := 0, dst := 256, done := none, fresh := false, dirty := [] })
        := by
  dsimp only [withoutTransformRows]
  refine ⟨?_, ?_, ?_, ?_, ?_, ?_⟩ <;> decide

/-- The hypotheses of CueSheetRows: each conclusion replaced by a falsehood where it is the one asked for. -/
abbrev withoutCueSheetRows (clause : Nat) (s : State) (w : BitVec 6) (v : W24) (n : Fin 64) : Prop :=
 s.takes w →
    let d := s.dev
    let st := fld d F.CUEN_STATE_STATE n
    let ns := fld d F.CUEN_NS_HI_NS n * 2 ^ 24 + fld d F.CUEN_NS_LO_NS n
    let now := F.CUEN_CTL_NOW.of v = 1
    let holds (slot : Nat) : Prop := fld d F.CUE_WINGS_VALID 0 = 1 ∧ fld d F.CUE_WINGS_SLOT 0 = slot
    let alone : Prop := F.CUEN_CTL_FSLOT.of v = F.CUEN_CTL_SLOT.of v
    (clause ∈ [1] → (st ≠ 3 → F.CUEN_CTL_VALID.of v = 1 → (now ∨ ns < 1000000000) → F.CUEN_CTL_MODE.of v = 0 →
        clause ≠ 1))
    ∧ (clause ∈ [2] → (st ≠ 3 → F.CUEN_CTL_VALID.of v = 1 → (now ∨ ns < 1000000000) → F.CUEN_CTL_MODE.of v = 1 →
        ¬alone →
        clause ≠ 2))
    ∧ (clause ∈ [3] → (st ≠ 3 → F.CUEN_CTL_VALID.of v = 1 → (¬now ∧ 1000000000 ≤ ns) ∨ (F.CUEN_CTL_MODE.of v = 1 ∧
        alone) →
        clause ≠ 3))
    ∧ (clause ∈ [4] → (1 ≤ st → st ≤ 3 → F.CUEN_CTL_VALID.of v = 0 → (RegMap.lookup (F.CUEN_CTL_VALID.addr
        n)).isSome = true →
        clause ≠ 4))
    ∧ (clause ∈ [5] → (fld d F.CUE_CTRL_AUTOLOAD 0 = 1 → d.cue.job = none → cueHead d = some n.val → st = 1 →
        ¬holds (F.CUEN_CTL_SLOT.of (Tab.get {} d.cue.entries n : CueEntry).ctl) → clause ≠ 5))
    ∧ (clause ∈ [6] → (fld d F.CUE_CTRL_AUTOLOAD 0 = 0 ∨ d.cue.job ≠ none ∨ cueHead d = none → clause ≠ 6))

theorem hypotheses_CueSheetRows :
    (∀ c ∈ [1, 6], ¬ withoutCueSheetRows c (having []) 0 0x800000 0)
    ∧ ¬ withoutCueSheetRows 2 (having []) 0 0xA01000 0
    ∧ ¬ withoutCueSheetRows 3 (having [(F.CUEN_NS_HI_NS, 7, 60)]) 0 0x800000 7
    ∧ (∀ c ∈ [4, 5], ¬ withoutCueSheetRows c (having [(F.CUEN_STATE_STATE, 47, 1)]) 0 0 47) := by
  dsimp only [withoutCueSheetRows]
  refine ⟨?_, ?_, ?_, ?_⟩ <;> decide

/-- The hypotheses of CueLoadRows: each conclusion replaced by a falsehood where it is the one asked for. -/
abbrev withoutCueLoadRows (clause : Nat) (s : State) (w : BitVec 6) (v : W24) (v32 : W32) (n : Fin 16) (hi : Bool)
    (p : Fin 17) (a : BitVec 14) (j : LoadJob) (i : Nat) (got : List (Section × List Byte)) (d2 : Dev) : Prop :=
 s.takes w →
    let d := s.dev
    let go := F.CUE_LOAD_GO.of v = 1
    let refused := fld d F.CUE_LOAD_BUSY 0 = 1 ∨ fld d F.CUE_CTRL_AUTOLOAD 0 = 1
    let free (x : Nat) : Prop := fld d F.CUE_WINGS_VALID 0 = 0 ∨ fld d F.CUE_WINGS_SLOT 0 ≠ x
    let ended := setf { d with cue := { d.cue with job := none, slotWrites := [] } } F.CUE_LOAD_BUSY 0 0
    let pass := writeSections j.master j.base j.verify (sectionsOf j.table (hdrCount j.head)) 0 [] ended
    let ready := d.cue.job = some j ∧ j.begun = true ∧ d.cue.slotWrites = [] ∧ d.cue.followLoad = none
    (clause ∈ [0] → clause ≠ 0)
    ∧ (clause ∈ [1, 2] → (∀ row ∈ [Instr.cueLoad w v, Instr.cueVerify w v],
      (go → refused → clause ≠ 1)
      ∧ (go → ¬refused → clause ≠ 2)))
    ∧ (clause ∈ [3] → (ready → j.result ≠ 1 → clause ≠ 3))
    ∧ (clause ∈ [4] → (ready → j.result = 1 → pass = (some i, got, d2) → clause ≠ 4))
    ∧ (clause ∈ [5] → (ready → j.result = 1 → pass = (none, got, d2) → clause ≠ 5))
    ∧ (clause ∈ [6] → (ready → j.result = 1 → hdrCount j.head = 0 → j.slot < 16 → clause ≠ 6))
    ∧ (clause ∈ [7] → (d.cue.job = none ∨ (d.cue.job = some j ∧ j.begun = false ∧ (Tab.get none d.moves (j.master -
        28)).isSome = true) →
        clause ≠ 7))
    ∧ (clause ∈ [8] → (d.cue.job = some j → j.begun = false → Tab.get none d.moves (j.master - 28) = none →
        clause ≠ 8))
    ∧ (clause ∈ [9, 10] → (d.cue.job.isSome = false ∨ (d.cue.job.map (·.slot)) ≠ some n.val →
        (free n.val → clause ≠ 9)
        ∧ (¬free n.val → clause ≠ 10)))
    ∧ (clause ∈ [11] → ((d.cue.job.map (·.slot)) = some n.val → clause ≠ 11))

theorem hypotheses_CueLoadRows :
    (∀ c ∈ [0, 1, 7, 9], ¬ withoutCueLoadRows c (having []) 0 0x800000 0 0 false 0 0
        { slot := 0, base := 0, verify := false, follow := none, entry := none, master := 0, result := 0, sect := 0, head := [], table := [] }
        0 [] {})
    ∧ ¬ withoutCueLoadRows 2 (having [(F.CUE_CTRL_ENABLE, 0, 0), (F.CUE_CTRL_STATUS, 0, 0), (F.CUE_CTRL_AUTOLOAD, 0,
        0), (F.CUE_CTRL_LPORT, 0, 0)]) 0 0x800000 0 0 false 0 0
        { slot := 0, base := 0, verify := false, follow := none, entry := none, master := 0, result := 0, sect := 0, head := [], table := [] }
        0 [] {}
    ∧ ¬ withoutCueLoadRows 3 (having []
        { cue := { job := (some { slot := 3, base := 50, verify := true, follow := none, entry := none, master := 28, result := 0, sect := 176, head := (List.replicate 16 0 ++ List.replicate 48 5), table := [3, 0, 0, 0, 64, 0, 0, 0, 4, 0, 0, 0, 28, 223, 68, 33] }) } })
        0 0 0 0 false 0 0
        { slot := 3, base := 50, verify := true, follow := none, entry := none, master := 28, result := 0, sect := 176, head := (List.replicate 16 0 ++ List.replicate 48 5), table := [3, 0, 0, 0, 64, 0, 0, 0, 4, 0, 0, 0, 28, 223, 68, 33] }
        0 [] {}
    ∧ ¬ withoutCueLoadRows 6 (having []
        { cue := { job := (some { slot := 12, base := 140, verify := false, follow := none, entry := none, master := 28, result := 1, sect := 57, head := [], table := [] }) } })
        0 0 0 0 false 0 0
        { slot := 12, base := 140, verify := false, follow := none, entry := none, master := 28, result := 1, sect := 57, head := [], table := [] }
        0 [] {}
    ∧ ¬ withoutCueLoadRows 8 (having []
        { cue := { job := (some { slot := 0, base := 470, verify := false, follow := none, entry := none, master := 28, result := 2, sect := 185, head := [], table := [], begun := false }) } })
        0 0 0 0 false 0 0
        { slot := 0, base := 470, verify := false, follow := none, entry := none, master := 28, result := 2, sect := 185, head := [], table := [], begun := false }
        0 [] {}
    ∧ ¬ withoutCueLoadRows 10 (having [(F.CUE_WINGS_VALID, 0, 1), (F.CUE_WINGS_SLOT, 0, 10)]) 0 0 0 10 false 0 0
        { slot := 0, base := 0, verify := false, follow := none, entry := none, master := 0, result := 0, sect := 0, head := [], table := [] }
        0 [] {}
    ∧ ¬ withoutCueLoadRows 11 (having []
        { cue := { job := (some { slot := 8, base := 0, verify := false, follow := none, entry := none, master := 0, result := 0, sect := 0, head := [], table := [] }) } })
        0 0 0 8 false 0 0
        { slot := 0, base := 0, verify := false, follow := none, entry := none, master := 0, result := 0, sect := 0, head := [], table := [] }
        0 [] {}
    ∧ ¬ withoutCueLoadRows 4 (having []
        { cue := { job := some { slot := 0, base := 0, verify := false, follow := none, entry := none, master := 28, result := 1, sect := 0, head := List.replicate 14 0 ++ [1, 0], table := [3, 0, 0, 0, 64, 0, 0, 0, 0, 0, 0, 0, 1, 0, 0, 0] } } })
        0 0 0 0 false 0 0
        { slot := 0, base := 0, verify := false, follow := none, entry := none, master := 28, result := 1, sect := 0, head := List.replicate 14 0 ++ [1, 0], table := [3, 0, 0, 0, 64, 0, 0, 0, 0, 0, 0, 0, 1, 0, 0, 0] }
        0 [] {}
    ∧ ¬ withoutCueLoadRows 5 (having []
        { cue := { job := some { slot := 0, base := 0, verify := true, follow := none, entry := none, master := 28, result := 1, sect := 0, head := List.replicate 14 0 ++ [1, 0], table := [3, 0, 0, 0, 64, 0, 0, 0, 4, 0, 0, 0, 0x1C, 0xDF, 0x44, 0x21] } } })
        0 0 0 0 false 0 0
        { slot := 0, base := 0, verify := true, follow := none, entry := none, master := 28, result := 1, sect := 0, head := List.replicate 14 0 ++ [1, 0], table := [3, 0, 0, 0, 64, 0, 0, 0, 4, 0, 0, 0, 0x1C, 0xDF, 0x44, 0x21] }
        0 [({ type := 3, inst := 0, rsv := 0, off := 64, len := 4, crc := 558161692 }, [0, 0, 0, 0])] {} := by
  dsimp only [withoutCueLoadRows]
  refine ⟨?_, ?_, ?_, ?_, ?_, ?_, ?_, ?_, ?_⟩ <;> decide

/-- The hypotheses of VaultRows: each conclusion replaced by a falsehood where it is the one asked for. -/
abbrev withoutVaultRows (clause : Nat) (s : State) (w : BitVec 6) (v : W24) (x : W24) (upset : BitVec 30) (j : Seal)
    (c : CryptoJob) : Prop :=
 s.takes w →
    let d := s.dev
    let sec := (w = 17 ∨ w = 18) ∧ (core d w.toNat).st.getLsbD 14 = true
    let a := fld d F.VAULT_ADDR_ADDR 0
    let wiping := fld d F.VAULT_STAT_WIPING 0 = 1
    let vbusy := fld d F.VAULT_STAT_BUSY 0 = 1
    let cbusy := fld d F.VAULT_CSTAT_BUSY 0 = 1
    let bytes (t : List (Nat × W24)) (a n : Nat) : List Byte :=
      (List.range n).map fun k => BitVec.ofNat 8 ((Tab.get 0 t (a + k / 3)).toNat / 256 ^ (k % 3))
    let gcm := c.cmd = 2 ∨ c.cmd = 3
    let aad := if gcm then leAt (bytes d.mkt c.src 16) 12 4 else 0
    let reads := match c.cmd with
      | 1 => c.len | 2 => 16 + aad + c.len | 3 => 32 + aad + c.len | 4 => 48 | 5 => 240 | _ => 0
    let keyWords := if gcm then 11 else if c.cmd = 4 ∨ c.cmd = 6 then 16 else 0
    let writes := match c.cmd with
      | 1 => 48 | 2 => c.len + 16 | 3 => c.len | 4 => 96 | 6 => 96 | 7 => c.len | _ => 0
    let within := c.src + (reads + 2) / 3 ≤ 67108864 ∧ c.dst + (writes + 2) / 3 ≤ 67108864 ∧ c.key + keyWords ≤ 65536
    let first := s.sec.key = 0
    let blob (n : Nat) : List Byte :=
      (List.range n).map fun k => BitVec.ofNat 8 ((Tab.get 0 d.mkt (j.blob + k / 3)).toNat / 256 ^ (k % 3))
    let size := leAt (blob 36) 16 4
    let crypto : List Instr :=
      [.sha384 w v, .gcmenc w v, .gcmdec w v, .sign w v, .verify w v, .keygen w v, .random w v]
    let asked (i : Instr) (wrap : Bool) : Prop :=
      (sec → ¬vbusy → ¬wiping → clause ≠ 7)
      ∧ (sec → vbusy ∨ wiping → clause ≠ 8)
    let asked2 (i : Instr) (wrap : Bool) : Prop :=
      (sec → ¬vbusy → ¬wiping → clause ≠ 9)
      ∧ (sec → vbusy ∨ wiping → clause ≠ 10)
    let guarded : List Instr :=
      [.vaultDataAccess w (some x) upset, .vaultDataAccess w none upset, .wrap w v, .unwrap w v] ++ crypto
    let flips := Tab.get 0 s.sec.vecc a ^^^ upset
    (clause ∈ [0] → clause ≠ 0)
    ∧ (clause ∈ [1] → (sec → ¬wiping → clause ≠ 1))
    ∧ (clause ∈ [2] → (sec → ¬wiping → upset = 0 → Tab.get 0 s.sec.vecc a = 0 → clause ≠ 2))
    ∧ (clause ∈ [3] → (sec → ¬wiping → 1 < ones (flips.zeroExtend 31) →
        clause ≠ 3))
    ∧ (clause ∈ [4] → (sec → wiping → ∀ o ∈ [none, some x], clause ≠ 4))
    ∧ (clause ∈ [5, 6] → (∀ i ∈ guarded, ¬sec →
        (w.toNat ∈ d.house.vaultDeny → clause ≠ 5)
        ∧ (w.toNat ∉ d.house.vaultDeny → clause ≠ 6)))
    ∧ (clause ∈ [7, 8] → (F.VAULT_CMD_WRAP.of v = 1 → asked (.wrap w v) true))
    ∧ (clause ∈ [9, 10] → (F.VAULT_CMD_WRAP.of v = 0 → F.VAULT_CMD_UNWRAP.of v = 1 → asked2 (.unwrap w v) false))
    ∧ (clause ∈ [11] → (s.sec.sealing = some j → j.wrap = true → s.sec.key ≠ 0 → s.sec.wraps = 0xFFFFFFFF →
        clause ≠ 11))
    ∧ (clause ∈ [12] → (s.sec.sealing = some j → j.wrap = false → d.ecc = [] → d.tallies = [] → d.mkt = [] →
        clause ≠ 12))
    ∧ (clause ∈ [13] → (s.sec.sealing = some j → j.wrap = true → first ∨ s.sec.wraps ≠ 0xFFFFFFFF → s.sec.vecc = [] →
        j.blob + (54 + 3 * j.len) / 3 ≤ 67108864 → clause ≠ 13))
    ∧ (clause ∈ [14] → (s.sec.sealing = some j → j.wrap = false → ¬wiping → d.ecc = [] → j.blob + (54 + 3 * min
        65536 size) / 3 ≤ 67108864 →
        clause ≠ 14))
    ∧ (clause ∈ [15, 16] → (∀ i ∈ crypto, F.VAULT_CCMD_GO.of v = 1 →
        (sec → ¬cbusy → ¬vbusy → ¬wiping → clause ≠ 15)
        ∧ (sec → cbusy ∨ vbusy ∨ wiping → clause ≠ 16)))
    ∧ (clause ∈ [17] → (s.sec.crypto = some c → c.cmd ≤ 7 → c.cmd = 0 ∨ ¬within → (gcm → d.ecc = [] ∧ d.tallies =
        []) →
        clause ≠ 17))
    ∧ (clause ∈ [18] → (s.sec.crypto = some c → 1 ≤ c.cmd → c.cmd ≤ 7 → within → d.ecc = [] → d.tallies = [] →
        s.sec.vecc = [] →
        clause ≠ 18))

theorem hypotheses_VaultRows :
    (∀ c ∈ [0, 5], ¬ withoutVaultRows c (having [] { house := { vaultDeny := [18] } }) 18 0 0 0
        { wrap := false, len := 0, blob := 0, who := 0 }
        { cmd := 0, src := 0, dst := 0, len := 0, key := 0, who := 0 })
    ∧ (∀ c ∈ [1, 2, 7, 15], ¬ withoutVaultRows c (having [] { cores := [(18, { st := 0x4000 })] }) 18 0x800000 0 0
        { wrap := false, len := 0, blob := 0, who := 0 }
        { cmd := 0, src := 0, dst := 0, len := 0, key := 0, who := 0 })
    ∧ ¬ withoutVaultRows 3 (having [(F.VAULT_ADDR_ADDR, 0, 39347)] { cores := [(17, { st := 0x4000 })] }
        { vecc := [(0x99B3, 6)], lc := 0 }) 17 0 0 0 { wrap := false, len := 0, blob := 0, who := 0 }
        { cmd := 0, src := 0, dst := 0, len := 0, key := 0, who := 0 }
    ∧ (∀ c ∈ [4, 10], ¬ withoutVaultRows c (having [(F.VAULT_STAT_WIPING, 0, 1)]
        { cores := [(18, { st := 0x4000 })] }) 18 0x400000 0 0 { wrap := false, len := 0, blob := 0, who := 0 }
        { cmd := 0, src := 0, dst := 0, len := 0, key := 0, who := 0 })
    ∧ (∀ c ∈ [6, 12, 14], ¬ withoutVaultRows c (having [] {}
        { lc := 0, sealing := (some { wrap := false, len := 24, blob := 713, who := 17 }) }) 0 0 0 0
        { wrap := false, len := 24, blob := 713, who := 17 }
        { cmd := 0, src := 0, dst := 0, len := 0, key := 0, who := 0 })
    ∧ ¬ withoutVaultRows 8 (having [(F.VAULT_STAT_BUSY, 0, 1)] { cores := [(17, { st := 0x4000 })] }) 17 0x800000 0
        0 { wrap := false, len := 0, blob := 0, who := 0 }
        { cmd := 0, src := 0, dst := 0, len := 0, key := 0, who := 0 }
    ∧ ¬ withoutVaultRows 9 (having [] { cores := [(17, { st := 0x4000 })] }) 17 0x400000 0 0
        { wrap := false, len := 0, blob := 0, who := 0 }
        { cmd := 0, src := 0, dst := 0, len := 0, key := 0, who := 0 }
    ∧ ¬ withoutVaultRows 11 (having [] {}
        { key := 1, wraps := 0xFFFFFFFF, lc := 0, sealing := (some { wrap := true, len := 30, blob := 294, who := 17 }) })
        0 0 0 0 { wrap := true, len := 30, blob := 294, who := 17 }
        { cmd := 0, src := 0, dst := 0, len := 0, key := 0, who := 0 }
    ∧ ¬ withoutVaultRows 13 (having [] {}
        { lc := 0, sealing := (some { wrap := true, len := 31, blob := 510, who := 17 }) }) 0 0 0 0
        { wrap := true, len := 31, blob := 510, who := 17 }
        { cmd := 0, src := 0, dst := 0, len := 0, key := 0, who := 0 }
    ∧ ¬ withoutVaultRows 16 (having [(F.VAULT_CSTAT_BUSY, 0, 1)] { cores := [(18, { st := 0x4000 })] }) 18 0x800000
        0 0 { wrap := false, len := 0, blob := 0, who := 0 }
        { cmd := 0, src := 0, dst := 0, len := 0, key := 0, who := 0 }
    ∧ ¬ withoutVaultRows 17 (having [] {}
        { lc := 0, crypto := (some { cmd := 0, src := 0x3FFFFFC, dst := 0x3FFFFFD, len := 80, key := 835, who := 17 }) })
        0 0 0 0 { wrap := false, len := 0, blob := 0, who := 0 }
        { cmd := 0, src := 0x3FFFFFC, dst := 0x3FFFFFD, len := 80, key := 835, who := 17 }
    ∧ ¬ withoutVaultRows 18 (having [] {}
        { lc := 0, crypto := (some { cmd := 2, src := 100, dst := 0x1388, len := 1, key := 825, who := 17 }) }) 0 0
        0 0 { wrap := false, len := 0, blob := 0, who := 0 }
        { cmd := 2, src := 100, dst := 0x1388, len := 1, key := 825, who := 17 } := by
  dsimp only [withoutVaultRows]
  refine ⟨?_, ?_, ?_, ?_, ?_, ?_, ?_, ?_, ?_, ?_, ?_, ?_⟩ <;> decide

/-- The hypotheses of PromptBookRows: each conclusion replaced by a falsehood where it is the one asked for. -/
abbrev withoutPromptBookRows (clause : Nat) (s : State) (w : BitVec 6) (v : W24) (b : Nat) (m' : BitVec 6) (a : W24)
    (v' : W24) (a' : W24) : Prop :=
 s.takes w →
    let d := s.dev
    let p := fld d F.PB_ADDR_ADDR 0
    let sec := (w = 17 ∨ w = 18) ∧ (core d w.toNat).st.getLsbD 14 = true
    let reads (n : Nat) : Prop := ∀ i < n, (p + i) % 0x80000 < 0x78000 ∨ sec
    let writes (n : Nat) : Prop := ∀ i < n,
      if 0x78000 ≤ (p + i) % 0x80000 then sec
      else ((p + i) % 0x80000 < 0x1000 ∨ 0x10000 ≤ (p + i) % 0x80000) ∧ (w = 17 ∨ w = 18 ∨ w = 32)
    let busy := fld d F.PB_STAT_BUSY 0 = 1
    let first := inOrder s w.toNat = true
    (clause ∈ [1, 2, 3, 4, 5] → (∀ n ∈ [1, 3],
      (first → ¬busy → writes n → clause ≠ 1)
      ∧ (first → ¬busy → reads n → clause ≠ 2)
      ∧ (first → ¬busy → ¬writes n → w.toNat ∈ d.house.pbDeny →
          clause ≠ 3)
      ∧ (first → ¬busy → ¬writes n → w.toNat ∉ d.house.pbDeny →
          clause ≠ 4)
      ∧ ((busy ∧ first) ∨ heldByPb s w.toNat = true → clause ≠ 5)))
    ∧ (clause ∈ [6, 7] → (s.sec.pbHeld = [] → d.boardHeld = [] → (∀ c < 19, (core d c).hold ≠ .busy) →
        clause ≠ 6
        ∧ (w ≠ 32 → m' ≠ 32 → ∀ c ∈ [Instr.pbWriteDone],
          clause ≠ 7)))

theorem hypotheses_PromptBookRows :
    ¬ withoutPromptBookRows 1 (having []) 18 0 0 0 0 0 0
    ∧ (∀ c ∈ [2, 4, 6, 7], ¬ withoutPromptBookRows c (having []) 0 0 0 0 0 0 0)
    ∧ ¬ withoutPromptBookRows 3 (having [] { house := { pbDeny := [1] } }) 1 0 0 0 0 0 0
    ∧ ¬ withoutPromptBookRows 5 (having [(F.PB_STAT_BUSY, 0, 1)]) 0 0 0 0 0 0 0 := by
  dsimp only [withoutPromptBookRows]
  refine ⟨?_, ?_, ?_, ?_⟩ <;> decide

/-- The hypotheses of GovernorRows: each conclusion replaced by a falsehood where it is the one asked for. -/
abbrev withoutGovernorRows (clause : Nat) (s : State) (w : BitVec 6) (v : W24) (m : Nat) : Prop :=
 s.takes w →
    let d := s.dev
    let g := d.gov
    let clip (n : Nat) : Nat := max 680 (min 850 n)
    let step (f : Fld) : Nat := max 1 (min 50 (fld d f 0))
    let guard := 10 * max 1 (fld d F.PWR_GOV_CTRL_GUARD 0)
    let top := clip (fld d F.PWR_GOV_LIMITS_VMAX 0)
    let short := g.ovr = true ∨ m < guard
    let overs := m > guard + 10 * fld d F.PWR_GOV_STEP_HYST 0
    let up := min top (g.vreq + step F.PWR_GOV_STEP_STEP_UP)
    let hold := fld d F.PWR_GOV_CTRL_HOLDWIN 0
    let idle := d.ticking = false ∨ d.house.engStop = true ∨ ∀ p < 16, fld d F.SE_ENG_CTRL_STATUS p = 0
    let en := fld d F.PWR_GOV_CTRL_EN 0 = 1
    let measured := g.minSlack = some m
    let window := en ∧ measured ∧ ¬idle
    (clause ∈ [0] → clause ≠ 0)
    ∧ (clause ∈ [1] → (g.minSlack = none → clause ≠ 1))
    ∧ (clause ∈ [2] → (measured → ¬en ∨ idle → clause ≠ 2))
    ∧ (clause ∈ [3] → (window → short → up < g.vreq → g.settle = 0 → clause ≠ 3))
    ∧ (clause ∈ [4] → (window → ¬short → overs → hold ≠ 0 → hold ≤ g.above + 1 → g.settle = 0 →
        clause ≠ 4))
    ∧ (clause ∈ [5] → (g.busy = true → g.frozen = false →
        clause ≠ 5))
    ∧ (clause ∈ [6] → (g.busy = true → g.frozen = true →
        let freed : Gov := { g with busy := false, vreq := g.sent, tries := 0, settle := 250000, frozen := false }
        clause ≠ 6))
    ∧ (clause ∈ [7] → (g.busy = true → g.frozen = false → g.tries < 3 →
        clause ≠ 7))
    ∧ (clause ∈ [8] → (g.busy = true → g.frozen = false → 3 ≤ g.tries → clause ≠ 8))
    ∧ (clause ∈ [9] → (g.busy = true → g.frozen = true → clause ≠ 9))
    ∧ (clause ∈ [10] → (∀ ok : Bool, g.busy = false → clause ≠ 10))
    ∧ (clause ∈ [11] → (g.readTries < 3 → clause ≠ 11))
    ∧ (clause ∈ [12] → (3 ≤ g.readTries → clause ≠ 12))
    ∧ (clause ∈ [13] → (g.frozen = true → g.busy = false → clause ≠ 13))
    ∧ (clause ∈ [14] → (g.frozen = false ∨ g.busy = true → clause ≠ 14))
    ∧ (clause ∈ [15] → (clip (F.PWR_GOV_LIMITS_VMAX.of v) < clip (F.PWR_GOV_LIMITS_VMIN.of v) →
        clause ≠ 15))
    ∧ (clause ∈ [16] → (clip (F.PWR_GOV_LIMITS_VMIN.of v) ≤ clip (F.PWR_GOV_LIMITS_VMAX.of v) →
        clause ≠ 16))

theorem hypotheses_GovernorRows :
    (∀ c ∈ [0, 1, 10, 11, 14, 16], ¬ withoutGovernorRows c (having []) 0 0 0)
    ∧ ¬ withoutGovernorRows 2 (having [] { gov := { minSlack := (some 63) } }) 0 0 63
    ∧ ¬ withoutGovernorRows 3 (having [(F.SE_ENG_CTRL_ENABLE, 3, 0), (F.SE_ENG_CTRL_STATUS, 3, 1),
        (F.PWR_GOV_LIMITS_VMAX, 0, 0), (F.PWR_GOV_LIMITS_VMIN, 0, 0)]
        { gov := { minSlack := (some 0x7F98), ovr := true }, ticking := true }) 0 0 0x7F98
    ∧ ¬ withoutGovernorRows 4 (having [(F.SE_ENG_CTRL_ENABLE, 3, 0), (F.SE_ENG_CTRL_STATUS, 3, 1),
        (F.PWR_GOV_CTRL_HOLDWIN, 0, 2), (F.PWR_GOV_CTRL_WINDOW, 0, 0), (F.PWR_GOV_CTRL_GUARD, 0, 0),
        (F.PWR_GOV_STEP_HYST, 0, 0), (F.PWR_GOV_STEP_STEP_UP, 0, 0), (F.PWR_GOV_STEP_STEP_DN, 0, 0)]
        { gov := { minSlack := (some 63), above := 1 }, ticking := true }) 0 0 63
    ∧ (∀ c ∈ [5, 7], ¬ withoutGovernorRows c (having [] { gov := { busy := true } }) 0 0 0)
    ∧ (∀ c ∈ [6, 9], ¬ withoutGovernorRows c (having [] { gov := { busy := true, frozen := true } }) 0 0 0)
    ∧ ¬ withoutGovernorRows 8 (having [] { gov := { busy := true, tries := 3 } }) 0 0 0
    ∧ ¬ withoutGovernorRows 12 (having [] { gov := { readTries := 3 } }) 0 0 0
    ∧ ¬ withoutGovernorRows 13 (having [] { gov := { frozen := true } }) 0 0 0
    ∧ ¬ withoutGovernorRows 15 (having []) 0 0x800 0 := by
  dsimp only [withoutGovernorRows]
  refine ⟨?_, ?_, ?_, ?_, ?_, ?_, ?_, ?_, ?_, ?_⟩ <;> decide

/-- The hypotheses of LinkRows: each conclusion replaced by a falsehood where it is the one asked for. -/
abbrev withoutLinkRows (clause : Nat) (s : State) (w : BitVec 6) (n : Fin 4) (v : W24) (cause : BitVec 3) (q :
    BitVec 16) (g : TxFrame) (k : Nat) : Prop :=
      s.takes w →
    let d := s.dev
    let p : Port := Tab.get {} d.ports n
    let up := fld d F.PORT_STAT_LINK n = 2
    let unfed := ∀ r < 8, fld d F.RING_CFG_STATUS r ≠ 1
    let quiet := unfed ∧ p.txq = [] ∧ p.wire = none ∧ p.open_ = none
    let lost := p.wire.toList ++ p.txq
    let light := unfed ∧ p.open_ = none ∧ ∀ f ∈ lost, f.kind = 0 ∨ (f.kind = 1 ∧ fld d F.TXS_CFG_STATUS f.src ≠ 2)
    let base := regWrite d w.toNat (F.PORT_CTRL_ENABLE.addr n) v
    let same := ∀ f ∈ [F.PORT_CTRL_SPEED, F.PORT_CTRL_FEC25, F.PORT_CTRL_FEC10, F.PORT_CTRL_LPSEL], fld base f n =
        fld d f n
    let ps := fld d F.PORT_STAT_PSTATE n
    let paused := fld d F.PORT_STAT_PAUSED n = 1
    let off := fld d F.PORT_CTRL_STATUS n = 2
    let runs := up ∧ fld d F.PORT_CTRL_STATUS n = 1
    let takes := runs ∧ fld d F.PORT_PAUSE_EN n = 1 ∧ fld d F.PORT_STAT_HOLDOFF n = 0
    let busy := ∃ f ∈ p.wire, f.kind = 3 ∨ fld d F.PORT_PAUSE_SCOPE n = 1
    let storms := nowNs d :: p.storms.filter fun t => nowNs d < t + 60000000000
    let desc := descAddr d g.src k
    let sound (j : Nat) : Prop := Tab.get 0 d.ecc (desc + j) = 0
    let pre := fld d F.PORT_PREEMPT_EN n
    let rises := fld d F.PORT_CTRL_STATUS n = 1 ∧ ¬up ∧ fld d F.LP_STAT_STATE (fld d F.PORT_CTRL_LPSEL n) = 2
    (clause ∈ [0] → clause ≠ 0)
    ∧ (clause ∈ [1] → (rises → fld d F.PORT_STAT_STEP n ≠ 3 →
        clause ≠ 1))
    ∧ (clause ∈ [2] → (rises → fld d F.PORT_STAT_STEP n = 3 →
        clause ≠ 2))
    ∧ (clause ∈ [3] → (¬rises → clause ≠ 3))
    ∧ (clause ∈ [4] → (up → light →
        clause ≠ 4))
    ∧ (clause ∈ [5] → (up → ¬off → unfed → p.wire = some g → g.kind = 2 → g.descs = [k] → g.tsreq = false → p.open_
        = none → p.txq = [] →
        4 ≤ g.src → g.src < 8 → sound 1 → desc + 8 ≤ 67108864 →
        clause ≠ 5))
    ∧ (clause ∈ [6] → (¬up → clause ≠ 6))
    ∧ (clause ∈ [7] → (F.PORT_CTRL_ENABLE.of v = 1 → same → fld d F.PORT_CTRL_STATUS n = 0 → ¬up →
        clause ≠ 7))
    ∧ (clause ∈ [8] → (F.PORT_CTRL_ENABLE.of v = 0 → same → fld d F.PORT_CTRL_STATUS n ≠ 0 → ¬up → quiet →
        p.pausePend = false →
        clause ≠ 8))
    ∧ (clause ∈ [9] → (F.PORT_CTRL_ENABLE.of v = 0 → same → fld d F.PORT_CTRL_STATUS n ≠ 0 → up → quiet →
        clause ≠ 9))
    ∧ (clause ∈ [10] → (F.PORT_CTRL_ENABLE.of v = 0 → same → fld d F.PORT_CTRL_STATUS n = 0 → clause ≠ 10))
    ∧ (clause ∈ [11] → (F.PORT_CTRL_ENABLE.of v = 1 → same → fld d F.PORT_CTRL_STATUS n = 1 → clause ≠ 11))
    ∧ (clause ∈ [12] → (F.PORT_CTRL_ENABLE.of v = 1 → same → fld d F.PORT_CTRL_STATUS n = 2 → up →
        clause ≠ 12))
    ∧ (clause ∈ [13] → (F.PORT_CTRL_ENABLE.of v = 1 → ¬same → fld d F.PORT_CTRL_STATUS n = 1 → ¬up →
        clause ≠ 13))
    ∧ (clause ∈ [14] → (¬runs → clause ≠ 14))
    ∧ (clause ∈ [15] → (runs → ¬takes → clause ≠ 15))
    ∧ (clause ∈ [16] → (takes → q = 0 → ¬paused → clause ≠ 16))
    ∧ (clause ∈ [17] → (takes → q = 0 → paused → clause ≠ 17))
    ∧ (clause ∈ [18] → (takes → q ≠ 0 → paused → clause ≠ 18))
    ∧ (clause ∈ [19] → (takes → q ≠ 0 → ¬paused → busy → clause ≠ 19))
    ∧ (clause ∈ [20] → (takes → q ≠ 0 → ¬paused → ¬busy →
        clause ≠ 20))
    ∧ (clause ∈ [21] → (paused → clause ≠ 21))
    ∧ (clause ∈ [22] → (¬paused → ∀ i ∈ [Instr.pauseEnd n, Instr.pauseStorm n], clause ≠ 22))
    ∧ (clause ∈ [23] → (paused → fld d F.PORT_PAUSE2_STORMMAX n = 0 →
        clause ≠ 23))
    ∧ (clause ∈ [24] → (paused → fld d F.PORT_PAUSE2_STORMMAX n ≠ 0 → storms.length < fld d F.PORT_PAUSE2_STORMMAX n →
        clause ≠ 24))
    ∧ (clause ∈ [25] → (paused → fld d F.PORT_PAUSE2_STORMMAX n ≠ 0 → fld d F.PORT_PAUSE2_STORMMAX n ≤ storms.length →
        clause ≠ 25))
    ∧ (clause ∈ [26] → (pre = 1 → clause ≠ 26))
    ∧ (clause ∈ [27] → (pre = 0 → clause ≠ 27))
    ∧ (clause ∈ [28] → (ps = 1 → p.verifies < 3 → clause ≠ 28))
    ∧ (clause ∈ [29] → (ps = 1 → 3 ≤ p.verifies → clause ≠ 29))
    ∧ (clause ∈ [30] → (ps ≠ 1 → clause ≠ 30))

theorem hypotheses_LinkRows :
    (∀ c ∈ [0, 3, 6, 14, 22, 26, 30], ¬ withoutLinkRows c (having []) 0 0 0 0 0 { bytes := [], kind := 0 } 0)
    ∧ (∀ c ∈ [1, 8], ¬ withoutLinkRows c (having [(F.LP_STAT_STATE, 0, 2), (F.PORT_CTRL_STATUS, 3, 1),
        (F.PORT_CTRL_FEC25, 3, 0), (F.PORT_CTRL_LPSEL, 3, 0)]) 0 3 0 0 0 { bytes := [], kind := 0 } 0)
    ∧ ¬ withoutLinkRows 2 (having [(F.LP_STAT_STATE, 0, 2), (F.PORT_CTRL_STATUS, 1, 1), (F.PORT_CTRL_FEC25, 1, 0),
        (F.PORT_STAT_STEP, 1, 3)]) 0 1 0 0 0 { bytes := [], kind := 0 } 0
    ∧ (∀ c ∈ [4, 9, 16], ¬ withoutLinkRows c (having [(F.PORT_CTRL_STATUS, 1, 1), (F.PORT_CTRL_FEC25, 1, 0),
        (F.PORT_STAT_LINK, 1, 2)]) 0 1 0 0 0 { bytes := [], kind := 0 } 0)
    ∧ ¬ withoutLinkRows 5 (having [(F.PORT_STAT_LINK, 1, 2)]
        { ports := [(1, { wire := (some { bytes := [], kind := 2, src := 6, descs := [3] }) })] }) 0 1 0 0 0
        { bytes := [], kind := 2, src := 6, descs := [3] } 3
    ∧ ¬ withoutLinkRows 7 (having [(F.PORT_CTRL_SPEED, 3, 1), (F.PORT_CTRL_FEC25, 3, 1)]) 0 3 0x950000 0 0
        { bytes := [], kind := 0 } 0
    ∧ ¬ withoutLinkRows 10 (having [(F.PORT_CTRL_SPEED, 2, 1), (F.PORT_CTRL_FEC25, 2, 1), (F.PORT_CTRL_LPSEL, 2,
        0)]) 0 2 0x140000 0 0 { bytes := [], kind := 0 } 0
    ∧ ¬ withoutLinkRows 11 (having [(F.PORT_CTRL_STATUS, 1, 1)]) 0 1 0x880000 0 0 { bytes := [], kind := 0 } 0
    ∧ ¬ withoutLinkRows 12 (having [(F.PORT_CTRL_STATUS, 2, 2), (F.PORT_CTRL_FEC25, 2, 0), (F.PORT_STAT_LINK, 2,
        2)]) 0 2 0x8D0000 0 0 { bytes := [], kind := 0 } 0
    ∧ ¬ withoutLinkRows 13 (having [(F.PORT_CTRL_STATUS, 2, 1), (F.PORT_CTRL_SPEED, 2, 1), (F.PORT_CTRL_FEC25, 2,
        0), (F.PORT_CTRL_LPSEL, 2, 0)]) 0 2 0x800000 0 0 { bytes := [], kind := 0 } 0
    ∧ ¬ withoutLinkRows 15 (having [(F.PORT_CTRL_STATUS, 3, 1), (F.PORT_CTRL_FEC25, 3, 0), (F.PORT_CTRL_LPSEL, 3,
        0), (F.PORT_STAT_LINK, 3, 2), (F.PORT_STAT_HOLDOFF, 3, 1)]) 0 3 0 0 0 { bytes := [], kind := 0 } 0
    ∧ (∀ c ∈ [17, 21, 24], ¬ withoutLinkRows c (having [(F.PORT_CTRL_STATUS, 2, 1), (F.PORT_CTRL_FEC25, 2, 0),
        (F.PORT_CTRL_LPSEL, 2, 0), (F.PORT_STAT_LINK, 2, 2), (F.PORT_STAT_PAUSED, 2, 1)]) 0 2 0 0 0
        { bytes := [], kind := 0 } 0)
    ∧ ¬ withoutLinkRows 18 (having [(F.PORT_CTRL_STATUS, 2, 1), (F.PORT_CTRL_FEC25, 2, 0), (F.PORT_CTRL_LPSEL, 2,
        0), (F.PORT_STAT_LINK, 2, 2), (F.PORT_STAT_PAUSED, 2, 1)]) 0 2 0 0 1 { bytes := [], kind := 0 } 0
    ∧ ¬ withoutLinkRows 19 (having [(F.PORT_CTRL_STATUS, 0, 1), (F.PORT_CTRL_FEC25, 0, 0), (F.PORT_STAT_LINK, 0, 2)]
        { ports := [(0, { wire := (some { bytes := [], kind := 3 }) })] }) 0 0 0 0 1 { bytes := [], kind := 0 } 0
    ∧ ¬ withoutLinkRows 20 (having [(F.PORT_CTRL_STATUS, 1, 1), (F.PORT_CTRL_FEC25, 1, 0), (F.PORT_STAT_LINK, 1,
        2)]) 0 1 0 0 1 { bytes := [], kind := 0 } 0
    ∧ ¬ withoutLinkRows 23 (having [(F.PORT_STAT_PAUSED, 2, 1), (F.PORT_PAUSE2_STORMMAX, 2, 0),
        (F.PORT_PAUSE2_XHOLD, 2, 0)]) 0 2 0 0 0 { bytes := [], kind := 0 } 0
    ∧ ¬ withoutLinkRows 25 (having [(F.PORT_STAT_PAUSED, 0, 1), (F.PORT_PAUSE2_STORMMAX, 0, 1),
        (F.PORT_PAUSE2_XHOLD, 0, 0)]) 0 0 0 0 0 { bytes := [], kind := 0 } 0
    ∧ ¬ withoutLinkRows 27 (having [(F.PORT_PREEMPT_EN, 1, 0), (F.PORT_PREEMPT_VTIME, 1, 0), (F.PORT_PREEMPT_ERRLIM,
        1, 0)]) 0 1 0 0 0 { bytes := [], kind := 0 } 0
    ∧ ¬ withoutLinkRows 28 (having [(F.PORT_STAT_PSTATE, 3, 1)]) 0 3 0 0 0 { bytes := [], kind := 0 } 0
    ∧ ¬ withoutLinkRows 29 (having [(F.PORT_STAT_PSTATE, 2, 1)] { ports := [(2, { verifies := 3 })] }) 0 2 0 0 0
        { bytes := [], kind := 0 } 0 := by
  dsimp only [withoutLinkRows]
  refine ⟨?_, ?_, ?_, ?_, ?_, ?_, ?_, ?_, ?_, ?_, ?_, ?_, ?_, ?_, ?_, ?_, ?_, ?_, ?_, ?_⟩ <;> decide

/-- The hypotheses of FrameRows: each conclusion replaced by a falsehood where it is the one asked for. -/
abbrev withoutFrameRows (clause : Nat) (s : State) (n : Fin 4) (f : RxFrame) (g : TxFrame) (rest : List TxFrame) (o
    : RxOpen) (k : BitVec 14) (t : BitVec 16) (c : BitVec 2) (r : Fin 4) : Prop :=
 halted s.dev = false →
    let d := s.dev
    let p : Port := Tab.get {} d.ports n
    let up := fld d F.PORT_STAT_LINK n = 2 ∧ fld d F.PORT_CTRL_STATUS n = 1
    let whole := f.part = .express ∧ f.cut = false
    let fits := 60 ≤ f.bytes.length ∧ f.bytes.length ≤ 9212
    let mine := addressed d n f.bytes = true
    let good := f.fcsOk = true ∧ fits ∧ mine ∧ doubleTagged f.bytes = false
    let plain := mine ∧ etherType f.bytes ∉ [0x8808, 0x88B5, 0x88CC, 0x88F7, 0x86DD] ∧ isIp4 f.bytes = false
    let type := beNat ((f.bytes.drop (if tagged f.bytes then 18 else 14)).take 2)
    let ring := fld d F.PORT_STEER_DEFRING n
    let unheld := fld d F.RING_CFG_STATUS ring ≠ 1 ∨ p.hold ≠ []
    let cut := f.cut = true ∧ f.part = .express
    let paused := fld d F.PORT_STAT_PAUSED n = 1
    let held := paused ∧ fld d F.PORT_PAUSE_SCOPE n = 1
    let ready := up ∧ p.pausePend = false
    (clause ∈ [1] → (¬up → f.cut = false ∨ p.rxCut = false → clause ≠ 1))
    ∧ (clause ∈ [2] → (¬up → cut → 14 ≤ f.bytes.length → p.rxCut = true → plain → unheld →
        clause ≠ 2))
    ∧ (clause ∈ [3] → (up → cut → 14 ≤ f.bytes.length → plain → unheld → clause ≠ 3))
    ∧ (clause ∈ [4] → (up → cut → f.bytes.length < 14 → clause ≠ 4))
    ∧ (clause ∈ [5] → (up → whole → ¬fits → clause ≠ 5))
    ∧ (clause ∈ [6] → (up → whole → f.fcsOk = false → ¬mine → clause ≠ 6))
    ∧ (clause ∈ [7] → (up → whole → f.fcsOk = false → fits → plain → unheld →
        clause ≠ 7))
    ∧ (clause ∈ [8] → (up → whole → f.fcsOk = true → fits → ¬mine ∨ doubleTagged f.bytes = true → clause ≠ 8))
    ∧ (clause ∈ [9, 10] → (up → whole → good → etherType f.bytes = 0x8808 →
        (type ≠ 1 → clause ≠ 9)
        ∧ (type = 1 → fld d F.PORT_PAUSE_EN n = 0 →
          clause ≠ 10)))
    ∧ (clause ∈ [11] → (up → whole → good → plain → fld d F.RING_CFG_STATUS ring = 0 →
        clause ≠ 11))
    ∧ (clause ∈ [12] → (up → whole → good → plain → fld d F.RING_CFG_STATUS ring ≠ 0 → fld d F.RING_CFG_EN ring = 1
        → p.hold = [] →
        fld d F.RING_HEAD_HEAD ring = fld d F.RING_TAIL_TAIL ring % ringSize d ring →
        clause ≠ 12))
    ∧ (clause ∈ [13] → (up → f.cut = false → p.rxOpen = none → f.part = .cont c c true true → fld d
        F.PORT_PREEMPT_ERRLIM n = 0 →
        p.fragErrs = 0 → clause ≠ 13))
    ∧ (clause ∈ [14] → (fld d F.PORT_STAT_LINK n ≠ 2 → clause ≠ 14))
    ∧ (clause ∈ [15] → (ready → p.wire = none → held → clause ≠ 15))
    ∧ (clause ∈ [16] → (ready → p.wire = none → ¬held → p.txq = g :: rest → g.kind = 0 ∨ (∀ f ∈ g :: rest, f.kind =
        1) → g.tsreq = false →
        clause ≠ 16))
    ∧ (clause ∈ [17] → (ready → p.wire = some g → g.kind = 0 → held →
        clause ≠ 17))
    ∧ (clause ∈ [18] → (ready → p.wire = some g → g.kind = 3 → held → fld d F.PORT_STAT_PSTATE n = 2 →
        64 * (fld d F.PORT_PREEMPT_ADDFRAG n + 1) ≤ k.toNat → g.gone + k.toNat + 64 ≤ g.bytes.length + 4 →
        clause ≠ 18))
    ∧ (clause ∈ [19] → (p.txq = g :: rest → g.kind = 0 →
        clause ≠ 19))
    ∧ (clause ∈ [20] → (p.txq = [] → clause ≠ 20))
    ∧ (clause ∈ [21] → (ringOffers d n (4 + r.val) true = none → clause ≠ 21))

theorem hypotheses_FrameRows :
    (∀ c ∈ [1, 14, 20, 21], ¬ withoutFrameRows c (having []) 0 { bytes := [], fcsOk := false }
        { bytes := [], kind := 0 } [] { bytes := [], frame := 0, frag := 0 } 0 0 0 0)
    ∧ ¬ withoutFrameRows 2 (having [] { ports := [(3, { rxCut := true })] }) 3
        { bytes := (List.replicate 14 0), fcsOk := false, cut := true } { bytes := [], kind := 0 } []
        { bytes := [], frame := 0, frag := 0 } 0 0 0 0
    ∧ ¬ withoutFrameRows 3 (having [(F.PORT_CTRL_STATUS, 3, 1), (F.PORT_CTRL_FEC25, 3, 0), (F.PORT_CTRL_LPSEL, 3,
        0), (F.PORT_STAT_LINK, 3, 2)]) 3 { bytes := (List.replicate 14 0), fcsOk := false, cut := true }
        { bytes := [], kind := 0 } [] { bytes := [], frame := 0, frag := 0 } 0 0 0 0
    ∧ ¬ withoutFrameRows 4 (having [(F.PORT_CTRL_STATUS, 2, 1), (F.PORT_CTRL_FEC25, 2, 0), (F.PORT_CTRL_LPSEL, 2,
        0), (F.PORT_STAT_LINK, 2, 2)]) 2 { bytes := [], fcsOk := false, cut := true } { bytes := [], kind := 0 } []
        { bytes := [], frame := 0, frag := 0 } 0 0 0 0
    ∧ (∀ c ∈ [5, 6, 15], ¬ withoutFrameRows c (having [(F.PORT_CTRL_STATUS, 3, 1), (F.PORT_CTRL_FEC25, 3, 0),
        (F.PORT_CTRL_LPSEL, 3, 0), (F.PORT_STAT_LINK, 3, 2), (F.PORT_STAT_PAUSED, 3, 1), (F.PORT_PAUSE_EN, 3, 0),
        (F.PORT_PAUSE_SCOPE, 3, 1), (F.PORT_PAUSE_WD, 3, 0), (F.PORT_PAUSE_HOLDOFF, 3, 0)]) 3
        { bytes := [], fcsOk := false } { bytes := [], kind := 0 } [] { bytes := [], frame := 0, frag := 0 } 0 0 0 0)
    ∧ ¬ withoutFrameRows 7 (having [(F.PORT_CTRL_STATUS, 0, 1), (F.PORT_CTRL_FEC25, 0, 0), (F.PORT_STAT_LINK, 0,
        2)]) 0 { bytes := (List.replicate 60 0), fcsOk := false } { bytes := [], kind := 0 } []
        { bytes := [], frame := 0, frag := 0 } 0 0 0 0
    ∧ ¬ withoutFrameRows 9 (having [(F.PORT_CTRL_STATUS, 1, 1), (F.PORT_CTRL_FEC25, 1, 0), (F.PORT_STAT_LINK, 1,
        2)]) 1 { bytes := (List.replicate 12 0 ++ [136, 8] ++ List.replicate 46 0), fcsOk := true }
        { bytes := [], kind := 0 } [] { bytes := [], frame := 0, frag := 0 } 0 0 0 0
    ∧ ¬ withoutFrameRows 10 (having [(F.PORT_CTRL_STATUS, 0, 1), (F.PORT_CTRL_FEC25, 0, 0), (F.PORT_STAT_LINK, 0,
        2), (F.PORT_PAUSE_EN, 0, 0), (F.PORT_PAUSE_WD, 0, 0), (F.PORT_PAUSE_HOLDOFF, 0, 0)]) 0
        { bytes := (List.replicate 12 0 ++ [136, 8, 0, 1] ++ List.replicate 44 0), fcsOk := true }
        { bytes := [], kind := 0 } [] { bytes := [], frame := 0, frag := 0 } 0 0 0 0
    ∧ ¬ withoutFrameRows 11 (having [(F.PORT_CTRL_STATUS, 3, 1), (F.PORT_CTRL_FEC25, 3, 0), (F.PORT_CTRL_LPSEL, 3,
        0), (F.PORT_STAT_LINK, 3, 2)]) 3 { bytes := (List.replicate 60 0), fcsOk := true }
        { bytes := [], kind := 0 } [] { bytes := [], frame := 0, frag := 0 } 0 0 0 0
    ∧ ¬ withoutFrameRows 12 (having [(F.PORT_CTRL_STATUS, 1, 1), (F.PORT_CTRL_FEC25, 1, 0), (F.PORT_STAT_LINK, 1,
        2), (F.PORT_STEER_CTLRING, 1, 0), (F.PORT_STEER_DEFRING, 1, 3), (F.RING_CFG_EN, 3, 1), (F.RING_CFG_STATUS,
        3, 1), (F.RING_CFG_LOG2SZ, 3, 0)]) 1 { bytes := (List.replicate 60 0), fcsOk := true }
        { bytes := [], kind := 0 } [] { bytes := [], frame := 0, frag := 0 } 0 0 0 0
    ∧ ¬ withoutFrameRows 13 (having [(F.PORT_CTRL_STATUS, 3, 1), (F.PORT_CTRL_FEC25, 3, 0), (F.PORT_CTRL_LPSEL, 3,
        0), (F.PORT_STAT_LINK, 3, 2), (F.PORT_PREEMPT_EN, 3, 0), (F.PORT_PREEMPT_VTIME, 3, 0),
        (F.PORT_PREEMPT_ERRLIM, 3, 0)]) 3 { bytes := [], fcsOk := false, part := (.cont 1 1 true true) }
        { bytes := [], kind := 0 } [] { bytes := [], frame := 0, frag := 0 } 0 0 1 0
    ∧ ¬ withoutFrameRows 16 (having [(F.PORT_CTRL_STATUS, 0, 1), (F.PORT_CTRL_FEC25, 0, 0), (F.PORT_STAT_LINK, 0,
        2)] { ports := [(0, { txq := [{ bytes := [], kind := 0, src := 3 }, { bytes := [0], kind := 1, src := 3 }] })] })
        0 { bytes := [], fcsOk := false } { bytes := [], kind := 0, src := 3 }
        [{ bytes := [0], kind := 1, src := 3 }] { bytes := [], frame := 0, frag := 0 } 0 0 0 0
    ∧ ¬ withoutFrameRows 17 (having [(F.PORT_CTRL_STATUS, 3, 1), (F.PORT_CTRL_FEC25, 3, 0), (F.PORT_CTRL_LPSEL, 3,
        0), (F.PORT_STAT_LINK, 3, 2), (F.PORT_STAT_PAUSED, 3, 1), (F.PORT_PAUSE_EN, 3, 0), (F.PORT_PAUSE_SCOPE, 3,
        1), (F.PORT_PAUSE_WD, 3, 0), (F.PORT_PAUSE_HOLDOFF, 3, 0)]
        { ports := [(3, { wire := (some { bytes := [], kind := 0, src := 3 }) })] }) 3
        { bytes := [], fcsOk := false } { bytes := [], kind := 0, src := 3 } []
        { bytes := [], frame := 0, frag := 0 } 0 0 0 0
    ∧ ¬ withoutFrameRows 18 (having [(F.PORT_CTRL_STATUS, 0, 1), (F.PORT_CTRL_FEC25, 0, 0), (F.PORT_STAT_LINK, 0,
        2), (F.PORT_STAT_PSTATE, 0, 2), (F.PORT_STAT_PAUSED, 0, 1), (F.PORT_PAUSE_EN, 0, 0), (F.PORT_PAUSE_SCOPE, 0,
        1), (F.PORT_PAUSE_WD, 0, 0), (F.PORT_PAUSE_HOLDOFF, 0, 0)]
        { ports := [(0, { wire := (some { bytes := (List.replicate 300 7), kind := 3, src := 3 }) })] }) 0
        { bytes := [], fcsOk := false } { bytes := (List.replicate 300 7), kind := 3, src := 3 } []
        { bytes := [], frame := 0, frag := 0 } 128 0 0 0
    ∧ ¬ withoutFrameRows 19 (having []
        { ports := [(3, { txq := [{ bytes := [], kind := 0, src := 3 }, { bytes := [], kind := 2, src := 3 }] })] })
        3 { bytes := [], fcsOk := false } { bytes := [], kind := 0, src := 3 }
        [{ bytes := [], kind := 2, src := 3 }] { bytes := [], frame := 0, frag := 0 } 0 0 0 0
    ∧ ¬ withoutFrameRows 8 (having [(F.PORT_CTRL_STATUS, 0, 1), (F.PORT_STAT_LINK, 0, 2)]) 0
        { bytes := 2 :: List.replicate 59 0, fcsOk := true } { bytes := [], kind := 0 } []
        { bytes := [], frame := 0, frag := 0 } 0 0 0 0 := by
  dsimp only [withoutFrameRows]
  refine ⟨?_, ?_, ?_, ?_, ?_, ?_, ?_, ?_, ?_, ?_, ?_, ?_, ?_, ?_, ?_, ?_⟩ <;> decide

/-- The hypotheses of RateStepRows: each conclusion replaced by a falsehood where it is the one asked for. -/
abbrev withoutRateStepRows (clause : Nat) (s : State) (w : BitVec 6) (n : Fin 4) (v : W24) (l : List Byte) (up :
    Bool) : Prop :=
 s.takes w →
    let d := s.dev
    let p : Port := Tab.get {} d.ports n
    let at_ (off len : Nat) : Nat := beNat ((l.drop off).take len)
    let form := at_ 14 1 = 1 ∧ 1 ≤ at_ 15 1 ∧ at_ 15 1 ≤ 3 ∧ at_ 16 1 ≤ 1
    let step := fld d F.PORT_STAT_STEP n
    let runs := fld d F.PORT_STAT_LINK n = 2 ∧ fld d F.PORT_CTRL_STATUS n = 1
    let mine := step = 1 ∧ Config.fuseSerial.toNat < at_ 30 8
    let may := stepSafe (stepSee d n l) n = true ∧ (at_ 16 1 = 1 ∨ fld d F.PORT_STEP_EN n = 1) ∧ fld d
        F.TIME_CTRL_COARSE 0 = 0
    let held (n : Nat) : Nat := max 1 (min 100 n)
    let quiet := (∀ r < 8, fld d F.RING_CFG_STATUS r ≠ 1) ∧ p.txq = [] ∧ p.wire = none ∧ p.open_ = none ∧ p.rxOpen =
        none
    (clause ∈ [0] → clause ≠ 0)
    ∧ (clause ∈ [1] → (stepTurn d n = none → clause ≠ 1))
    ∧ (clause ∈ [2] → (stepTurn d n = some up → runs → clause ≠ 2))
    ∧ (clause ∈ [3] → (¬runs → ∀ i ∈ [Instr.stepReqFrame n l, Instr.stepAckFrame n l, Instr.stepNakFrame n l],
        clause ≠ 3))
    ∧ (clause ∈ [4] → (¬form → runs → ∀ i ∈ [Instr.stepReqFrame n l, Instr.stepAckFrame n l, Instr.stepNakFrame n
        l], clause ≠ 4))
    ∧ (clause ∈ [5] → (form → runs → mine → clause ≠ 5))
    ∧ (clause ∈ [6] → (form → runs → ¬mine → ¬may →
        clause ≠ 6))
    ∧ (clause ∈ [7] → (form → runs → ¬mine → may →
        clause ≠ 7))
    ∧ (clause ∈ [8] → (form → runs → step = 1 → at_ 18 2 = p.stepSeq →
        clause ≠ 8))
    ∧ (clause ∈ [9] → (form → runs → step = 1 → at_ 18 2 = p.stepSeq →
        clause ≠ 9))
    ∧ (clause ∈ [10, 11] → (form → runs → step ≠ 1 ∨ at_ 18 2 ≠ p.stepSeq →
        clause ≠ 10 ∧ clause ≠ 11))
    ∧ (clause ∈ [12] → (step = 1 → p.stepTries < 3 → runs → clause ≠ 12))
    ∧ (clause ∈ [13] → (step = 1 → 3 ≤ p.stepTries → clause ≠ 13))
    ∧ (clause ∈ [14] → (step ≠ 2 ∨ nowNs d < p.stepSec * 1000000000 + p.stepNs ∨ fld d F.PORT_STAT_LINK n ≠ 2 →
        clause ≠ 14))
    ∧ (clause ∈ [15] → (step = 2 → p.stepSec * 1000000000 + p.stepNs ≤ nowNs d → fld d F.PORT_STAT_LINK n = 2 →
        quiet →
        clause ≠ 15))
    ∧ (clause ∈ [16] → (step = 3 → fld d F.PORT_STAT_LINK n ≠ 2 → clause ≠ 16))
    ∧ (clause ∈ [17] → (step ≠ 3 ∨ fld d F.PORT_STAT_LINK n = 2 → clause ≠ 17))
    ∧ (clause ∈ [18] → (held (F.PORT_STEP_FLOOR.of v) < held (F.PORT_STEP_CEIL.of v) → clause ≠ 18))
    ∧ (clause ∈ [19] → (held (F.PORT_STEP_CEIL.of v) ≤ held (F.PORT_STEP_FLOOR.of v) → clause ≠ 19))

theorem hypotheses_RateStepRows :
    (∀ c ∈ [0, 1, 3, 14, 17, 19], ¬ withoutRateStepRows c (having []) 0 0 0 [] false)
    ∧ ¬ withoutRateStepRows 2 (having [(F.PORT_CTRL_STATUS, 0, 1), (F.PORT_CTRL_FEC25, 0, 0), (F.PORT_STAT_LINK, 0,
        2), (F.PORT_STAT_RATE, 0, 1), (F.PORT_STAT_TWIN_OK, 0, 1), (F.PORT_STAT_PTWIN_OK, 0, 1)]) 0 0 0 [] true
    ∧ ¬ withoutRateStepRows 4 (having [(F.PORT_CTRL_STATUS, 1, 1), (F.PORT_CTRL_FEC25, 1, 0), (F.PORT_STAT_LINK, 1,
        2)]) 0 1 0 [] false
    ∧ (∀ c ∈ [8, 9, 12], ¬ withoutRateStepRows c (having [(F.PORT_CTRL_STATUS, 2, 1), (F.PORT_CTRL_FEC25, 2, 0),
        (F.PORT_CTRL_LPSEL, 2, 0), (F.PORT_STAT_LINK, 2, 2), (F.PORT_STAT_STEP, 2, 1)]) 0 2 0 (List.replicate 14 0
        ++ [1, 1] ++ List.replicate 14 0 ++ [1]) false)
    ∧ (∀ c ∈ [6, 10, 11], ¬ withoutRateStepRows c (having [(F.PORT_CTRL_STATUS, 1, 1), (F.PORT_CTRL_FEC25, 1, 0),
        (F.PORT_STAT_LINK, 1, 2)]) 0 1 0 (List.replicate 14 0 ++ [1, 1]) false)
    ∧ ¬ withoutRateStepRows 7 (having [(F.TIME_CTRL_COARSE, 0, 0), (F.PORT_CTRL_STATUS, 0, 1), (F.PORT_CTRL_FEC25,
        0, 0), (F.PORT_STAT_LINK, 0, 2), (F.PORT_STAT_TWIN_OK, 0, 1), (F.PORT_STEP_EN, 0, 1), (F.PORT_STEP_FLOOR, 0,
        0), (F.PORT_STEP_CEIL, 0, 0), (F.PORT_STEP_HOLD, 0, 0)]) 0 0 0 (List.replicate 14 0 ++ [1, 1, 0, 1]) false
    ∧ ¬ withoutRateStepRows 13 (having [(F.PORT_STAT_STEP, 2, 1)] { ports := [(2, { stepTries := 3 })] }) 0 2 0 []
        false
    ∧ ¬ withoutRateStepRows 15 (having [(F.PORT_STAT_LINK, 3, 2), (F.PORT_STAT_STEP, 3, 2)]) 0 3 0 [] false
    ∧ ¬ withoutRateStepRows 16 (having [(F.PORT_STAT_STEP, 3, 3)]) 0 3 0 [] false
    ∧ ¬ withoutRateStepRows 18 (having []) 0 0 0x400 [] false := by
  dsimp only [withoutRateStepRows]
  refine ⟨?_, ?_, ?_, ?_, ?_, ?_, ?_, ?_, ?_, ?_⟩ <;> decide

/-- The clause of RateStepRows on crossing requests, whose premise compares with the chip's own serial number: a
    partner with
a higher one exists unless that is the highest. -/
theorem hypotheses_RateStepRows_crossing (serial : Config.fuseSerial.toNat < 0xFFFFFFFFFFFFFFFF) :
    ¬ withoutRateStepRows 5 (having [(F.PORT_CTRL_STATUS, 2, 1), (F.PORT_STAT_LINK, 2, 2), (F.PORT_STAT_STEP, 2,
        1)]) 0 2 0
        (List.replicate 14 0 ++ [1, 1, 0] ++ List.replicate 13 0 ++ List.replicate 8 255) false := by
  intro hw
  exact (hw (by decide)).2.2.2.2.2.1 (by decide) (by decide) (by decide) ⟨by decide, serial⟩ rfl

/-- The hypotheses of RingRows: each conclusion replaced by a falsehood where it is the one asked for. -/
abbrev withoutRingRows (clause : Nat) (s : State) (w : BitVec 6) (r : Fin 8) (v : W24) (p : Port) (x : RxWait) (n :
    Fin 4) (i : Nat) (b : Nat) : Prop :=
 s.takes w →
    Tab.get {} s.dev.ports n = p → (∀ m < 4, m ≠ n.val → (Tab.get {} s.dev.ports m : Port).hold = []) →
    let d := s.dev
    let size := ringSize d r
    let head := fld d F.RING_HEAD_HEAD r
    let next := (head + 1) % size
    let cfg := regWrite d w.toNat (F.RING_CFG_EN.addr r) v
    let status := fld d F.RING_CFG_STATUS r
    let desc := (fld d F.RING_CFG_BASE_HI r * 2 ^ 24 + fld d F.RING_BASE_LO r) / 8 * 8 + 8 * head
    let word (a : Nat) : W24 := Tab.get 0 d.mkt (a % 67108864)
    let buf := (word (desc + 1)).toNat % 4 * 2 ^ 24 + (word desc).toNat
    let sound (a : Nat) : Prop := Tab.get 0 d.ecc (a % 67108864) = 0
    let own := (word (desc + 1)).msb = true ∧ sound desc ∧ sound (desc + 1)
    let len := x.bytes.length
    let words := (len + 2) / 3
    (clause ∈ [1] → (r.val < 4 → p.hold = [x] → x.ring = r → x.placed = 0 → x.used = [] → 0 < len → len ≤ 2048 →
        status = 1 → own →
      F.RING_TAIL_TAIL.of v = next → desc + 8 ≤ buf → buf + words ≤ 67108864 → i < words →
      clause ≠ 1))
    ∧ (clause ∈ [2] → (4 ≤ r.val → status = 1 → own → sound (desc + 2) → (word (desc + 1)).getLsbD 22 = true →
        F.RING_TAIL_TAIL.of v = next →
      fld d F.PORT_CTRL_STATUS ((word (desc + 1)).toNat / 2 ^ 20 % 4) ≠ 1 → desc + 8 ≤ 67108864 →
      clause ≠ 2))
    ∧ (clause ∈ [3] → (F.RING_TAIL_TAIL.of v % size = head → 4 ≤ r.val ∨ p.hold = [] → clause ≠ 3))
    ∧ (clause ∈ [4] → (F.RING_CFG_EN.of v = 1 → p.hold = [] → head = fld d F.RING_TAIL_TAIL r % ringSize cfg r →
        status = 0 →
        clause ≠ 4))
    ∧ (clause ∈ [5] → (F.RING_CFG_EN.of v = 1 → p.hold = [] → head = fld d F.RING_TAIL_TAIL r % size → status ≠ 0 →
        clause ≠ 5))
    ∧ (clause ∈ [6] → (F.RING_CFG_EN.of v = 0 → p.hold = [] → status ≠ 0 → clause ≠ 6))
    ∧ (clause ∈ [7] → (F.RING_CFG_EN.of v = 0 → status = 0 → clause ≠ 7))

theorem hypotheses_RingRows :
    ¬ withoutRingRows 1 (having [(F.RING_BASE_LO, 3, 3991632), (F.RING_CFG_STATUS, 3, 1), (F.RING_CFG_LOG2SZ, 3, 0)]
        { mkt := [(0x3CE851, 0x800001)], ports := [(0, { hold := [{ ring := 3, bytes := [1, 0, 128, 128, 0, 155, 2], sec := 74, frac := 0x2C6AA1FAC3 }], verifies := 3, pauses := 1, stepUp := true, stepSeq := 0xA886, stepTries := 3, stepSec := 2, stepNs := 24, health := 9 })] })
        0 3 1 { hold := [{ ring := 3, bytes := [1, 0, 128, 128, 0, 155, 2], sec := 74, frac := 0x2C6AA1FAC3 }], verifies := 3, pauses := 1, stepUp := true, stepSeq := 0xA886, stepTries := 3, stepSec := 2, stepNs := 24, health := 9 }
        { ring := 3, bytes := [1, 0, 128, 128, 0, 155, 2], sec := 74, frac := 0x2C6AA1FAC3 } 0 0 0
    ∧ ¬ withoutRingRows 2 (having [(F.RING_BASE_LO, 4, 15616824), (F.RING_CFG_STATUS, 4, 1), (F.RING_CFG_LOG2SZ, 4,
        0), (F.RING_HEAD_HEAD, 4, 12)]
        { mkt := [(0xEE4B99, 0xC00000)], ports := [(3, { verifies := 4, pauses := 1, stepSeq := 0x3ADD, stepTries := 3, stepSec := 2, stepNs := 62, health := 9 })] })
        0 4 13 { verifies := 4, pauses := 1, stepSeq := 0x3ADD, stepTries := 3, stepSec := 2, stepNs := 62, health := 9 }
        { ring := 0, bytes := [] } 3 0 0
    ∧ (∀ c ∈ [3, 6], ¬ withoutRingRows c (having [(F.RING_CFG_STATUS, 5, 1), (F.RING_CFG_LOG2SZ, 5, 0)]
        { ports := [(2, { verifies := 3, sendVerify := true, stepSeq := 0x8F46, stepTries := 3, stepNs := 13, health := 9 })] })
        0 5 0 { verifies := 3, sendVerify := true, stepSeq := 0x8F46, stepTries := 3, stepNs := 13, health := 9 }
        { ring := 0, bytes := [] } 2 0 0)
    ∧ ¬ withoutRingRows 4 (having []
        { ports := [(3, { txq := [{ bytes := [], kind := 1, src := 3 }], verifies := 1, sendVerify := true, stepSeq := 0xA630, stepTries := 1, stepSec := 2, stepNs := 80, health := 9 })] })
        0 0 0x800000
        { txq := [{ bytes := [], kind := 1, src := 3 }], verifies := 1, sendVerify := true, stepSeq := 0xA630, stepTries := 1, stepSec := 2, stepNs := 80, health := 9 }
        { ring := 0, bytes := [] } 3 0 0
    ∧ ¬ withoutRingRows 5 (having [(F.RING_CFG_STATUS, 1, 2), (F.RING_CFG_LOG2SZ, 1, 0)]
        { ports := [(2, { sendVerify := true, pauses := 1, stepSeq := 0x623F, stepTries := 2, stepNs := 40, health := 9 })] })
        0 1 0x800000
        { sendVerify := true, pauses := 1, stepSeq := 0x623F, stepTries := 2, stepNs := 40, health := 9 }
        { ring := 0, bytes := [] } 2 0 0
    ∧ ¬ withoutRingRows 7 (having []
        { ports := [(3, { txq := [{ bytes := [], kind := 0, src := 3 }], verifies := 3, pauses := 1, stepSeq := 0x5C2B, stepTries := 4, stepSec := 1, stepNs := 57, health := 9 })] })
        0 0 0 { txq := [{ bytes := [], kind := 0, src := 3 }], verifies := 3, pauses := 1, stepSeq := 0x5C2B, stepTries := 4, stepSec := 1, stepNs := 57, health := 9 }
        { ring := 0, bytes := [] } 3 0 0 := by
  dsimp only [withoutRingRows]
  refine ⟨?_, ?_, ?_, ?_, ?_, ?_⟩ <;> decide

/-- The hypotheses of StreamRows: each conclusion replaced by a falsehood where it is the one asked for. -/
abbrev withoutStreamRows (clause : Nat) (s : State) (w : BitVec 6) (v : W24) (n : Fin 4) (l : List Byte) (k : BitVec
    10) (tx : Bool) (legB : Bool) (i : Nat) (j : Nat) (b' : Nat) (q : Nat) : Prop :=
 s.takes w →
    let d := s.dev
    let k' := k.toNat
    let runs := fld d F.PORT_STAT_LINK n = 2 ∧ fld d F.PORT_CTRL_STATUS n = 1
    let x : Rx := Tab.get {} d.rx k'
    let r := udpData l
    let b := rtpPayload r
    let fmt := fld d F.RXS_CFG_FMT k'
    let ch := chOf d false k'
    let spp := sppAt d false k'
    let t0 := rtpTime r - BitVec.ofNat 32 (fld d F.RXS_MISS_TSOFF_HI k' * 2 ^ 24 + fld d F.RXS_TSOFF_TSOFF_LO k')
    let p := d.mc - BitVec.ofNat 32 x.lo
    let place (i : Nat) : Nat := (t0 + BitVec.ofNat 32 i).toNat % 1024
    let passes := runs ∧ strmMatch d n l = [(k', 0)] ∧ fld d F.RXS_CFG_STATUS k' = 1 ∧ d.house.gated = false ∧
        ipSumOk l = true
      ∧ ipFrag l = false ∧ rtpVersion r = 2
    let a := (if tx then A.TXS_CFG else A.RXS_CFG) + 8 * k'
    let base := regWrite d w.toNat a v
    let en : Fld := if tx then F.TXS_CFG_EN else F.RXS_CFG_EN
    let st : Fld := if tx then F.TXS_CFG_STATUS else F.RXS_CFG_STATUS
    let check := enableCheck base tx k'
    let other : W24 := if tx then 0x7FFFFF else 0x7FDFFF
    let fits := rtpType r = fld d F.RXS_PT_PT k' ∧ b.length = spp * ch * sampleBytes fmt
      ∧ (x.seqA = none ∨ x.seqA = some (rtpSeq r - 1))
    let last := (t0 + BitVec.ofNat 32 (spp - 1) - p).toInt
    (clause ∈ [0] → clause ≠ 0)
    ∧ (clause ∈ [1] → (strmMatch d n l = [] ∨ ¬runs → clause ≠ 1))
    ∧ (clause ∈ [2] → (passes → rtpType r ≠ fld d F.RXS_PT_PT k' → clause ≠ 2))
    ∧ (clause ∈ [3] → (passes → fits → 1023 < last → clause ≠ 3))
    ∧ (clause ∈ [4] → (passes → fits → fmt < 2 → (∀ o < spp, Tab.get none x.place (place o) ≠ some (t0 +
        BitVec.ofNat 32 o)) →
        0 < (t0 - p).toInt → last ≤ 1023 → i < spp → j < ch →
        bufOf d k' + ch * 1024 ≤ 67108864 →
        clause ≠ 4))
    ∧ (clause ∈ [5] → (en.of v = 1 → fld d en k' = 0 → fld d st k' = 0 → check = 0 → fld d F.STRM_CTRL_ENABLE 0 = 1 →
        (if tx then fld base F.TXS_CFG_RATE k' = fld d F.TICK_RATE_RATE 0 else fld base F.RXS_CFG_RATE k' = fld d
        F.TICK_RATE_RATE 0) →
        fld d F.TICK_RATE_RATE 0 < 2 →
        clause ≠ 5))
    ∧ (clause ∈ [6] → (en.of v = 1 → fld d en k' = 0 → fld d st k' = 0 → check ≠ 0 →
        clause ≠ 6))
    ∧ (clause ∈ [7] → (en.of v = 1 → fld d en k' = 0 → fld d st k' = 0 → check = 0 → fld d F.STRM_CTRL_ENABLE 0 = 0 →
        clause ≠ 7))
    ∧ (clause ∈ [8] → (en.of v = 1 → fld d en k' = 0 → fld d st k' ≠ 0 → check = 0 → (rd base a ^^^ rd d a) &&&
        other = 0 →
        clause ≠ 8))
    ∧ (clause ∈ [9] → (tx = false → en.of v = 0 → (rd base a ^^^ rd d a) &&& other = 0 → clause ≠ 9))
    ∧ (clause ∈ [10] → (tx = true → en.of v = 0 → (rd base a ^^^ rd d a) &&& other = 0 → clause ≠ 10))
    ∧ (clause ∈ [11] → (F.STRM_CTRL_ENABLE.of v = 0 → clause ≠ 11))
    ∧ (clause ∈ [12] → (F.STRM_CTRL_ENABLE.of v = 1 → fld d F.STRM_CTRL_ENABLE 0 = 1 ∨ (∀ o < 1024, fld d
        F.RXS_CFG_EN o = 0 ∧ fld d F.TXS_CFG_EN o = 0) →
        clause ≠ 12))
    ∧ (clause ∈ [13] → (fld d F.RXS_CFG_LEGB k' = 0 → clause ≠ 13))
    ∧ (clause ∈ [14] → (fld d F.RXS_CFG_LEGB k' = 1 → clause ≠ 14))

theorem hypotheses_StreamRows :
    (∀ c ∈ [0, 1, 11, 13], ¬ withoutStreamRows c (having []) 0 0 0 [] 0 false false 0 0 0 0)
    ∧ (∀ c ∈ [2, 9], ¬ withoutStreamRows c (having [(F.PORT_CTRL_STATUS, 2, 1), (F.PORT_CTRL_FEC25, 2, 0),
        (F.PORT_CTRL_LPSEL, 2, 0), (F.PORT_STAT_LINK, 2, 2), (F.RXS_CFG_STATUS, 0, 1), (F.RXS_CFG_FMT, 0, 0),
        (F.RXS_CFG_RATE, 0, 0), (F.RXS_CFG_CH, 0, 0), (F.RXL_DIP_HI, 0, 15663362), (F.RXL_DPORT_DIP_LO, 0, 3),
        (F.RXL_DPORT_DPORT, 0, 5004), (F.RXL_VID_PORT, 0, 2)] { rx := [(0, {})] }) 0 0 2 (List.replicate 12 0 ++ [8,
        0, 69, 0, 0, 64, 0, 0, 64, 0, 9, 17, 128, 114, 0, 0, 0, 55, 239, 1, 2, 3, 0, 0, 19, 140, 1, 0, 0, 0, 128]) 0
        false false 0 0 0 0)
    ∧ ¬ withoutStreamRows 3 (having [(F.PORT_CTRL_STATUS, 3, 1), (F.PORT_CTRL_FEC25, 3, 0), (F.PORT_CTRL_LPSEL, 3,
        0), (F.PORT_STAT_LINK, 3, 2), (F.RXS_CFG_STATUS, 1, 1), (F.RXS_CFG_RATE, 1, 0), (F.RXS_CFG_CH, 1, 2),
        (F.RXS_PT_PT, 1, 98), (F.RXS_PT_HOLDN, 1, 0), (F.RXS_PT_SFADE, 1, 0), (F.RXL_DIP_HI, 2, 15663362),
        (F.RXL_DPORT_DIP_LO, 2, 3), (F.RXL_DPORT_DPORT, 2, 5004), (F.RXL_VID_PORT, 2, 3)] { rx := [(1, {})] }) 0 0 3
        (List.replicate 12 0 ++ [8, 0, 69, 0, 0, 76, 0, 0, 64, 0, 9, 17, 128, 102, 0, 0, 0, 55, 239, 1, 2, 3, 0, 0,
        19, 140, 0, 56, 0, 0, 128, 98, 0, 0, 0, 0, 3, 224] ++ List.replicate 40 0) 1 false false 0 0 0 0
    ∧ ¬ withoutStreamRows 4 (having [(F.PORT_CTRL_STATUS, 2, 1), (F.PORT_CTRL_FEC25, 2, 0), (F.PORT_CTRL_LPSEL, 2,
        0), (F.PORT_STAT_LINK, 2, 2), (F.RXS_CFG_STATUS, 1, 1), (F.RXS_CFG_FMT, 1, 0), (F.RXS_CFG_RATE, 1, 0),
        (F.RXS_CFG_CH, 1, 2), (F.RXS_PT_PT, 1, 98), (F.RXS_PT_HOLDN, 1, 0), (F.RXS_PT_SFADE, 1, 0), (F.RXL_DIP_HI,
        2, 15663362), (F.RXL_DPORT_DIP_LO, 2, 3), (F.RXL_DPORT_DPORT, 2, 5004), (F.RXL_VID_PORT, 2, 2)]
        { rx := [(1, {})] }) 0 0 2 (List.replicate 12 0 ++ [8, 0, 69, 0, 0, 64, 0, 0, 64, 0, 9, 17, 128, 114, 0, 0,
        0, 55, 239, 1, 2, 3, 0, 0, 19, 140, 0, 44, 0, 0, 128, 98] ++ List.replicate 34 0) 1 false false 0 0 0 0
    ∧ ¬ withoutStreamRows 5 (having []) 0 0x808000 0 [] 0 false false 0 0 0 0
    ∧ ¬ withoutStreamRows 6 (having [(F.TXS_PT_PT, 1, 0), (F.TXS_PT_FIRSTCH, 1, 8190)]) 0 0x8000C0 0 [] 1 true false
        0 0 0 0
    ∧ (∀ c ∈ [8, 12], ¬ withoutStreamRows c (having [(F.RXS_CFG_STATUS, 0, 2), (F.RXS_CFG_RATE, 0, 0),
        (F.RXS_CFG_LEGB, 0, 1), (F.RXS_CFG_CH, 0, 2), (F.RXL_VID_PORT, 0, 1)]) 0 0x884080 0 [] 0 false false 0 0 0 0)
    ∧ ¬ withoutStreamRows 10 (having []) 0 0x88040 0 [] 0 true false 0 0 0 0
    ∧ ¬ withoutStreamRows 14 (having [(F.RXS_CFG_FMT, 0, 0), (F.RXS_CFG_RATE, 0, 0), (F.RXS_CFG_LEGB, 0, 1),
        (F.RXS_CFG_CH, 0, 0)]) 0 0 0 [] 0 false false 0 0 0 0
    ∧ ¬ withoutStreamRows 7 (having [(F.STRM_CTRL_ENABLE, 0, 0)]) 0 0x808000 0 [] 0 false false 0 0 0 0 := by
  dsimp only [withoutStreamRows]
  refine ⟨?_, ?_, ?_, ?_, ?_, ?_, ?_, ?_, ?_, ?_⟩ <;> decide

/-- The hypotheses of TimeRows: each conclusion replaced by a falsehood where it is the one asked for. -/
abbrev withoutTimeRows (clause : Nat) (s : State) (w : BitVec 6) (v : W24) (sec : BitVec 48) (frac : Nat) (add :
    Bool) : Prop :=
 s.takes w →
    let d := s.dev
    let snap := F.TIME_CTRL_SNAP.of v = 1
    let set := F.TIME_CTRL_SET.of v = 1
    let plus := F.TIME_CTRL_ADD.of v = 1
    let ns := fld d F.TIME_WR_NS_HI_NS 0 * 2 ^ 24 + fld d F.TIME_WR_NS_LO_NS 0
    let U : Nat := 1000000000 * 2 ^ 32
    let sane := d.time.sec < 2 ^ 48 ∧ d.time.frac < U ∧ d.time.fifth < 5 ∧ d.time.sub < 8
    (clause ∈ [1] → (snap → ¬set → ¬plus → clause ≠ 1))
    ∧ (clause ∈ [2] → (set → plus → ∀ i ∈ [Instr.timeSet w v, Instr.timeAdd w v], clause ≠ 2))
    ∧ (clause ∈ [3] → (¬snap → set → ¬plus → ns < 1000000000 → clause ≠ 3))
    ∧ (clause ∈ [4] → (¬snap → plus → ¬set → ns < 1000000000 → clause ≠ 4))
    ∧ (clause ∈ [5] → (¬snap → set → ¬plus → 1000000000 ≤ ns → clause ≠ 5))
    ∧ (clause ∈ [6] → (¬snap → plus → ¬set → 1000000000 ≤ ns → clause ≠ 6))
    ∧ (clause ∈ [7] → (d.time.step = none → clause ≠ 7))
    ∧ (clause ∈ [8] → (d.time.step = some (add, sec.toNat, frac) → frac < U → clause ≠ 8))
    ∧ (clause ∈ [9] → (sane → clause ≠ 9))

theorem hypotheses_TimeRows :
    (∀ c ∈ [1, 7, 9], ¬ withoutTimeRows c (having []) 0 0x800000 0 0 false)
    ∧ ¬ withoutTimeRows 2 (having []) 0 0x600000 0 0 false
    ∧ ¬ withoutTimeRows 3 (having []) 0 0x400000 0 0 false
    ∧ ¬ withoutTimeRows 4 (having []) 0 0x200000 0 0 false
    ∧ ¬ withoutTimeRows 5 (having [(F.TIME_WR_NS_HI_NS, 0, 60)]) 0 0x400000 0 0 false
    ∧ ¬ withoutTimeRows 6 (having [(F.TIME_WR_NS_HI_NS, 0, 60)]) 0 0x200000 0 0 false
    ∧ ¬ withoutTimeRows 8 (having [] { time := { step := (some (true, (5, 0))) } }) 0 0 5 0 true := by
  dsimp only [withoutTimeRows]
  refine ⟨?_, ?_, ?_, ?_, ?_, ?_, ?_⟩ <;> decide

/-- The hypotheses of StageOneRows: each conclusion replaced by a falsehood where it is the one asked for. -/
abbrev withoutStageOneRows (clause : Nat) (s : State) (w : BitVec 6) (v : W24) (dac : BitVec 20) (e : BitVec 32)
    (code : BitVec 24) (win : Bool) : Prop :=
 s.takes w →
    let d := s.dev
    let m := d.mcs
    let state := fld d F.MCS_STAT_STATE 0
    let sel := fld d F.MCS_REF_SEL 0
    let dacNow := fld d F.MCS_DAC_WORD 0
    let on := fld d F.MCS_CTRL_S1EN 0 = 1
    let valid := fld d F.MCS_STAT_REFVALID 0 = 1
    let ref := regWrite d w.toNat A.MCS_REF v
    let same := d.boardHeld = [] ∧ F.MCS_CTRL_S2EN.of v = fld d F.MCS_CTRL_S2EN 0 ∧ (F.MCS_CTRL_FAMILY.of v =
        m.family ∨ m.change ≠ 0)
    let follows (b : Dev) : Prop :=
      (fld b F.MCS_REF_SEL 0 = 0 ∧ fld b F.MCS_REF_PTPOK 0 = 1 ∧ fld d F.TIME_CTRL_COARSE 0 = 0)
        ∨ (fld b F.MCS_REF_SEL 0 = 3 ∧ fld d F.AESI_STAT_LOCK 0 = 1
          ∧ fld d F.AESI_STAT_FSIN 0 ∈ (if m.family = 0 then [3, 5] else [2, 4]))
    let comes (up : Bool) : Prop := if sel = 0 ∨ sel = 3 then follows d else up = true
    let snap := max 1 (fld d F.MCS_RETURN_SNAP 0) * 100
    let seen := valid ∧ m.change ≠ 3
    let runs := on ∧ seen ∧ m.realign = 0
    let jumps := (state = 2 ∨ state = 3) ∧ ∃ l ∈ m.lastErr, snap ≤ (e.toInt - l).natAbs
    let leaves := state = 4 ∧ m.qualified = true ∧ (m.cause ≠ 4 ∨ fld d F.MCS_STAT_S2LOCK 0 = 1)
    let returns := jumps ∨ leaves
    let slews := e.toInt.natAbs < snap ∨ fld d F.MCS_RETURN_MODE 0 = 0
    let vain := ¬slews ∧ (d.ticking = false ∨ fld d F.MCS_STAT_TICKSRC 0 = 1)
    (clause ∈ [1] → (on → F.MCS_CTRL_S1EN.of v = 0 → same → clause ≠ 1))
    ∧ (clause ∈ [2] → (¬on → F.MCS_CTRL_S1EN.of v = 1 → same → m.change ≠ 3 → valid →
        clause ≠ 2))
    ∧ (clause ∈ [3] → (¬on → F.MCS_CTRL_S1EN.of v = 1 → same → m.change = 3 ∨ ¬valid → clause ≠ 3))
    ∧ (clause ∈ [4] → (F.MCS_CTRL_S1EN.of v = fld d F.MCS_CTRL_S1EN 0 → same → clause ≠ 4))
    ∧ (clause ∈ [5, 6, 7, 8, 9, 10, 11, 12] → (∀ up : Bool,
        (comes up → valid → clause ≠ 5)
        ∧ (comes up → ¬valid → state ∉ [0, 1] ∨ (state = 1 ∧ m.acq ≠ 0) ∨ m.change = 3 ∨ ¬on →
            clause ≠ 6)
        ∧ (comes up → ¬valid → state = 0 ∨ (state = 1 ∧ m.acq = 0) → m.change ≠ 3 → on →
            clause ≠ 7)
        ∧ (¬comes up → ¬valid → clause ≠ 8)
        ∧ (¬comes up → valid → m.realign = 0 → state = 2 ∨ state = 3 → clause ≠ 9)
        ∧ (¬comes up → valid → m.realign = 0 → state = 5 → clause ≠ 10)
        ∧ (¬comes up → valid → m.realign = 0 → state ∉ [2, 3, 5] → clause ≠ 11)
        ∧ (¬comes up → valid → m.realign ≠ 0 →
            clause ≠ 12)))
    ∧ (clause ∈ [13, 14, 15] → (F.MCS_REF_SEL.of v ≠ sel → fld ref F.MCS_REF_SEL 0 = F.MCS_REF_SEL.of v →
        let now : List (Fld × Nat × Nat) := [(F.MCS_STAT_REFVALID, 0, if follows ref then 1 else 0)]
        (state ∈ [2, 3, 5, 6] ∨ (m.realign ≠ 0 ∧ state ≠ 4) → clause ≠ 13)
        ∧ (state ∈ [0, 1] → m.realign = 0 → ¬follows ref ∨ m.change = 3 ∨ ¬on →
            clause ≠ 14)
        ∧ (state = 4 → m.realign = 0 → clause ≠ 15)))
    ∧ (clause ∈ [16] → (F.MCS_REF_SEL.of v = sel → sel ∈ [1, 2] → clause ≠ 16))
    ∧ (clause ∈ [17] → (valid → state = 1 → m.acq = 1 → clause ≠ 17))
    ∧ (clause ∈ [18] → (valid → state ≠ 1 ∨ m.acq ≠ 1 → clause ≠ 18))
    ∧ (clause ∈ [19] → (¬valid → clause ≠ 19))
    ∧ (clause ∈ [20, 21] → (¬seen → clause ≠ 20 ∧ clause ≠ 21))
    ∧ (clause ∈ [22] → (seen → ¬on → clause ≠ 22))
    ∧ (clause ∈ [23] → (seen → on → m.realign ≠ 0 → clause ≠ 23))
    ∧ (clause ∈ [24] → (seen → ¬on ∨ m.realign ≠ 0 → clause ≠ 24))
    ∧ (clause ∈ [25] → (runs → ¬returns → clause ≠ 25))
    ∧ (clause ∈ [26] → (runs → ¬returns → state ∉ [2, 3, 5] → clause ≠ 26))
    ∧ (clause ∈ [27] → (runs → ¬returns → state = 3 ∨ (state = 2 ∧ fld d F.MCS_STAT_LOCK 0 = 0) →
        clause ≠ 27))
    ∧ (clause ∈ [28] → (runs → ¬returns → state = 2 → fld d F.MCS_STAT_LOCK 0 = 1 →
        clause ≠ 28))
    ∧ (clause ∈ [29] → (runs → state = 5 → clause ≠ 29))
    ∧ (clause ∈ [30, 31] → (runs → returns → slews →
        clause ≠ 30
          ∧ clause ≠ 31))
    ∧ (clause ∈ [32, 33] → (runs → returns → ¬slews → ¬vain →
        clause ≠ 32
          ∧ clause ≠ 33))
    ∧ (clause ∈ [34, 35] → (runs → leaves → vain → clause ≠ 34
        ∧ clause ≠ 35))
    ∧ (clause ∈ [36, 37] → (runs → jumps → vain →
        let back (m : Mcs) : Mcs :=
        { m with startDac := dacNow, realign := 0, cause := 4, coastAfter := false, lastErr := none }
        let opens (d : Dev) : Dev := if m.change = 0 then { d with col := { d.col with clk := false } } else d
        clause ≠ 36
          ∧ clause ≠ 37))
    ∧ (clause ∈ [38] → (state = 2 → clause ≠ 38))
    ∧ (clause ∈ [39] → (state ≠ 2 → clause ≠ 39))
    ∧ (clause ∈ [40] → (m.realign = 0 → state = 2 ∨ state = 3 → clause ≠ 40))
    ∧ (clause ∈ [41] → (m.realign ≠ 0 ∨ state ∉ [2, 3] → clause ≠ 41))
    ∧ (clause ∈ [42] → (m.noLock = true → clause ≠ 42))
    ∧ (clause ∈ [43] → (m.noLock = false → clause ≠ 43))
    ∧ (clause ∈ [44] → (state = 5 → clause ≠ 44))
    ∧ (clause ∈ [45] → (state ≠ 5 → clause ≠ 45))

theorem hypotheses_StageOneRows :
    (∀ c ∈ [1, 7, 8, 16, 19, 20, 21, 39, 41, 43, 45], ¬ withoutStageOneRows c (having []) 0 0x400000 0 0 0 false)
    ∧ ¬ withoutStageOneRows 2 (having [(F.MCS_CTRL_S1EN, 0, 0), (F.MCS_STAT_REFVALID, 0, 1)]) 0 0xC00000 0 0 0 false
    ∧ ¬ withoutStageOneRows 3 (having [(F.MCS_CTRL_S1EN, 0, 0)]) 0 0xC00000 0 0 0 false
    ∧ ¬ withoutStageOneRows 4 (having [(F.MCS_CTRL_S1EN, 0, 0)]) 0 0x400000 0 0 0 false
    ∧ (∀ c ∈ [5, 12, 13, 18, 23, 24], ¬ withoutStageOneRows c (having [(F.MCS_STAT_REFVALID, 0, 1)]
        { mcs := { realign := 1 } }) 0 0 0 0 0 false)
    ∧ (∀ c ∈ [6, 14], ¬ withoutStageOneRows c (having [(F.MCS_STAT_STATE, 0, 1)] { mcs := { acq := 1 } }) 0 0 0 0 0
        false)
    ∧ (∀ c ∈ [9, 27, 38, 40], ¬ withoutStageOneRows c (having [(F.MCS_STAT_STATE, 0, 2), (F.MCS_STAT_REFVALID, 0,
        1)]) 0 0 0 0 0 false)
    ∧ (∀ c ∈ [10, 29], ¬ withoutStageOneRows c (having [(F.MCS_STAT_STATE, 0, 5), (F.MCS_STAT_REFVALID, 0, 1)]) 0 0
        0 0 0 false)
    ∧ (∀ c ∈ [11, 22], ¬ withoutStageOneRows c (having [(F.MCS_CTRL_S1EN, 0, 0), (F.MCS_CTRL_S2EN, 0, 0),
        (F.MCS_STAT_REFVALID, 0, 1)]) 0 0 0 0 0 false)
    ∧ ¬ withoutStageOneRows 15 (having [(F.MCS_REF_SEL, 0, 0), (F.MCS_REF_RQUAL, 0, 0), (F.MCS_STAT_STATE, 0, 4)]) 0
        0x400000 0 0 0 false
    ∧ ¬ withoutStageOneRows 17 (having [(F.MCS_STAT_STATE, 0, 1), (F.MCS_STAT_REFVALID, 0, 1)]
        { mcs := { acq := 1 } }) 0 0 0 0 0 false
    ∧ (∀ c ∈ [25, 26], ¬ withoutStageOneRows c (having [(F.MCS_STAT_REFVALID, 0, 1)]) 0 0 0 0 0 false)
    ∧ ¬ withoutStageOneRows 28 (having [(F.MCS_STAT_STATE, 0, 2), (F.MCS_STAT_LOCK, 0, 1), (F.MCS_STAT_REFVALID, 0,
        1)]) 0 0 0 0 0 false
    ∧ (∀ c ∈ [30, 31], ¬ withoutStageOneRows c (having [(F.MCS_STAT_STATE, 0, 4), (F.MCS_STAT_REFVALID, 0, 1)]
        { mcs := { qualified := true } }) 0 0 0 0 0 false)
    ∧ (∀ c ∈ [32, 33], ¬ withoutStageOneRows c (having [(F.MCS_RETURN_MODE, 0, 1), (F.MCS_RETURN_SNAP, 0, 0),
        (F.MCS_STAT_STATE, 0, 2), (F.MCS_STAT_REFVALID, 0, 1)] { mcs := { lastErr := (some 0) }, ticking := true })
        0 0 0 0x80000000 0 false)
    ∧ (∀ c ∈ [34, 35], ¬ withoutStageOneRows c (having [(F.MCS_RETURN_MODE, 0, 1), (F.MCS_RETURN_SNAP, 0, 0),
        (F.MCS_STAT_STATE, 0, 4), (F.MCS_STAT_REFVALID, 0, 1)] { mcs := { qualified := true } }) 0 0 0 0x80000000 0
        false)
    ∧ (∀ c ∈ [36, 37], ¬ withoutStageOneRows c (having [(F.MCS_RETURN_MODE, 0, 1), (F.MCS_RETURN_SNAP, 0, 0),
        (F.MCS_STAT_STATE, 0, 2), (F.MCS_STAT_REFVALID, 0, 1)] { mcs := { lastErr := (some 0) } }) 0 0 0 128 0 false)
    ∧ ¬ withoutStageOneRows 42 (having [] { mcs := { noLock := true } }) 0 0 0 0 0 false
    ∧ ¬ withoutStageOneRows 44 (having [(F.MCS_STAT_STATE, 0, 5)]) 0 0 0 0 0 false := by
  dsimp only [withoutStageOneRows]
  refine ⟨?_, ?_, ?_, ?_, ?_, ?_, ?_, ?_, ?_, ?_, ?_, ?_, ?_, ?_, ?_, ?_, ?_, ?_, ?_⟩ <;> decide

/-- The hypotheses of StageTwoRows: each conclusion replaced by a falsehood where it is the one asked for. -/
abbrev withoutStageTwoRows (clause : Nat) (s : State) (w : BitVec 6) (v : W24) (tj : BitVec 8) (vt : BitVec 8) (i :
    Fin 16) (n : Fin 2) (band : BitVec 5) (absent : Bool) : Prop :=
 s.takes w →
    let d := s.dev
    let m := d.mcs
    let s1 := fld d F.MCS_CTRL_S1EN 0 = 1
    let s2 := fld d F.MCS_CTRL_S2EN 0 = 1
    let lock := fld d F.MCS_STAT_S2LOCK 0 = 1
    let state1 := fld d F.MCS_STAT_STATE 0
    let deep := d.house.gated = true ∧ d.house.depth = 3
    let fits (k : Nat) : Bool :=
      fld d F.MCS_BAND_VALID k = 1 ∧ fld d F.MCS_BAND_FAM k = m.family ∧ sfld d F.MCS_BAND_TLO k ≤ tj.toInt
        ∧ tj.toInt ≤ sfld d F.MCS_BAND_THI k
    let quiet := d.bq = [] ∧ d.bdue = [] ∧ d.bheld = [] ∧ (∀ c < 19, (core d c).hold ≠ .board) ∧ m.realign = 0
      ∧ (∀ u < 64, fld d F.TL_CTRL_STATUS u ≠ 2) ∧ d.su.fail = none
      ∧ ∀ u < 2, (Tab.get {} d.tus u : Tu).waiting = [] ∧ (Tab.get {} d.tbs u : Tb).later = []
    let unheld := d.boardHeld = []
    let lp0 := fld d F.LP_STAT_STATE 0 = 2
    let fed (lock lp0 : Prop) (absent : Bool) : Prop :=
      m.change ≠ 3 ∧ ¬deep ∧ (lock ∨ (fld d F.MCS_STAT_TICKSRC 0 = 1 ∧ (lp0 ∨ absent = false)))
    let goes (lock lp0 : Prop) (absent : Bool) : Prop := unheld ∧ (d.ticking = false ∨ fed lock lp0 absent)
    let onward := unheld ∧ (d.ticking = false ∨ (m.change ≠ 3 ∧ ¬deep ∧ (lp0 ∨ m.refAbsent = false)))
    let sameS1 := F.MCS_CTRL_S1EN.of v = fld d F.MCS_CTRL_S1EN 0
    let sameFam := F.MCS_CTRL_FAMILY.of v = m.family ∨ m.change ≠ 0
    let own := fld d F.MCS_REF_SEL 0 ∈ [1, 2]
    let pll := fld d F.LP_STAT_STATE n
    let seeks := fld d F.LP_CTRL_ENABLE n = 1 ∧ pll ≠ 2
    let steady := n = 0 → own
    let still := (∀ p < 4, fld d F.PORT_CTRL_LPSEL p = n → fld d F.PORT_STAT_LINK p ≠ 2) ∧ steady
    (clause ∈ [1] → (s2 → F.MCS_CTRL_S2EN.of v = 0 → sameS1 → sameFam → quiet → unheld →
        clause ≠ 1))
    ∧ (clause ∈ [2] → (unheld → ¬s2 → sameS1 → sameFam → clause ≠ 2))
    ∧ (clause ∈ [3, 4, 5, 6] → (unheld → F.MCS_CTRL_S2EN.of v = fld d F.MCS_CTRL_S2EN 0 → sameS1 →
        (sameFam → clause ≠ 3)
        ∧ (¬sameFam → d.ticking = true →
            clause ≠ 4)
        ∧ (¬sameFam → d.ticking = false → own → fld d F.CUE_STAGE_LOADED 0 = 1 →
            clause ≠ 5)
        ∧ (¬sameFam → d.ticking = false → own → fld d F.CUE_STAGE_LOADED 0 = 0 →
            clause ≠ 6)))
    ∧ (clause ∈ [7] → (F.MCS_S2CAL_GO.of v = 1 → s2 → clause ≠ 7))
    ∧ (clause ∈ [8] → (F.MCS_S2CAL_GO.of v = 1 → ¬s2 → clause ≠ 8))
    ∧ (clause ∈ [9] → (F.MCS_S2CAL_GO.of v = 0 → clause ≠ 9))
    ∧ (clause ∈ [10] → (fld d F.MCS_S2CAL_BUSY 0 = 1 →
        clause ≠ 10))
    ∧ (clause ∈ [11] → (fld d F.MCS_S2CAL_BUSY 0 = 0 → clause ≠ 11))
    ∧ (clause ∈ [12] → (s2 → ¬lock → ¬deep → fits i = true → (∀ k < i.val, fits k = false) →
        clause ≠ 12))
    ∧ (clause ∈ [13] → (s2 → ¬lock → ¬deep → (∀ k < 16, fits k = false) →
        clause ≠ 13))
    ∧ (clause ∈ [14] → (¬s2 ∨ lock ∨ deep → clause ≠ 14))
    ∧ (clause ∈ [15] → (m.s2Locking = true → m.change ≠ 3 → clause ≠ 15))
    ∧ (clause ∈ [16] → (m.s2Locking = true → m.change = 3 → ¬s1 → m.family < 2 →
        clause ≠ 16))
    ∧ (clause ∈ [17] → (m.s2Locking = true → m.change = 3 → s1 → m.family < 2 →
        clause ≠ 17))
    ∧ (clause ∈ [18] → (m.s2Locking = false → clause ≠ 18))
    ∧ (clause ∈ [19] → (lock → onward → ¬s1 ∨ (state1 = 4 ∧ m.realign = 0) →
        clause ≠ 19))
    ∧ (clause ∈ [20] → (lock → onward → s1 → state1 ≠ 4 ∨ m.realign ≠ 0 →
        clause ≠ 20))
    ∧ (clause ∈ [21] → (¬lock → unheld → clause ≠ 21))
    ∧ (clause ∈ [22] → (seeks → ¬deep → clause ≠ 22))
    ∧ (clause ∈ [23] → (seeks → ¬deep → steady → clause ≠ 23))
    ∧ (clause ∈ [24] → (¬seeks ∨ deep → clause ≠ 24))
    ∧ (clause ∈ [25] → (pll = 2 → still → goes lock (n ≠ 0 ∧ lp0) absent → clause ≠ 25))
    ∧ (clause ∈ [26] → (pll ≠ 2 → goes lock lp0 absent → clause ≠ 26))
    ∧ (clause ∈ [27] → (pll ≠ 2 → d.ticking = true → ¬fed lock lp0 absent → quiet → unheld →
        clause ≠ 27))
    ∧ (clause ∈ [28] → (unheld → fld d F.LP_CTRL_ENABLE n = 0 → F.LP_CTRL_ENABLE.of v = 1 →
        clause ≠ 28))
    ∧ (clause ∈ [29] → (fld d F.LP_CTRL_ENABLE n = 1 → F.LP_CTRL_ENABLE.of v = 0 → still → goes lock (n ≠ 0 ∧ lp0)
        m.refAbsent →
        clause ≠ 29))
    ∧ (clause ∈ [30] → (unheld → fld d F.LP_CTRL_ENABLE n = F.LP_CTRL_ENABLE.of v → clause ≠ 30))

theorem hypotheses_StageTwoRows :
    (∀ c ∈ [1, 7, 28], ¬ withoutStageTwoRows c (having [(F.LP_CTRL_ENABLE, 0, 0)]) 0 0x800000 0 0 0 0 0 false)
    ∧ (∀ c ∈ [2, 3, 9, 11, 14, 18, 21, 22, 23, 26, 29], ¬ withoutStageTwoRows c (having [(F.MCS_CTRL_S1EN, 0, 0),
        (F.MCS_CTRL_S2EN, 0, 0)]) 0 0 0 0 0 0 0 false)
    ∧ (∀ c ∈ [4, 27], ¬ withoutStageTwoRows c (having [(F.MCS_CTRL_S2EN, 0, 0)]
        { mcs := { family := 1 }, ticking := true }) 0 0x800000 0 0 0 0 0 false)
    ∧ ¬ withoutStageTwoRows 6 (having [(F.MCS_CTRL_S1EN, 0, 0), (F.MCS_CTRL_S2EN, 0, 0)] { mcs := { family := 1 } })
        0 0 0 0 0 0 0 false
    ∧ ¬ withoutStageTwoRows 8 (having [(F.MCS_CTRL_S1EN, 0, 0), (F.MCS_CTRL_S2EN, 0, 0)]) 0 0x800000 0 0 0 0 0 false
    ∧ ¬ withoutStageTwoRows 10 (having [(F.MCS_S2CAL_BUSY, 0, 1)]) 0 0 0 0 0 0 0 false
    ∧ ¬ withoutStageTwoRows 12 (having [(F.MCS_BAND_VALID, 15, 1)]) 0 0 0 0 15 0 0 false
    ∧ (∀ c ∈ [13, 24, 30], ¬ withoutStageTwoRows c (having [(F.LP_CTRL_ENABLE, 0, 0)]) 0 0 0 0 0 0 0 false)
    ∧ ¬ withoutStageTwoRows 15 (having [] { mcs := { s2Locking := true } }) 0 0 0 0 0 0 0 false
    ∧ ¬ withoutStageTwoRows 16 (having [(F.MCS_CTRL_S1EN, 0, 0), (F.MCS_CTRL_S2EN, 0, 0)]
        { mcs := { change := 3, s2Locking := true } }) 0 0 0 0 0 0 0 false
    ∧ ¬ withoutStageTwoRows 17 (having [] { mcs := { change := 3, s2Locking := true } }) 0 0 0 0 0 0 0 false
    ∧ ¬ withoutStageTwoRows 19 (having [(F.MCS_CTRL_S1EN, 0, 0), (F.MCS_CTRL_S2EN, 0, 0), (F.MCS_STAT_S2LOCK, 0,
        1)]) 0 0 0 0 0 0 0 false
    ∧ ¬ withoutStageTwoRows 20 (having [(F.MCS_STAT_S2LOCK, 0, 1)]) 0 0 0 0 0 0 0 false
    ∧ ¬ withoutStageTwoRows 25 (having [(F.LP_STAT_STATE, 0, 2)]) 0 0 0 0 0 0 0 false
    ∧ ¬ withoutStageTwoRows 5 (having [(F.CUE_STAGE_LOADED, 0, 1), (F.MCS_CTRL_S1EN, 0, 0), (F.MCS_CTRL_S2EN, 0, 0),
        (F.MCS_REF_SEL, 0, 1)] { mcs := { family := 1 } }) 0 0 0 0 0 0 0 false := by
  dsimp only [withoutStageTwoRows]
  refine ⟨?_, ?_, ?_, ?_, ?_, ?_, ?_, ?_, ?_, ?_, ?_, ?_, ?_, ?_, ?_⟩ <;> decide

/-- The hypotheses of LocalRows: each conclusion replaced by a falsehood where it is the one asked for. -/
abbrev withoutLocalRows (clause : Nat) (s : State) (w : BitVec 6) (p : Fin 26) (q : Fin 34) (a : Fin 8) (v : W24)
    (guard : Bool) (wrong : Bool) (locked : Bool) (phase : BitVec 11) (code : BitVec 18) (samples : List LocSample)
        (c : Nat) : Prop :=
 s.takes w →
    let d := s.dev
    let ctl (n : Nat) : Nat :=
      if n < 16 then 0x50000 + 16 * n else if n < 24 then F.AESI_CTRL_ENABLE.addr (n - 16)
      else if n < 26 then F.MADI_CTRL_ENABLE.addr (n - 24) else F.AESO_CTRL_ENABLE.addr (n - 26)
    let status (n : Nat) : Fld := { base := ctl n, stride := 0, hi := 22, lo := 21 }
    let enable (n : Nat) : Fld := { base := ctl n, stride := 0, hi := 23, lo := 23 }
    let takes := fld d (status p) 0 ≠ 0 ∧
      (if p.val < 16 then fld d F.TDM_CTRL_MASTER p = 0
       else if p.val < 24 then fld d F.AESI_CTRL_MODE (p.val - 16) = 1 else True)
    let asrc := 16 ≤ p.val ∧ p.val < 24 ∧ fld d (status p) 0 ≠ 0 ∧ fld d F.AESI_CTRL_MODE (p.val - 16) = 0
    let lockF : Fld := if p.val < 24 then F.AESI_STAT_LOCK else F.MADI_STAT_LOCK
    let k := if p.val < 24 then p.val - 16 else p.val - 24
    let now (b : Bool) : Nat := if b then 1 else 0
    let apart := p.val = 16 → fld d F.MCS_REF_SEL 0 ∈ [1, 2]
    let word : W24 := if q.val < 16 ∧ fld d (status q) 0 ≠ 0 then (v &&& 0xE007FF) ||| (rd d (ctl q) &&& 0x1FF800)
        else v
    let base := regWrite d w.toNat (ctl q) word
    (clause ∈ [1] → (¬takes → ¬asrc → clause ≠ 1))
    ∧ (clause ∈ [2] → (asrc → clause ≠ 2))
    ∧ (clause ∈ [3] → (takes → wrong = true → clause ≠ 3))
    ∧ (clause ∈ [4] → (takes → wrong = false → guard = true →
        clause ≠ 4))
    ∧ (clause ∈ [5] → (takes → wrong = false → guard = false → clause ≠ 5))
    ∧ (clause ∈ [6] → (16 ≤ p.val → apart → fld d lockF k = now locked → clause ≠ 6))
    ∧ (clause ∈ [7] → (16 ≤ p.val → apart → fld d lockF k = now (!locked) →
        clause ≠ 7))
    ∧ (clause ∈ [8] → (16 ≤ p.val → clause ≠ 8))
    ∧ (clause ∈ [9] → (p.val < 16 → clause ≠ 9))
    ∧ (clause ∈ [10] → (let z : Loc := Tab.get {} d.locs (16 + a.val)
       clause ≠ 10))
    ∧ (clause ∈ [11] → (fld d (enable q) 0 = 0 → fld base (enable q) 0 = 1 → clause ≠ 11))
    ∧ (clause ∈ [12] → (fld d (enable q) 0 = 1 → fld base (enable q) 0 = 0 → fld base (status q) 0 = 1 →
        clause ≠ 12))
    ∧ (clause ∈ [13] → (fld d (enable q) 0 = 1 → fld base (enable q) 0 = 0 → fld base (status q) 0 ≠ 1 →
        clause ≠ 13))
    ∧ (clause ∈ [14] → (fld d (enable q) 0 = fld base (enable q) 0 → clause ≠ 14))

theorem hypotheses_LocalRows :
    (∀ c ∈ [1, 7], ¬ withoutLocalRows c (having [(F.AESI_STAT_LOCK, 3, 1)]) 0 19 0 0 0 false false false 0 0 [] 0)
    ∧ (∀ c ∈ [2, 6, 8, 10, 14], ¬ withoutLocalRows c (having [(F.AESI_CTRL_STATUS, 3, 2)]) 0 19 0 0 0 false false
        false 0 0 [] 0)
    ∧ ¬ withoutLocalRows 3 (having [(F.AESI_CTRL_STATUS, 0, 1), (F.AESI_CTRL_MODE, 0, 1)]) 0 16 0 0 0 false true
        false 0 0 [] 0
    ∧ ¬ withoutLocalRows 4 (having [(F.AESI_CTRL_STATUS, 5, 2), (F.AESI_CTRL_MODE, 5, 1)]) 0 21 0 0 0 true false
        false 0 0 [] 0
    ∧ ¬ withoutLocalRows 5 (having [(F.MADI_CTRL_STATUS, 0, 2), (F.MADI_CTRL_CRCC, 0, 0)]) 0 24 0 0 0 false false
        false 0 0 [] 0
    ∧ ¬ withoutLocalRows 9 (having []) 0 0 0 0 0 false false false 0 0 [] 0
    ∧ ¬ withoutLocalRows 11 (having []) 0 0 0 0 0x800000 false false false 0 0 [] 0
    ∧ ¬ withoutLocalRows 12 (having [(F.AESI_CTRL_ENABLE, 5, 1), (F.AESI_CTRL_STATUS, 5, 1)]) 0 0 21 0 0 false false
        false 0 0 [] 0
    ∧ ¬ withoutLocalRows 13 (having [(F.AESI_CTRL_ENABLE, 5, 1)]) 0 0 21 0 0 false false false 0 0 [] 0 := by
  dsimp only [withoutLocalRows]
  refine ⟨?_, ?_, ?_, ?_, ?_, ?_, ?_, ?_, ?_⟩ <;> decide

/-- The hypotheses of TalkbackRows: each conclusion replaced by a falsehood where it is the one asked for. -/
abbrev withoutTalkbackRows (clause : Nat) (s : State) (w : BitVec 6) (t : Fin 2) (v : W24) (z : Accessory) (ohm :
    BitVec 10) (ms : BitVec 16) (i : Fin 4) (ch : Nat) : Prop :=
 s.takes w →
    let d := s.dev
    let x : Tb := Tab.get {} d.tbs t
    let q := 18 + t.val
    let f (g : Fld) : Nat := fld d g t
    let shown (plug type btn long bias fault : Nat) : BitVec 32 :=
      BitVec.ofNat 32 (plug + 2 * type + 16 * (if type ≠ 0 ∧ type ≠ 6 then 1 else 0) + 32 * btn + 512 * long + 8192
          * bias
        + 16384 * fault)
    let plug := f F.TB_STAT_PLUG
    let type := f F.TB_STAT_TYPE
    let btn := f F.TB_STAT_BTN
    let long := f F.TB_STAT_LONG
    let bias := f F.TB_STAT_BIAS
    let fault := f F.TB_STAT_FAULT
    let old := shown plug type btn long bias fault
    let room := d.ticking = true ∧ Tab.get [] d.bheld q = [] ∧ (Tab.get [] d.bdue q).length + (Tab.get [] d.bq
        q).length < 64
    let on := f F.TB_CTRL_ENABLE = 1 ∧ d.house.boot = 3
    let mic (m : Nat × Nat × Nat) : Prop := 400000 ≤ m.1 ∧ m.1 ≤ 5000000 ∧ 2 * m.2.2 ≤ m.2.1
    let kind := if z.zt < 4000 then 5 else if 1000000 ≤ z.zt then 4 else if z.zrs < 20000 then 1
      else if mic z.ring2 then 3 else if mic z.sleeve then 2 else 1
    let short := if kind = 5 then 1 else 0
    let bias' := if f F.TB_CTRL_BIASEN = 1 ∧ (kind = 2 ∨ kind = 3) then 1 else 0
    let band : Option Nat :=
      if ohm.toNat ≤ 70 then some 0 else if 110 ≤ ohm.toNat ∧ ohm.toNat ≤ 180 then some 1
      else if 210 ≤ ohm.toNat ∧ ohm.toNat ≤ 290 then some 2 else if 360 ≤ ohm.toNat ∧ ohm.toNat ≤ 680 then some 3
          else none
    let clear (n : Nat) : Nat := if bias = 1 then 0 else n
    (clause ∈ [0] → clause ≠ 0)
    ∧ (clause ∈ [1] → (on → room → plug = 0 → old ≠ (shown 1 6 (clear btn) (clear long) 0 0) → clause ≠ 1))
    ∧ (clause ∈ [2] → (on → room → plug = 1 → old ≠ (shown 0 0 (clear btn) (clear long) 0 0) → clause ≠ 2))
    ∧ (clause ∈ [3, 4, 5, 6] → (¬on → clause ≠ 3 ∧ clause ≠ 4 ∧ clause ≠ 5
        ∧ clause ≠ 6))
    ∧ (clause ∈ [7] → (plug = 1 → clause ≠ 7))
    ∧ (clause ∈ [8] → (plug = 0 ∨ type ≠ 6 → clause ≠ 8))
    ∧ (clause ∈ [9] → (on → room → plug = 1 → type = 6 → bias = 0 → old ≠ (shown 1 kind btn long bias' short) →
        clause ≠ 9))
    ∧ (clause ∈ [10] → (room → bias = 1 → btn = 0 → band = some i.val → old ≠ (shown plug type (2 ^ i.val) long bias
        fault) → clause ≠ 10))
    ∧ (clause ∈ [11] → (bias = 1 → band = some i.val → (∀ j < i.val, btn.testBit j = false) → btn.testBit i.val =
        false →
        clause ≠ 11))
    ∧ (clause ∈ [12] → (band = none ∨ bias = 0 ∨ (band = some i.val ∧ btn = 2 ^ i.val) → clause ≠ 12))
    ∧ (clause ∈ [13] → (room → btn = 2 ^ i.val → old ≠ (shown plug type 0 0 bias fault) → clause ≠ 13))
    ∧ (clause ∈ [14] → (room → btn = 2 ^ i.val → long = 0 → old ≠ (shown plug type btn (2 ^ i.val) bias fault) →
        clause ≠ 14))
    ∧ (clause ∈ [15, 16] → (btn = 0 → clause ≠ 15 ∧ clause ≠ 16))
    ∧ (clause ∈ [17] → (long ≠ 0 → long < 16 → clause ≠ 17))
    ∧ (clause ∈ [18] → (on → room → type ≠ 0 → type ≠ 6 → fault = 0 → old ≠ (shown plug type btn long bias 1) →
        clause ≠ 18))
    ∧ (clause ∈ [19] → (type = 0 ∨ type = 6 ∨ fault = 1 → clause ≠ 19))
    ∧ (clause ∈ [20] → (on → room → plug = 1 → fault = 1 → type ≠ 5 → old ≠ (shown 1 6 (clear btn) (clear long) 0 1)
        → clause ≠ 20))
    ∧ (clause ∈ [21] → (plug = 0 ∨ fault = 0 ∨ type = 5 → clause ≠ 21))
    ∧ (clause ∈ [22] → (on → F.TB_CTRL_ENABLE.of v = 0 → room → f F.TB_CTRL_STATUS = 1 →
        clause ≠ 22))
    ∧ (clause ∈ [23] → (f F.TB_CTRL_ENABLE = 0 → F.TB_CTRL_ENABLE.of v = 1 → bias = 0 → type ∉ [2, 3] → clause ≠ 23))
    ∧ (clause ∈ [24] → (on → F.TB_CTRL_ENABLE.of v = 1 → F.TB_CTRL_BIASEN.of v = 0 → bias = 1 → room → old ≠ (shown
        plug type 0 0 0 fault) → clause ≠ 24))
    ∧ (clause ∈ [25] → (room → clause ≠ 25))
    ∧ (clause ∈ [26] → (2 ≤ x.events.length → clause ≠ 26))
    ∧ (clause ∈ [27] → (x.events.length ≤ 1 → clause ≠ 27))

theorem hypotheses_TalkbackRows :
    (∀ c ∈ [0, 3, 4, 5, 6, 8, 12, 15, 16, 19, 21, 27], ¬ withoutTalkbackRows c (having []) 0 0 0
        { zt := 0, zrs := 0, ring2 := (0, (0, 0)), sleeve := (0, (0, 0)) } 0 0 0 0)
    ∧ ¬ withoutTalkbackRows 1 (having [] { house := { boot := 3 }, ticking := true }) 0 0 0
        { zt := 0, zrs := 0, ring2 := (0, (0, 0)), sleeve := (0, (0, 0)) } 0 0 0 0
    ∧ (∀ c ∈ [2, 22], ¬ withoutTalkbackRows c (having [(F.TB_STAT_PLUG, 0, 1)]
        { house := { boot := 3 }, ticking := true }) 0 0 0
        { zt := 0, zrs := 0, ring2 := (0, (0, 0)), sleeve := (0, (0, 0)) } 0 0 0 0)
    ∧ ¬ withoutTalkbackRows 7 (having [(F.TB_STAT_PLUG, 0, 1)]) 0 0 0
        { zt := 0, zrs := 0, ring2 := (0, (0, 0)), sleeve := (0, (0, 0)) } 0 0 0 0
    ∧ ¬ withoutTalkbackRows 9 (having [(F.TB_STAT_PLUG, 0, 1), (F.TB_STAT_TYPE, 0, 6)]
        { house := { boot := 3 }, ticking := true }) 0 0 0
        { zt := 0, zrs := 0, ring2 := (0, (0, 0)), sleeve := (0, (0, 0)) } 0 0 0 0
    ∧ (∀ c ∈ [10, 11], ¬ withoutTalkbackRows c (having [(F.TB_STAT_BIAS, 0, 1)] { ticking := true }) 0 0 0
        { zt := 0, zrs := 0, ring2 := (0, (0, 0)), sleeve := (0, (0, 0)) } 0 0 0 0)
    ∧ (∀ c ∈ [13, 14], ¬ withoutTalkbackRows c (having [(F.TB_STAT_BTN, 0, 1)] { ticking := true }) 0 0 0
        { zt := 0, zrs := 0, ring2 := (0, (0, 0)), sleeve := (0, (0, 0)) } 0 0 0 0)
    ∧ ¬ withoutTalkbackRows 18 (having [(F.TB_STAT_TYPE, 1, 2)] { house := { boot := 3 }, ticking := true }) 0 1 0
        { zt := 0, zrs := 0, ring2 := (0, (0, 0)), sleeve := (0, (0, 0)) } 0 0 0 0
    ∧ ¬ withoutTalkbackRows 20 (having [(F.TB_STAT_PLUG, 0, 1), (F.TB_STAT_FAULT, 0, 1)]
        { house := { boot := 3 }, ticking := true }) 0 0 0
        { zt := 0, zrs := 0, ring2 := (0, (0, 0)), sleeve := (0, (0, 0)) } 0 0 0 0
    ∧ ¬ withoutTalkbackRows 23 (having [(F.TB_CTRL_ENABLE, 0, 0), (F.TB_CTRL_STATUS, 0, 0), (F.TB_CTRL_BIASEN, 0,
        0), (F.TB_CTRL_MUTEBTN, 0, 0)]) 0 0 0x800000
        { zt := 0, zrs := 0, ring2 := (0, (0, 0)), sleeve := (0, (0, 0)) } 0 0 0 0
    ∧ ¬ withoutTalkbackRows 24 (having [(F.TB_STAT_BIAS, 0, 1)] { house := { boot := 3 }, ticking := true }) 0 0
        0x800000 { zt := 0, zrs := 0, ring2 := (0, (0, 0)), sleeve := (0, (0, 0)) } 0 0 0 0
    ∧ ¬ withoutTalkbackRows 25 (having [] { ticking := true }) 0 0 0
        { zt := 0, zrs := 0, ring2 := (0, (0, 0)), sleeve := (0, (0, 0)) } 0 0 0 0
    ∧ ¬ withoutTalkbackRows 26 (having [] { tbs := [(1, { events := [0, 0] })] }) 0 1 0
        { zt := 0, zrs := 0, ring2 := (0, (0, 0)), sleeve := (0, (0, 0)) } 0 0 0 0
    ∧ ¬ withoutTalkbackRows 17 (having [(F.TB_STAT_LONG, 0, 1)]) 0 0 0
        { zt := 0, zrs := 0, ring2 := (0, 0, 0), sleeve := (0, 0, 0) } 0 0 0 0 := by
  dsimp only [withoutTalkbackRows]
  refine ⟨?_, ?_, ?_, ?_, ?_, ?_, ?_, ?_, ?_, ?_, ?_, ?_, ?_, ?_⟩ <;> decide

/-- The hypotheses of PrompterRows: each conclusion replaced by a falsehood where it is the one asked for. -/
abbrev withoutPrompterRows (clause : Nat) (s : State) (w : BitVec 6) (src : BitVec 6) (x : BitVec 6) (n : Fin 2) (v
    : W24) (res : BitVec 2) (data : List Byte) (lvl : Fin 2) : Prop :=
 s.takes w →
    let d := s.dev
    let c := 17 + n.val
    let k := core d c
    let run := fld d F.PC_CTRL_RUN n = 1
    let en : Fld := if n = 0 then F.INTC_SRC_EN0 else F.INTC_SRC_EN1
    let asks (i : Nat) : Bool := fld d F.INTC_SRC_PEND i = 1 ∧ fld d en i = 1
    let wins := asks x.toNat = true ∧ fld d F.INTC_SRC_LEVEL x.toNat = lvl
      ∧ ∀ i < 64, asks i = true → fld d F.INTC_SRC_LEVEL i < lvl ∨ (fld d F.INTC_SRC_LEVEL i = lvl ∧ x.toNat ≤ i)
    let takes := if lvl = 1 then k.st.getLsbD 11 = true ∧ k.ctx ≤ 1 else k.st.getLsbD 10 = true ∧ k.ctx = 0
    let boundary := k.hold = .free ∧ k.prefixed = false ∧ k.openTo ≤ k.words
    (clause ∈ [0] → clause ≠ 0)
    ∧ (clause ∈ [1] → (¬run → F.PC_CTRL_RUN.of v = 1 → F.PC_CTRL_RESET.of v = 0 → fld d F.PC_CTRL_MEMFAIL n = 0 →
        clause ≠ 1))
    ∧ (clause ∈ [2] → (¬run → F.PC_CTRL_RUN.of v = 1 → F.PC_CTRL_RESET.of v = 0 → fld d F.PC_CTRL_MEMFAIL n = 1 →
        clause ≠ 2))
    ∧ (clause ∈ [3] → (run → F.PC_CTRL_RUN.of v = 0 → F.PC_CTRL_RESET.of v = 0 →
        clause ≠ 3))
    ∧ (clause ∈ [4] → (F.PC_CTRL_RESET.of v = 1 → F.PC_CTRL_RUN.of v = fld d F.PC_CTRL_RUN n → fld d
        F.PC_CTRL_MEMFAIL n = 0 →
        clause ≠ 4))
    ∧ (clause ∈ [5] → (wins → k.run = .on → boundary → takes → clause ≠ 5))
    ∧ (clause ∈ [6] → (wins → k.run ≠ .on ∨ ¬takes ∨ ¬boundary → clause ≠ 6))
    ∧ (clause ∈ [7] → ((∀ i < 64, asks i = false) → clause ≠ 7))
    ∧ (clause ∈ [8] → (wins → k.run = .waiting → run → d.house.trans ≠ 3 → boundary → takes →
        clause ≠ 8))
    ∧ (clause ∈ [9] → (wins → k.run = .waiting → run → d.house.trans ≠ 3 → ¬takes ∨ ¬boundary →
        clause ≠ 9))
    ∧ (clause ∈ [10] → (k.run ≠ .waiting ∨ ¬run ∨ d.house.trans = 3 ∨ (∀ i < 64, asks i = false) → clause ≠ 10))
    ∧ (clause ∈ [11] → (0 < fld d F.HOUSE_PCWD_TIMEOUT n → d.house.stopped.getLsbD n = false →
        clause ≠ 11))
    ∧ (clause ∈ [12] → (fld d F.HOUSE_PCWD_TIMEOUT n = 0 ∨ d.house.stopped.getLsbD n = true → clause ≠ 12))
    ∧ (clause ∈ [13] → (F.TWI_CTRL_GO.of v = 1 → fld d F.TWI_CTRL_BUSY 0 = 1 → clause ≠ 13))
    ∧ (clause ∈ [14] → (F.TWI_CTRL_GO.of v = 1 → fld d F.TWI_CTRL_BUSY 0 = 0 → clause ≠ 14))
    ∧ (clause ∈ [15] → (fld d F.TWI_CTRL_BUSY 0 = 0 → clause ≠ 15))
    ∧ (clause ∈ [16] → (fld d F.TWI_CTRL_BUSY 0 = 1 → clause ≠ 16))

theorem hypotheses_PrompterRows :
    (∀ c ∈ [0, 6, 10, 12, 15], ¬ withoutPrompterRows c (having [(F.INTC_SRC_PEND, 0, 1), (F.INTC_SRC_EN0, 0, 1)]) 0
        0 0 0 0 0 [] 0)
    ∧ (∀ c ∈ [1, 14], ¬ withoutPrompterRows c (having []) 0 0 0 0 0x800000 0 [] 0)
    ∧ ¬ withoutPrompterRows 2 (having [(F.PC_CTRL_MEMFAIL, 1, 1), (F.PC_CTRL_UDTRAP, 1, 0)]) 0 0 0 1 0x800000 0 [] 0
    ∧ ¬ withoutPrompterRows 3 (having [(F.PC_CTRL_RUN, 0, 1), (F.PC_CTRL_UDTRAP, 0, 0)]) 0 0 0 0 0 0 [] 0
    ∧ ¬ withoutPrompterRows 4 (having [(F.PC_CTRL_RUN, 1, 1), (F.PC_CTRL_UDTRAP, 1, 0)]) 0 0 0 1 0x900000 0 [] 0
    ∧ ¬ withoutPrompterRows 5 (having [(F.INTC_SRC_PEND, 1, 1), (F.INTC_SRC_EN0, 1, 1)]
        { cores := [(17, { run := .on, st := 0x400 })] }) 0 0 1 0 0 0 [] 0
    ∧ (∀ c ∈ [7, 11], ¬ withoutPrompterRows c (having [(F.HOUSE_PCWD_TIMEOUT, 0, 1)]) 0 0 0 0 0 0 [] 0)
    ∧ ¬ withoutPrompterRows 8 (having [(F.PC_CTRL_RUN, 1, 1), (F.PC_CTRL_UDTRAP, 1, 0), (F.INTC_SRC_PEND, 0, 1),
        (F.INTC_SRC_EN1, 0, 1), (F.INTC_SRC_LEVEL, 0, 1)] { cores := [(18, { run := .waiting, st := 0x800 })] }) 0 0
        0 1 0 0 [] 1
    ∧ ¬ withoutPrompterRows 9 (having [(F.PC_CTRL_RUN, 0, 1), (F.PC_CTRL_UDTRAP, 0, 0), (F.INTC_SRC_PEND, 0, 1),
        (F.INTC_SRC_EN0, 0, 1), (F.INTC_SRC_LEVEL, 0, 1)] { cores := [(17, { run := .waiting })] }) 0 0 0 0 0 0 [] 1
    ∧ ¬ withoutPrompterRows 13 (having [(F.TWI_CTRL_BUSY, 0, 1), (F.TWI_CTRL_FAST, 0, 0), (F.TWI_CTRL_ADDR, 0, 0)])
        0 0 0 0 0x800000 0 [] 0
    ∧ ¬ withoutPrompterRows 16 (having [(F.TWI_CTRL_BUSY, 0, 1), (F.TWI_CTRL_FAST, 0, 0), (F.TWI_CTRL_ADDR, 0, 0)])
        0 0 0 0 0 0 [] 0 := by
  dsimp only [withoutPrompterRows]
  refine ⟨?_, ?_, ?_, ?_, ?_, ?_, ?_, ?_, ?_, ?_, ?_⟩ <;> decide

/-- The hypotheses of HostRows: each conclusion replaced by a falsehood where it is the one asked for. -/
abbrev withoutHostRows (clause : Nat) (s : State) (x : BitVec 6) (i : BitVec 20) (be : BitVec 4) (v : W32) (p : Fin
    17) (a : BitVec 14) (n : Fin 4) (speed : BitVec 2) (width : BitVec 2) (m : Move) (host : List Byte) (err :
        Option W24) (e : W24) (j : Nat) (b : Nat) : Prop :=
 halted s.dev = false →
    let d := s.dev
    let w := i.toNat
    let pc := (w - 0x88000) / 65536
    let word (a : Nat) : Nat := (Tab.get 0 d.mkt (a % 67108864)).toNat
    let head := fld d F.PT_HEAD_HEAD n
    let size := 2 ^ max 4 (min 12 (fld d F.PT_CFG_LOG2SZ n))
    let desc := fld d F.PT_CFG_BASE_HI n * 2 ^ 24 + fld d F.PT_BASE_LO n / 8 * 8 + 8 * head
    let sound (a : Nat) : Prop := Tab.get 0 d.ecc (a % 67108864) = 0
    let load := ∃ k ∈ d.cue.job, k.master = 28 + n.val
    let idle := fld d F.PT_CFG_STATUS n ≠ 1 ∨ load ∨ Tab.get none d.moves n ≠ none ∨ head = fld d F.PT_TAIL_TAIL n %
        size
    let ready := fld d F.PT_CFG_STATUS n = 1 ∧ Tab.get none d.moves n = none ∧ head ≠ fld d F.PT_TAIL_TAIL n % size
      ∧ ¬load ∧ 2 ^ 23 ≤ word desc ∧ ∀ o < 6, sound (desc + o)
    let src := word (desc + 2) * 2 ^ 24 + word (desc + 3)
    let dst := word (desc + 4) * 2 ^ 24 + word (desc + 5)
    let count := word (desc + 1)
    let spaces := word desc / 2 ^ 17 % 64
    let moves := Tab.get none d.moves n = some m ∧ m.addr + 8 ≤ 67108864 ∧ sound m.addr ∧ (∀ k ∈ d.cue.job, k.begun
        = true)
      ∧ d.boardHeld = []
    let open_ := 2 ≤ d.house.boot ∧ d.pcie.d3hot = false
    let sends := d.pcie.msixEn = true ∧ d.pcie.msixMask = false
    let first := m.run = none ∧ m.status = 0 ∧ inOrder s (28 + n.val) = true
    let fresh := first ∧ m.dsp = 1 ∧ m.dpk4 = false ∧ m.count % 3 = 0 ∧ m.dst + m.count / 3 ≤ m.addr
    (clause ∈ [0] → clause ≠ 0)
    ∧ (clause ∈ [1] → (open_ → sends → clause ≠ 1))
    ∧ (clause ∈ [2] → (open_ → ¬sends → clause ≠ 2))
    ∧ (clause ∈ [3, 4] → (¬open_ → clause ≠ 3 ∧ clause ≠ 4))
    ∧ (clause ∈ [5] → (d.house.boot < 2 → clause ≠ 5))
    ∧ (clause ∈ [6] → (open_ → be ≠ 15 → clause ≠ 6))
    ∧ (clause ∈ [7, 8, 9, 10, 11, 12, 13] → (open_ → be = 15 →
        (w = p.val * 32768 + a.toNat → clause ≠ 7)
        ∧ (w = p.val * 32768 + 16384 + a.toNat → clause ≠ 8)
        ∧ (0x88000 ≤ w → w < 0xA8000 → fld d F.PC_CTRL_SEC pc = 0 →
            clause ≠ 9)
        ∧ (0x88000 ≤ w → w < 0xA8000 → fld d F.PC_CTRL_SEC pc = 1 → clause ≠ 10)
        ∧ (0xFC000 ≤ w → w < 0xFC100 → w % 4 ≠ 3 →
            clause ≠ 11)
        ∧ (0xFC000 ≤ w → w < 0xFC100 → w % 4 = 3 → v.getLsbD 0 = true →
            clause ≠ 12)
        ∧ (0xA8000 ≤ w → w < 0xFC000 → clause ≠ 13)))
    ∧ (clause ∈ [14] → (2 ≤ d.house.boot →
        clause ≠ 14))
    ∧ (clause ∈ [15] → (idle ∨ (word desc < 2 ^ 23 ∧ ∀ o < 6, sound (desc + o)) → clause ≠ 15))
    ∧ (clause ∈ [16] → (ready → spaces = 9 → word desc / 2 ^ 15 % 4 = 0 → count % 3 = 0 → 0 < count → src + count /
        3 ≤ 67108864 →
        dst + count / 3 ≤ 67108864 → clause ≠ 16))
    ∧ (clause ∈ [17] → (ready → 5 ≤ spaces / 8 → clause ≠ 17))
    ∧ (clause ∈ [18, 19] → (ready → word desc / 2 ^ 15 % 4 = 0 → count % 3 = 0 → 0 < count → src + count / 3 ≤
        67108864 →
        (spaces = 10 → dst + count ≤ 0x400000 → dst < 0x10000 → clause ≠ 18)
        ∧ (spaces = 12 → dst + count / 3 ≤ 2 ^ 24 → dst ≤ A.VAULT_ADDR → A.VAULT_ADDR < dst + count / 3 → clause ≠
        19)))
    ∧ (clause ∈ [20] → (d.boardHeld = [] → Tab.get none d.moves n = none → clause ≠ 20))
    ∧ (clause ∈ [21] → (moves → m.status ≠ 0 → clause ≠ 21))
    ∧ (clause ∈ [22, 23] → (moves → fresh → m.ssp = 1 → m.spk4 = false → m.src + m.count / 3 ≤ m.dst → (∀ o <
        m.count / 3, sound (m.src + o)) →
        j < m.count / 3 → clause ≠ 22
          ∧ clause ≠ 23))
    ∧ (clause ∈ [24, 25] → (moves → fresh → m.ssp = 0 → err = none → j < m.count / 3 →
        clause ≠ 24
          ∧ clause ≠ 25))
    ∧ (clause ∈ [26, 27] → (moves → fresh → m.ssp = 0 → err = some e → e.toNat ≤ m.count → j < e.toNat / 3 →
        clause ≠ 26
          ∧ clause ≠ 27))
    ∧ (clause ∈ [28, 29] → (moves → fresh → m.ssp = 1 → m.spk4 = false → m.src + m.count / 3 ≤ m.dst → j < m.count /
        3 →
        (Tab.get 0 d.ecc (m.src + j)).getLsbD 30 = true → clause ≠ 28 ∧ clause ≠ 29))
    ∧ (clause ∈ [30, 31] → (moves → first → m.dsp = 1 → m.dpk4 = true → m.ssp = 0 → err = none → m.count % 4 = 0 →
        m.dst + m.count / 4 ≤ m.addr →
        j < m.count / 4 → clause ≠ 30
          ∧ clause ≠ 31))
    ∧ (clause ∈ [32] → (moves → first → m.dsp = 0 → m.ssp = 1 → m.spk4 = true → err = none → m.count % 4 = 0 →
        m.src + m.count / 4 ≤ m.addr → (∀ o < m.count / 4, sound (m.src + o)) →
        clause ≠ 32))

theorem hypotheses_HostRows :
    (∀ c ∈ [0, 1, 6, 14, 15, 20], ¬ withoutHostRows c (having []
        { pcie := { msixEn := true }, house := { boot := 2 } }) 0 0 0 0 0 0 0 0 0
        { addr := 0, index := 0, ssp := 0, dsp := 0, spk4 := false, dpk4 := false, irq := false, count := 0, src := 0, dst := 0, status := 0 }
        [] none 0 0 0)
    ∧ (∀ c ∈ [2, 8], ¬ withoutHostRows c (having [] { house := { boot := 2 } }) 0 0x34001 15 0 6 1 0 0 0
        { addr := 0, index := 0, ssp := 0, dsp := 0, spk4 := false, dpk4 := false, irq := false, count := 0, src := 0, dst := 0, status := 0 }
        [] none 0 0 0)
    ∧ (∀ c ∈ [3, 4, 5], ¬ withoutHostRows c (having []) 0 0 0 0 0 0 0 0 0
        { addr := 0, index := 0, ssp := 0, dsp := 0, spk4 := false, dpk4 := false, irq := false, count := 0, src := 0, dst := 0, status := 0 }
        [] none 0 0 0)
    ∧ ¬ withoutHostRows 7 (having [] { house := { boot := 2 } }) 0 0x50000 15 0 10 0 0 0 0
        { addr := 0, index := 0, ssp := 0, dsp := 0, spk4 := false, dpk4 := false, irq := false, count := 0, src := 0, dst := 0, status := 0 }
        [] none 0 0 0
    ∧ ¬ withoutHostRows 9 (having [] { house := { boot := 2 } }) 0 0x88000 15 0 0 0 0 0 0
        { addr := 0, index := 0, ssp := 0, dsp := 0, spk4 := false, dpk4 := false, irq := false, count := 0, src := 0, dst := 0, status := 0 }
        [] none 0 0 0
    ∧ ¬ withoutHostRows 10 (having [(F.PC_CTRL_SEC, 0, 1), (F.PC_CTRL_UDTRAP, 0, 0)] { house := { boot := 2 } }) 0
        0x88000 15 0 0 0 0 0 0
        { addr := 0, index := 0, ssp := 0, dsp := 0, spk4 := false, dpk4 := false, irq := false, count := 0, src := 0, dst := 0, status := 0 }
        [] none 0 0 0
    ∧ ¬ withoutHostRows 11 (having [] { house := { boot := 2 } }) 0 0xFC000 15 0 0 0 0 0 0
        { addr := 0, index := 0, ssp := 0, dsp := 0, spk4 := false, dpk4 := false, irq := false, count := 0, src := 0, dst := 0, status := 0 }
        [] none 0 0 0
    ∧ ¬ withoutHostRows 12 (having [] { house := { boot := 2 } }) 0 0xFC003 15 1 0 0 0 0 0
        { addr := 0, index := 0, ssp := 0, dsp := 0, spk4 := false, dpk4 := false, irq := false, count := 0, src := 0, dst := 0, status := 0 }
        [] none 0 0 0
    ∧ ¬ withoutHostRows 13 (having [] { house := { boot := 2 } }) 0 0xA8000 15 0 0 0 0 0 0
        { addr := 0, index := 0, ssp := 0, dsp := 0, spk4 := false, dpk4 := false, irq := false, count := 0, src := 0, dst := 0, status := 0 }
        [] none 0 0 0
    ∧ ¬ withoutHostRows 16 (having [(F.PT_BASE_LO, 2, 12917496), (F.PT_CFG_STATUS, 2, 1), (F.PT_CFG_LOG2SZ, 2, 0),
        (F.PT_HEAD_HEAD, 2, 2315)] { mkt := [(0xC56350, 0x920000), (0xC56351, 6)] }) 0 0 0 0 0 0 2 0 0
        { addr := 0, index := 0, ssp := 0, dsp := 0, spk4 := false, dpk4 := false, irq := false, count := 0, src := 0, dst := 0, status := 0 }
        [] none 0 0 0
    ∧ ¬ withoutHostRows 17 (having [(F.PT_BASE_LO, 0, 12953536), (F.PT_CFG_STATUS, 0, 1), (F.PT_CFG_LOG2SZ, 0, 0),
        (F.PT_HEAD_HEAD, 0, 238)] { mkt := [(0xC5AF30, 0xD00000)] }) 0 0 0 0 0 0 0 0 0
        { addr := 0, index := 0, ssp := 0, dsp := 0, spk4 := false, dpk4 := false, irq := false, count := 0, src := 0, dst := 0, status := 0 }
        [] none 0 0 0
    ∧ ¬ withoutHostRows 18 (having [(F.PT_BASE_LO, 2, 3384320), (F.PT_CFG_STATUS, 2, 1), (F.PT_CFG_LOG2SZ, 2, 0),
        (F.PT_HEAD_HEAD, 2, 2854)] { mkt := [(0x33FD30, 0x940000), (0x33FD31, 6)] }) 0 0 0 0 0 0 2 0 0
        { addr := 0, index := 0, ssp := 0, dsp := 0, spk4 := false, dpk4 := false, irq := false, count := 0, src := 0, dst := 0, status := 0 }
        [] none 0 0 0
    ∧ ¬ withoutHostRows 19 (having [(F.PT_BASE_LO, 3, 7871016), (F.PT_CFG_STATUS, 3, 1), (F.PT_CFG_LOG2SZ, 3, 0),
        (F.PT_HEAD_HEAD, 3, 3819)] { mkt := [(0x789180, 0x980000), (0x789181, 24), (0x789185, 0x47FFA)] }) 0 0 0 0 0
        0 3 0 0 { addr := 0, index := 0, ssp := 0, dsp := 0, spk4 := false, dpk4 := false, irq := false, count := 0, src := 0, dst := 0, status := 0 }
        [] none 0 0 0
    ∧ ¬ withoutHostRows 21 (having []
        { moves := [(1, (some { addr := 0x1048, index := 12, ssp := 2, dsp := 1, spk4 := false, dpk4 := true, irq := true, count := 9, src := 2, dst := 64, status := 3 }))] })
        0 0 0 0 0 0 1 0 0
        { addr := 0x1048, index := 12, ssp := 2, dsp := 1, spk4 := false, dpk4 := true, irq := true, count := 9, src := 2, dst := 64, status := 3 }
        [] none 0 0 0
    ∧ (∀ c ∈ [22, 23], ¬ withoutHostRows c (having []
        { moves := [(1, (some { addr := 0x10D8, index := 0, ssp := 1, dsp := 1, spk4 := false, dpk4 := false, irq := false, count := 12, src := 8, dst := 58, status := 0 }))] })
        0 0 0 0 0 0 1 0 0
        { addr := 0x10D8, index := 0, ssp := 1, dsp := 1, spk4 := false, dpk4 := false, irq := false, count := 12, src := 8, dst := 58, status := 0 }
        [] none 0 0 0)
    ∧ (∀ c ∈ [24, 25], ¬ withoutHostRows c (having []
        { moves := [(3, (some { addr := 0xFA0, index := 0, ssp := 0, dsp := 1, spk4 := false, dpk4 := false, irq := false, count := 9, src := 50, dst := 100, status := 0 }))] })
        0 0 0 0 0 0 3 0 0
        { addr := 0xFA0, index := 0, ssp := 0, dsp := 1, spk4 := false, dpk4 := false, irq := false, count := 9, src := 50, dst := 100, status := 0 }
        [] none 0 0 0)
    ∧ (∀ c ∈ [26, 27], ¬ withoutHostRows c (having []
        { moves := [(2, (some { addr := 0xFA0, index := 9, ssp := 0, dsp := 1, spk4 := false, dpk4 := false, irq := false, count := 9, src := 50, dst := 100, status := 0 }))] })
        0 0 0 0 0 0 2 0 0
        { addr := 0xFA0, index := 9, ssp := 0, dsp := 1, spk4 := false, dpk4 := false, irq := false, count := 9, src := 50, dst := 100, status := 0 }
        [] (some 4) 4 0 0)
    ∧ (∀ c ∈ [28, 29], ¬ withoutHostRows c (having []
        { ecc := [(50, 0x40000000)], moves := [(0, (some { addr := 0xFA0, index := 0, ssp := 1, dsp := 1, spk4 := false, dpk4 := false, irq := false, count := 9, src := 50, dst := 100, status := 0 }))] })
        0 0 0 0 0 0 0 0 0
        { addr := 0xFA0, index := 0, ssp := 1, dsp := 1, spk4 := false, dpk4 := false, irq := false, count := 9, src := 50, dst := 100, status := 0 }
        [] none 0 0 0)
    ∧ (∀ c ∈ [30, 31], ¬ withoutHostRows c (having []
        { moves := [(1, (some { addr := 0x1000, index := 6, ssp := 0, dsp := 1, spk4 := true, dpk4 := true, irq := true, count := 4, src := 0, dst := 38, status := 0 }))] })
        0 0 0 0 0 0 1 0 0
        { addr := 0x1000, index := 6, ssp := 0, dsp := 1, spk4 := true, dpk4 := true, irq := true, count := 4, src := 0, dst := 38, status := 0 }
        [] none 0 0 0)
    ∧ ¬ withoutHostRows 32 (having []
        { moves := [(1, (some { addr := 0x1018, index := 15, ssp := 1, dsp := 0, spk4 := true, dpk4 := true, irq := false, count := 8, src := 4, dst := 51, status := 0 }))] })
        0 0 0 0 0 0 1 0 0
        { addr := 0x1018, index := 15, ssp := 1, dsp := 0, spk4 := true, dpk4 := true, irq := false, count := 8, src := 4, dst := 51, status := 0 }
        [] none 0 0 0 := by
  dsimp only [withoutHostRows]
  refine ⟨?_, ?_, ?_, ?_, ?_, ?_, ?_, ?_, ?_, ?_, ?_, ?_, ?_, ?_, ?_, ?_, ?_, ?_, ?_, ?_⟩ <;> decide

/-- The hypotheses of HousePowerRows: each conclusion replaced by a falsehood where it is the one asked for. -/
abbrev withoutHousePowerRows (clause : Nat) (s : State) (addr : BitVec 3) (target : BitVec 3) (m : BitVec 6) (x :
    BitVec 17) (l : List Byte) (w : BitVec 6) (pec : BitVec 2) (confirm : BitVec 16) (causes : BitVec 4) (i : Nat)
        (n : Nat) (b : Nat) : Prop :=
    let d := s.dev
    let h := d.house
    let lc := s.sec.lc
    let permitted := (lc.toNat, target.toNat) ∈ [(0, 1), (1, 2), (1, 3), (2, 3), (2, 4), (3, 4)] ∧ confirm = 0x4C43
    let heard := h.up = true ∧ (pec = 1 ∨ (pec = 0 ∧ fld d F.HOUSE_POLICY_PECREQ 0 = 0))
    let taken := if w.toNat = 63 then heard else s.takes w
    let turned := if w.toNat = 63 then ¬heard else halted d = true ∨ (w = 32 ∧ hostOpen d = false)
    let seen := causes &&& BitVec.ofNat 4 (12 + fld d F.HOUSE_TAMPER_EN0 0 + 2 * fld d F.HOUSE_TAMPER_EN1 0)
    (clause ∈ [1] → (h.boot = 1 → clause ≠ 1))
    ∧ (clause ∈ [2] → (h.boot = 1 → m.toNat < 16 → clause ≠ 2))
    ∧ (clause ∈ [3] → (h.boot ≠ 1 → h.trans = 3 → clause ≠ 3))
    ∧ (clause ∈ [4] → (h.boot ≠ 1 → h.trans ≠ 3 → clause ≠ 4))
    ∧ (clause ∈ [5] → (h.boot = 2 → lc = 0 → clause ≠ 5))
    ∧ (clause ∈ [6] → (h.boot = 2 → lc ≠ 0 → clause ≠ 6))
    ∧ (clause ∈ [7] → (h.boot = 2 → lc ≠ 0 → bootCheck lc (some l) = 0 → n < 2 → i < leAt l (16 + 8 * n) 4 → leAt l
        32 4 = 0 →
        clause ≠ 7))
    ∧ (clause ∈ [8] → (h.boot ≠ 2 → clause ≠ 8))
    ∧ (clause ∈ [9] → (taken → ¬permitted → clause ≠ 9))
    ∧ (clause ∈ [10] → (turned → clause ≠ 10))
    ∧ (clause ∈ [11] → (w.toNat ≠ 63 → ¬turned → ¬taken → clause ≠ 11))
    ∧ (clause ∈ [12] → (taken → permitted → clause ≠ 12))
    ∧ (clause ∈ [13] → (seen = 0 → clause ≠ 13))
    ∧ (clause ∈ [14] → (seen ≠ 0 → h.up = false → clause ≠ 14))
    ∧ (clause ∈ [15] → (seen ≠ 0 → h.up = true → clause ≠ 15))
    ∧ (clause ∈ [16] → (seen ≠ 0 → h.up = true → s.sec.sealing = none → fld d F.HOUSE_POLICY_TAMPHALT 0 = 0 → fld d
        F.VAULT_STAT_BKEY 0 ≤ 1 →
        clause ≠ 16))
    ∧ (clause ∈ [17] → (fld d F.HOUSE_ALERT_CAUSE 0 / 2 ^ 7 % 2 = 1 → clause ≠ 17))
    ∧ (clause ∈ [18] → (fld d F.HOUSE_ALERT_CAUSE 0 / 2 ^ 7 % 2 = 0 → clause ≠ 18))

theorem hypotheses_HousePowerRows :
    (∀ c ∈ [1, 2], ¬ withoutHousePowerRows c (having [] { house := { boot := 1 } }) 0 0 0 0 [] 0 0 0 0 0 0 0)
    ∧ ¬ withoutHousePowerRows 3 (having [] { house := { trans := 3 } }) 0 0 0 0 [] 0 0 0 0 0 0 0
    ∧ (∀ c ∈ [4, 8, 9, 13, 18], ¬ withoutHousePowerRows c (having []) 0 0 0 0 [] 0 0 0 0 0 0 0)
    ∧ ¬ withoutHousePowerRows 5 (having [] { house := { boot := 2 } }) 0 0 0 0 [] 0 0 0 0 0 0 0
    ∧ ¬ withoutHousePowerRows 6 (having [] { house := { boot := 2 } } { lc := 1 }) 0 0 0 0 [] 0 0 0 0 0 0 0
    ∧ ¬ withoutHousePowerRows 7 (having [] { house := { boot := 2 } } { lc := 1 }) 0 0 0 0 ([79, 66, 84, 49, 1, 0,
        0, 0, 84, 0, 0, 0, 64, 0, 0, 0, 3, 0, 0, 0, 76, 0, 0, 0, 2] ++ List.replicate 35 0 ++ [249, 184, 47, 111] ++
        List.replicate 20 0) 0 0 0 0 0 0 0
    ∧ ¬ withoutHousePowerRows 10 (having []) 0 0 0 0 [] 63 0 0 0 0 0 0
    ∧ ¬ withoutHousePowerRows 11 (having [] { wliveHeld := [(1, (0, none))] }) 0 0 0 0 [] 1 0 0 0 0 0 0
    ∧ ¬ withoutHousePowerRows 12 (having []) 0 1 0 0 [] 0 0 0x4C43 0 0 0 0
    ∧ ¬ withoutHousePowerRows 14 (having []) 0 0 0 0 [] 0 0 0 8 0 0 0
    ∧ (∀ c ∈ [15, 16], ¬ withoutHousePowerRows c (having [(F.HOUSE_TAMPER_EN0, 0, 1)] { house := { up := true } }) 0
        0 0 0 [] 0 0 0 1 0 0 0)
    ∧ ¬ withoutHousePowerRows 17 (having [(F.HOUSE_ALERT_CAUSE, 0, 128)]) 0 0 0 0 [] 0 0 0 0 0 0 0 := by
  dsimp only [withoutHousePowerRows]
  refine ⟨?_, ?_, ?_, ?_, ?_, ?_, ?_, ?_, ?_, ?_, ?_, ?_⟩ <;> decide

/-- The hypotheses of HouseStateRows: each conclusion replaced by a falsehood where it is the one asked for. -/
abbrev withoutHouseStateRows (clause : Nat) (s : State) (w : BitVec 6) (pec : BitVec 2) (v : W24) (sec : BitVec 48)
    (ns : BitVec 30) (valid : Bool) (tev : Nat) : Prop :=
 s.takes w →
    let d := s.dev
    let h := d.house
    let state := fld d F.HOUSE_STATE_STATE 0
    let smb := w.toNat = 63
    let takes := smb → h.up = true ∧ (pec = 1 ∨ (pec = 0 ∧ fld d F.HOUSE_POLICY_PECREQ 0 = 0))
    let free := state < 2 ∧ h.trans = 0
    let grant (k : Nat) : Bool := fld d (if k = 1 then F.HOUSE_GRANT_D1 else if k = 2 then F.HOUSE_GRANT_D2 else
        F.HOUSE_GRANT_D3) 0 == 1
    let rate := rateHz d
    let need (k : Nat) : Nat :=
      (if k = 1 then 1000000000 else if k = 2 then 2000000 * rate else 60000000 * rate)
        + fld d F.HOUSE_GRANT_MARGIN 0 * 1000000 * rate
    let left : Int := ((tev : Int) - (d.time.sec * 1000000000 + d.time.frac / 2 ^ 32 : Nat)) * rate
    let fits (k : Nat) : Bool := decide (eventDue d = none) || decide (need k ≤ left)
    let none_ := ∀ k ∈ [1, 2, 3], (grant k && fits k) = false
    let deepest (k : Nat) : Prop := grant k = true ∧ fits k = true ∧ ∀ j ∈ [1, 2, 3], k < j → (grant j && fits j) =
        false
    let shallow := h.depth = 1 ∧ h.trans = 0 ∧ ∀ n < 4, (Tab.get {} d.ports n : Port).lpi = false
    let due := eventDue d = none ∨ eventDue d = some tev
    (clause ∈ [1] → (¬takes → ∀ i ∈ [Instr.runCmd w pec, Instr.hushCmd w pec, Instr.darkCmd w pec, Instr.grant w pec
        v,
        Instr.nextEvent w pec sec ns valid], clause ≠ 1))
    ∧ (clause ∈ [2] → (takes → ¬free → ∀ i ∈ [Instr.runCmd w pec, Instr.hushCmd w pec, Instr.darkCmd w pec], clause
        ≠ 2))
    ∧ (clause ∈ [3] → (takes → free → state = 0 → clause ≠ 3))
    ∧ (clause ∈ [4] → (takes → state = 1 → shallow → clause ≠ 4))
    ∧ (clause ∈ [5] → (takes → free → state = 1 → clause ≠ 5))
    ∧ (clause ∈ [6] → (takes → free → state = 0 → (∀ k ∈ [1, 2, 3], grant k = false) → clause ≠ 6))
    ∧ (clause ∈ [7] → (takes → free → state = 0 → due → none_ → (∃ k ∈ [1, 2, 3], grant k = true) → clause ≠ 7))
    ∧ (clause ∈ [8] → (takes → free → state = 0 → due → d.ticking = true → ∀ k ∈ [1, 2, 3], deepest k → clause ≠ 8))
    ∧ (clause ∈ [9] → (takes → free → state = 0 → d.ticking = true → clause ≠ 9))
    ∧ (clause ∈ [10] → (takes → free → state = 1 → clause ≠ 10))
    ∧ (clause ∈ [11] → (state = 1 → shallow → eventDue d = some tev → left ≤ need 1 → clause ≠ 11))
    ∧ (clause ∈ [12] → (state ≠ 1 ∨ eventDue d = none ∨ (eventDue d = some tev ∧ (need h.depth : Int) < left) →
        clause ≠ 12))
    ∧ (clause ∈ [13] → (takes → state ≠ 1 → clause ≠ 13))
    ∧ (clause ∈ [14] → (takes → state = 1 → shallow → F.HOUSE_GRANT_D1.of v = 0 → clause ≠ 14))
    ∧ (clause ∈ [15] → (takes → state ≠ 1 → clause ≠ 15))

theorem hypotheses_HouseStateRows :
    (∀ c ∈ [1, 12], ¬ withoutHouseStateRows c (having []) 63 0 0 0 0 false 0)
    ∧ ¬ withoutHouseStateRows 2 (having [(F.HOUSE_STATE_STATE, 0, 2)]) 0 0 0 0 0 false 0
    ∧ (∀ c ∈ [3, 6, 13, 15], ¬ withoutHouseStateRows c (having []) 0 0 0 0 0 false 0)
    ∧ (∀ c ∈ [4, 5, 10, 14], ¬ withoutHouseStateRows c (having [(F.HOUSE_STATE_STATE, 0, 1)]
        { house := { depth := 1 } }) 0 0 0 0 0 false 0)
    ∧ ¬ withoutHouseStateRows 7 (having [(F.HOUSE_GRANT_D3, 0, 1), (F.HOUSE_GRANT_MARGIN, 0, 0),
        (F.HOUSE_NE_NS_HI_VALID, 0, 1), (F.HOUSE_NE_NS_LO_NS, 0, 79992)]) 0 0 0 0 0 false 0x13878
    ∧ (∀ c ∈ [8, 9], ¬ withoutHouseStateRows c (having [(F.HOUSE_GRANT_D3, 0, 1), (F.HOUSE_GRANT_MARGIN, 0, 0)]
        { ticking := true }) 0 0 0 0 0 false 0)
    ∧ ¬ withoutHouseStateRows 11 (having [(F.HOUSE_STATE_STATE, 0, 1), (F.HOUSE_NE_NS_HI_VALID, 0, 1),
        (F.HOUSE_NE_NS_LO_NS, 0, 9999)] { house := { depth := 1 } }) 0 0 0 0 0 false 0x270F := by
  dsimp only [withoutHouseStateRows]
  refine ⟨?_, ?_, ?_, ?_, ?_, ?_, ?_⟩ <;> decide

/-- The hypotheses of SmbusRows: each conclusion replaced by a falsehood where it is the one asked for. -/
abbrev withoutSmbusRows (clause : Nat) (s : State) (pec : BitVec 2) (tj : BitVec 16) (v : BitVec 16) (n : Fin 2) :
    Prop :=
    let d := s.dev
    let h := d.house
    let takes := h.up = true ∧ (pec = 1 ∨ (pec = 0 ∧ fld d F.HOUSE_POLICY_PECREQ 0 = 0))
    let low := h.released = false ∧ ∃ b < 12, (fld d F.HOUSE_ALERT_CAUSE 0).testBit b = true
      ∧ (fld d F.HOUSE_ALERT_MASK_MASK 0).testBit b = false
    let all : List Instr :=
      [.smbState pec, .smbGrantRead pec, .smbNextEventRead pec, .smbSerial pec, .smbLc pec, .smbTemp pec tj,
          .smbVcore pec,
       .smbAlert pec, .smbAlertClr pec v, .smbAlertMask pec (some v), .smbAlertMask pec none, .smbLedger pec,
       .smbResetDevice pec, .smbResetPc pec n, .smbTamper pec]
    (clause ∈ [1] → (¬takes → ∀ i ∈ all, clause ≠ 1))
    ∧ (clause ∈ [2, 3, 4, 5, 6, 7, 8, 9, 10, 11, 12, 13, 14, 15, 16, 17] → (takes → clause ≠ 2 ∧ clause ≠ 3
      ∧ clause ≠ 4
      ∧ clause ≠ 5
      ∧ clause ≠ 6 ∧ clause ≠ 7
      ∧ clause ≠ 8 ∧ clause ≠ 9
      ∧ clause ≠ 10
      ∧ clause ≠ 11
      ∧ clause ≠ 12
      ∧ clause ≠ 13
      ∧ (d.led.smb = 0 → clause ≠ 14)
      ∧ (0 < d.led.smb → clause ≠ 15)
      ∧ clause ≠ 16
      ∧ clause ≠ 17))
    ∧ (clause ∈ [18] → (h.up = true → low → clause ≠ 18))
    ∧ (clause ∈ [19] → (h.up = false ∨ ¬low → clause ≠ 19))

theorem hypotheses_SmbusRows :
    (∀ c ∈ [1, 19], ¬ withoutSmbusRows c (having []) 0 0 0 0)
    ∧ (∀ c ∈ [2, 3, 4, 5, 6, 7, 8, 9, 10, 11, 12, 13, 14, 16, 17], ¬ withoutSmbusRows c (having []
        { house := { up := true } }) 0 0 0 0)
    ∧ ¬ withoutSmbusRows 15 (having [] { led := { smb := 1 }, house := { up := true } }) 0 0 0 0
    ∧ ¬ withoutSmbusRows 18 (having [(F.HOUSE_ALERT_CAUSE, 0, 1)] { house := { up := true } }) 0 0 0 0 := by
  dsimp only [withoutSmbusRows]
  refine ⟨?_, ?_, ?_, ?_⟩ <;> decide

/-- The hypotheses of LedgerRows: each conclusion replaced by a falsehood where it is the one asked for. -/
abbrev withoutLedgerRows (clause : Nat) (s : State) (w : BitVec 6) (v : W24) (p : Post) (p' : Post) (q : Accepted)
    (rest : List Accepted) (i : Nat) (j : Nat) : Prop :=
 s.takes w →
    let d := s.dev
    let l := d.led
    let first := p.src < p'.src ∨ (p.src = p'.src ∧ p.code < p'.code)
    let code := q.post.code
    let sev := (sevOf code).getD 0
    let once := code = 0x02 ∨ code = 0x71 ∨ (0x50 ≤ code ∧ code ≤ 0x54)
    let tail := fld d F.LEDG_TAIL_TAIL 0
    let held := fld d F.LEDG_COUNT_COUNT 0
    let plain := l.queue = q :: rest ∧ code < 256 ∧ code ≠ 0x83 ∧ code ≠ 0x84
    let turned := sev < fld d F.LEDG_CTRL_MINSEV 0
      ∨ (fld d F.LEDG_CTRL_RLIM 0 ≠ 0 ∧ fld d F.LEDG_CTRL_RLIM 0 ≤ Tab.get 0 l.codeSec code)
      ∨ (once ∧ (code, q.post.src) ∈ l.srcSec)
    let kept := plain ∧ ¬turned
    let quiet := sev < fld d F.LEDG_PCTRL_PSEV 0
    let taken := (F.LEDG_TAIL_TAIL.of v + 4096 - tail) % 4096
    let used := if taken = 0 ∧ 4096 ≤ held then 4096 else taken
    let c := F.LEDG_SWPOST0_CODE.of v
    let wf (d : Dev) : Prop := fld d F.LEDG_COUNT_COUNT 0 ≤ 4096
      ∧ (fld d F.LEDG_TAIL_TAIL 0 + fld d F.LEDG_COUNT_COUNT 0) % 4096 = fld d F.LEDG_HEAD_HEAD 0
    (clause ∈ [0] → clause ≠ 0)
    ∧ (clause ∈ [1] → (l.arriving = [p, p'] → first → l.queue.length < 15 → clause ≠ 1))
    ∧ (clause ∈ [2] → (l.arriving = [p', p] → first → l.queue.length < 15 → clause ≠ 2))
    ∧ (clause ∈ [3] → (l.arriving = [p] → 16 ≤ l.queue.length → p.code < 256 →
        clause ≠ 3))
    ∧ (clause ∈ [4] → (l.arriving = [] → clause ≠ 4))
    ∧ (clause ∈ [5] → (wf d → ∀ i ∈ [Instr.ledgerPost, .ledgerStore, .ledgerTailWrite w v, .ledgerClear w v,
        .ledgerEntry0Read w,
        .ledgCntclrAll w v, .flush w v, .flushDone, .flushPeriod, .swpost w v], clause ≠ 5))
    ∧ (clause ∈ [6] → (l.queue = [] → clause ≠ 6))
    ∧ (clause ∈ [7] → (plain → turned →
        clause ≠ 7))
    ∧ (clause ∈ [8] → (kept → quiet → held < 4096 → clause ≠ 8))
    ∧ (clause ∈ [9] → (kept → quiet → 4096 ≤ held → fld d F.LEDG_CTRL_MODE 0 = 0 →
        clause ≠ 9))
    ∧ (clause ∈ [10] → (kept → 4096 ≤ held → fld d F.LEDG_CTRL_MODE 0 = 1 →
        clause ≠ 10))
    ∧ (clause ∈ [11] → (kept → ¬quiet → held < 4096 → l.persSec < 16 → clause ≠ 11))
    ∧ (clause ∈ [12] → (kept → ¬quiet → held < 4096 → 16 ≤ l.persSec →
        clause ≠ 12))
    ∧ (clause ∈ [13] → (l.queue = q :: rest → code = 0x83 ∨ code = 0x84 → clause ≠ 13))
    ∧ (clause ∈ [14] → (used ≤ held → clause ≠ 14))
    ∧ (clause ∈ [15] → (held < used → clause ≠ 15))
    ∧ (clause ∈ [16] → (F.LEDG_CTRL_CLEAR.of v = 1 → clause ≠ 16))
    ∧ (clause ∈ [17] → (fld d F.LEDG_PCTRL_BUSY 0 = 0 → clause ≠ 17))
    ∧ (clause ∈ [18] → (fld d F.LEDG_PCTRL_BUSY 0 = 1 → d.house.trans ≠ 6 → l.since = [] → clause ≠ 18))
    ∧ (clause ∈ [19] → (F.LEDG_SWPOST0_GO.of v = 1 → c = 0x90 ∨ c = 0x91 → clause ≠ 19))
    ∧ (clause ∈ [20] → (F.LEDG_SWPOST0_GO.of v = 1 → c ≠ 0x90 → c ≠ 0x91 →
        clause ≠ 20))
    ∧ (clause ∈ [21] → (F.LEDG_SWPOST0_GO.of v = 0 → clause ≠ 21))

theorem hypotheses_LedgerRows :
    (∀ c ∈ [0, 3, 5, 14, 17, 21], ¬ withoutLedgerRows c (having []
        { led := { arriving := [{ code := 82, src := 8, d1 := 0, d2 := 0 }], queue := (List.replicate 16 { post := { code := 0, src := 0, d1 := 0, d2 := 0 }, seq := 0, sec := 0, ns := 0 }) } })
        0 0 { code := 82, src := 8, d1 := 0, d2 := 0 } { code := 0, src := 0, d1 := 0, d2 := 0 }
        { post := { code := 0, src := 0, d1 := 0, d2 := 0 }, seq := 0, sec := 0, ns := 0 } [] 0 0)
    ∧ ¬ withoutLedgerRows 1 (having []
        { led := { arriving := [{ code := 32, src := 2, d1 := 0, d2 := 0 }, { code := 132, src := 6, d1 := 0, d2 := 0 }] } })
        0 0 { code := 32, src := 2, d1 := 0, d2 := 0 } { code := 132, src := 6, d1 := 0, d2 := 0 }
        { post := { code := 0, src := 0, d1 := 0, d2 := 0 }, seq := 0, sec := 0, ns := 0 } [] 0 0
    ∧ ¬ withoutLedgerRows 2 (having []
        { led := { arriving := [{ code := 132, src := 8, d1 := 0, d2 := 0 }, { code := 32, src := 7, d1 := 0, d2 := 0 }] } })
        0 0 { code := 32, src := 7, d1 := 0, d2 := 0 } { code := 132, src := 8, d1 := 0, d2 := 0 }
        { post := { code := 0, src := 0, d1 := 0, d2 := 0 }, seq := 0, sec := 0, ns := 0 } [] 0 0
    ∧ (∀ c ∈ [4, 13], ¬ withoutLedgerRows c (having []
        { led := { queue := ([{ post := { code := 131, src := 12, d1 := 0, d2 := 0 }, seq := 0, sec := 0, ns := 0 }] ++ List.replicate 16 { post := { code := 82, src := 12, d1 := 0, d2 := 0 }, seq := 0, sec := 0, ns := 0 }) } })
        0 0 { code := 0, src := 0, d1 := 0, d2 := 0 } { code := 0, src := 0, d1 := 0, d2 := 0 }
        { post := { code := 131, src := 12, d1 := 0, d2 := 0 }, seq := 0, sec := 0, ns := 0 } (List.replicate 16
        { post := { code := 82, src := 12, d1 := 0, d2 := 0 }, seq := 0, sec := 0, ns := 0 }) 0 0)
    ∧ (∀ c ∈ [6, 18], ¬ withoutLedgerRows c (having [(F.LEDG_PCTRL_BUSY, 0, 1), (F.LEDG_PCTRL_PSEV, 0, 0),
        (F.LEDG_PCTRL_PFLUSH, 0, 0)]) 0 0 { code := 0, src := 0, d1 := 0, d2 := 0 }
        { code := 0, src := 0, d1 := 0, d2 := 0 }
        { post := { code := 0, src := 0, d1 := 0, d2 := 0 }, seq := 0, sec := 0, ns := 0 } [] 0 0)
    ∧ ¬ withoutLedgerRows 7 (having []
        { led := { queue := [{ post := { code := 82, src := 4, d1 := 0, d2 := 0 }, seq := 0, sec := 0, ns := 0 }, { post := { code := 112, src := 15, d1 := 0, d2 := 0 }, seq := 0, sec := 0, ns := 0 }], srcSec := [(82, 4)] } })
        0 0 { code := 0, src := 0, d1 := 0, d2 := 0 } { code := 0, src := 0, d1 := 0, d2 := 0 }
        { post := { code := 82, src := 4, d1 := 0, d2 := 0 }, seq := 0, sec := 0, ns := 0 }
        [{ post := { code := 112, src := 15, d1 := 0, d2 := 0 }, seq := 0, sec := 0, ns := 0 }] 0 0
    ∧ ¬ withoutLedgerRows 8 (having []
        { led := { queue := [{ post := { code := 32, src := 10, d1 := 0, d2 := 0 }, seq := 0, sec := 0, ns := 0 }, { post := { code := 144, src := 5, d1 := 0, d2 := 0 }, seq := 0, sec := 0, ns := 0 }] } })
        0 0 { code := 0, src := 0, d1 := 0, d2 := 0 } { code := 0, src := 0, d1 := 0, d2 := 0 }
        { post := { code := 32, src := 10, d1 := 0, d2 := 0 }, seq := 0, sec := 0, ns := 0 }
        [{ post := { code := 144, src := 5, d1 := 0, d2 := 0 }, seq := 0, sec := 0, ns := 0 }] 0 0
    ∧ ¬ withoutLedgerRows 9 (having [(F.LEDG_COUNT_COUNT, 0, 4096)]
        { led := { queue := ([{ post := { code := 80, src := 7, d1 := 0, d2 := 0 }, seq := 0, sec := 0, ns := 0 }, { post := { code := 112, src := 8, d1 := 0, d2 := 0 }, seq := 0, sec := 0, ns := 0 }] ++ List.replicate 16 { post := { code := 1, src := 7, d1 := 0, d2 := 0 }, seq := 0, sec := 0, ns := 0 }) } })
        0 0 { code := 0, src := 0, d1 := 0, d2 := 0 } { code := 0, src := 0, d1 := 0, d2 := 0 }
        { post := { code := 80, src := 7, d1 := 0, d2 := 0 }, seq := 0, sec := 0, ns := 0 }
        ([{ post := { code := 112, src := 8, d1 := 0, d2 := 0 }, seq := 0, sec := 0, ns := 0 }] ++ List.replicate 16
        { post := { code := 1, src := 7, d1 := 0, d2 := 0 }, seq := 0, sec := 0, ns := 0 }) 0 0
    ∧ ¬ withoutLedgerRows 10 (having [(F.LEDG_CTRL_MODE, 0, 1), (F.LEDG_CTRL_IRQSEV, 0, 0), (F.LEDG_COUNT_COUNT, 0,
        4096)] { led := { queue := [{ post := { code := 80, src := 11, d1 := 0, d2 := 0 }, seq := 0, sec := 0, ns := 0 }, { post := { code := 132, src := 2, d1 := 0, d2 := 0 }, seq := 0, sec := 0, ns := 0 }] } })
        0 0 { code := 0, src := 0, d1 := 0, d2 := 0 } { code := 0, src := 0, d1 := 0, d2 := 0 }
        { post := { code := 80, src := 11, d1 := 0, d2 := 0 }, seq := 0, sec := 0, ns := 0 }
        [{ post := { code := 132, src := 2, d1 := 0, d2 := 0 }, seq := 0, sec := 0, ns := 0 }] 0 0
    ∧ ¬ withoutLedgerRows 11 (having []
        { led := { queue := [{ post := { code := 19, src := 8, d1 := 0, d2 := 0 }, seq := 0, sec := 0, ns := 0 }] } })
        0 0 { code := 0, src := 0, d1 := 0, d2 := 0 } { code := 0, src := 0, d1 := 0, d2 := 0 }
        { post := { code := 19, src := 8, d1 := 0, d2 := 0 }, seq := 0, sec := 0, ns := 0 } [] 0 0
    ∧ ¬ withoutLedgerRows 12 (having []
        { led := { queue := [{ post := { code := 144, src := 14, d1 := 0, d2 := 0 }, seq := 0, sec := 0, ns := 0 }, { post := { code := 144, src := 0, d1 := 0, d2 := 0 }, seq := 0, sec := 0, ns := 0 }, { post := { code := 132, src := 3, d1 := 0, d2 := 0 }, seq := 0, sec := 0, ns := 0 }, { post := { code := 1, src := 16, d1 := 0, d2 := 0 }, seq := 0, sec := 0, ns := 0 }, { post := { code := 132, src := 14, d1 := 0, d2 := 0 }, seq := 0, sec := 0, ns := 0 }], persSec := 16 } })
        0 0 { code := 0, src := 0, d1 := 0, d2 := 0 } { code := 0, src := 0, d1 := 0, d2 := 0 }
        { post := { code := 144, src := 14, d1 := 0, d2 := 0 }, seq := 0, sec := 0, ns := 0 }
        [{ post := { code := 144, src := 0, d1 := 0, d2 := 0 }, seq := 0, sec := 0, ns := 0 },
        { post := { code := 132, src := 3, d1 := 0, d2 := 0 }, seq := 0, sec := 0, ns := 0 },
        { post := { code := 1, src := 16, d1 := 0, d2 := 0 }, seq := 0, sec := 0, ns := 0 },
        { post := { code := 132, src := 14, d1 := 0, d2 := 0 }, seq := 0, sec := 0, ns := 0 }] 0 0
    ∧ ¬ withoutLedgerRows 15 (having []) 0 1 { code := 0, src := 0, d1 := 0, d2 := 0 }
        { code := 0, src := 0, d1 := 0, d2 := 0 }
        { post := { code := 0, src := 0, d1 := 0, d2 := 0 }, seq := 0, sec := 0, ns := 0 } [] 0 0
    ∧ ¬ withoutLedgerRows 16 (having []) 0 0x40000 { code := 0, src := 0, d1 := 0, d2 := 0 }
        { code := 0, src := 0, d1 := 0, d2 := 0 }
        { post := { code := 0, src := 0, d1 := 0, d2 := 0 }, seq := 0, sec := 0, ns := 0 } [] 0 0
    ∧ ¬ withoutLedgerRows 19 (having []) 0 0x800090 { code := 0, src := 0, d1 := 0, d2 := 0 }
        { code := 0, src := 0, d1 := 0, d2 := 0 }
        { post := { code := 0, src := 0, d1 := 0, d2 := 0 }, seq := 0, sec := 0, ns := 0 } [] 0 0
    ∧ ¬ withoutLedgerRows 20 (having []) 0 0x800000 { code := 0, src := 0, d1 := 0, d2 := 0 }
        { code := 0, src := 0, d1 := 0, d2 := 0 }
        { post := { code := 0, src := 0, d1 := 0, d2 := 0 }, seq := 0, sec := 0, ns := 0 } [] 0 0 := by
  dsimp only [withoutLedgerRows]
  refine ⟨?_, ?_, ?_, ?_, ?_, ?_, ?_, ?_, ?_, ?_, ?_, ?_, ?_, ?_, ?_⟩ <;> decide

/-- The hypotheses of TallyRows: each conclusion replaced by a falsehood where it is the one asked for. -/
abbrev withoutTallyRows (clause : Nat) (s : State) (w : BitVec 6) (v : W24) (n : Fin 64) (off : Fin 6) (b :
    TallyBuf) (ticks : Nat) : Prop :=
 s.takes w →
    let d := s.dev
    let u : Tally := Tab.get {} d.tallies n
    let base := regWrite d w.toNat (F.TL_CTRL_EN.addr n) v
    let cfg := regWrite d w.toNat (F.TL_CTRL_EN.addr n + off) v
    let status := fld d F.TL_CTRL_STATUS n
    let other (d' : Dev) : Prop := tallyCfg d' n ≠ tallyCfg d n
    (clause ∈ [1] → (u.done = none → clause ≠ 1))
    ∧ (clause ∈ [2] → (u.done = some (b, ticks) → clause ≠ 2))
    ∧ (clause ∈ [3] → (F.TL_CTRL_EN.of v = 1 → u.live = false ∨ ¬other base →
        clause ≠ 3))
    ∧ (clause ∈ [4] → (F.TL_CTRL_EN.of v = 0 → u.live = false → status = 1 →
        clause ≠ 4))
    ∧ (clause ∈ [5] → (F.TL_CTRL_EN.of v = 0 → u.live = true → d.ticking = true → status = 1 →
        clause ≠ 5))
    ∧ (clause ∈ [6] → (F.TL_CTRL_EN.of v = 0 → F.TL_CTRL_HOLD.of v = 0 → u.live = true → u.done = none → d.ticking =
        false → status = 1 →
        clause ≠ 6))
    ∧ (clause ∈ [7] → (off.val ≠ 0 → u.live = true → other cfg → fld d F.TL_CUR_CUR n + 1 < u.cfg.win →
        fld d F.TL_CTRL_EN n = 1 → status ≠ 2 →
        clause ≠ 7))
    ∧ (clause ∈ [8] → (off.val ≠ 0 → u.live = true → other cfg → u.cfg.win ≤ fld d F.TL_CUR_CUR n + 1 →
        fld d F.TL_CTRL_EN n = 1 → status ≠ 2 →
        clause ≠ 8))
    ∧ (clause ∈ [9] → (off.val ≠ 0 → u.live = false → status ≠ 1 → fld d F.TL_CTRL_EN n = 0 → clause ≠ 9))
    ∧ (clause ∈ [10] → (u.live = true → u.cfg.probe = 9 → clause ≠ 10))
    ∧ (clause ∈ [11] → (u.live = false ∨ u.cfg.probe ≠ 9 → clause ≠ 11))

theorem hypotheses_TallyRows :
    (∀ c ∈ [1, 5], ¬ withoutTallyRows c (having [(F.TL_CTRL_STATUS, 13, 1)]
        { tallies := [(13, { live := true })], ticking := true }) 0 0 13 0 {} 0)
    ∧ (∀ c ∈ [2, 11], ¬ withoutTallyRows c (having []
        { tallies := [(13, { done := (some ({ nsamp := 53, mn := (-7), mx := 99, under := 3, bins := [(3, 9), (63, 1)] }, 2)) })] })
        0 0 13 0 { nsamp := 53, mn := (-7), mx := 99, under := 3, bins := [(3, 9), (63, 1)] } 2)
    ∧ ¬ withoutTallyRows 3 (having []) 0 0x800000 0 0 {} 0
    ∧ ¬ withoutTallyRows 4 (having [(F.TL_CTRL_STATUS, 17, 1)]) 0 0 17 0 {} 0
    ∧ ¬ withoutTallyRows 6 (having [(F.TL_CTRL_STATUS, 55, 1)] { tallies := [(55, { live := true })] }) 0 0 55 0 {} 0
    ∧ ¬ withoutTallyRows 7 (having [(F.TL_CTRL_EN, 44, 1)] { tallies := [(44, { live := true })] }) 0 0 44 3 {} 0
    ∧ ¬ withoutTallyRows 8 (having [(F.TL_CTRL_EN, 40, 1)]
        { tallies := [(40, { live := true, cfg := { win := 0 } })] }) 0 0 40 3 {} 0
    ∧ ¬ withoutTallyRows 9 (having []) 0 0 0 1 {} 0
    ∧ ¬ withoutTallyRows 10 (having [] { tallies := [(13, { live := true, cfg := { probe := 9 } })] }) 0 0 13 0 {} 0
        := by
  dsimp only [withoutTallyRows]
  refine ⟨?_, ?_, ?_, ?_, ?_, ?_, ?_, ?_, ?_⟩ <;> decide

/-- The hypotheses of RegisterWriteRow: each conclusion replaced by a falsehood where it is the one asked for. -/
abbrev withoutRegisterWriteRow (clause : Nat) (s : State) (w : BitVec 6) (m : BitVec 6) (a : W24) (v : W24) (whole :
    Bool) (r : RegRow) (dt : BitVec 16) (x : BitVec 26) (i : Nat) (m' : BitVec 6) (a' : W24) (v' : W24) (k : Fin 2)
        (tj : BitVec 8) : Prop :=
    let d := s.dev
    let n := a.toNat
    let plain := n < 0x400 ∨ (0x2800 ≤ n ∧ n < 0x4000) ∨ (0x6000 ≤ n ∧ n < 0x8000) ∨ (0x10010 ≤ n ∧ n < 0x14000)
      ∨ (0x44000 ≤ n ∧ n < 0x48000 ∧ n % 4 ≠ 3) ∨ (0x18000 ≤ n ∧ n < 0x1A000)
      ∨ n ∈ [A.HOUSE_POLICY, A.MKT_CTRL, A.LEDG_SEL, A.MCS_RETURN, A.PT_BASE, A.RING_BASE]
    let clean (y : W24) : Prop := ∀ i < 24, (∀ f ∈ r.fields, i < f.lo ∨ f.hi < i) → y.getLsbD i = false
    let it : Instr := .registerWrite w a { word := v, whole := whole }
    let still := d.boardHeld = []
    let shut (u : BitVec 6) := u = 32 ∧ (d.house.boot < 2 ∨ d.pcie.d3hot = true)
    let comes := halted s.dev = false ∧ ¬shut w
    let bytes := w = 32 → whole = true
    let heldPb (u : BitVec 6) := s.sec.pbHeld.any (·.1 = u.toNat) = true
    let heldLive (u : BitVec 6) := d.wliveHeld.any (·.1 = u.toNat) = true
    let heldBoard (u : BitVec 6) := u ≠ 32 ∧ (Tab.get [] d.bheld (if u = 17 then 20 else if u = 18 then 21 else
        22)).any (·.own = u.toNat) = true
      ∨ d.boardHeld.any (·.1 = u.toNat) = true
    let held (i : Instr) (u : BitVec 6) (l : List (Nat × Option W24)) : Prop :=
      let l := l.map fun e => (u.toNat, e)
      (heldPb u → clause ≠ 6)
      ∧ (¬heldPb u → heldLive u → clause ≠ 7)
      ∧ (¬heldPb u → ¬heldLive u → heldBoard u → clause ≠ 8)
    let lands := comes ∧ bytes ∧ still ∧ ¬heldPb w ∧ ¬heldLive w ∧ ¬heldBoard w
    (clause ∈ [1] → (lands → RegMap.lookup n = none → clause ≠ 1))
    ∧ (clause ∈ [2] → (lands → RegMap.lookup n = some r → plain → clean (rd d n) → clause ≠ 2))
    ∧ (clause ∈ [3] → (lands → n = A.TIME_RATE → clause ≠ 3))
    ∧ (clause ∈ [4] → (halted s.dev = false → ¬comes → still → clause ≠ 4))
    ∧ (clause ∈ [5] → (comes → ¬bytes → still → clause ≠ 5))
    ∧ (clause ∈ [6, 7, 8] → (comes → bytes → still → held it w [(n, some v)]))
    ∧ (clause ∈ [9] → (halted s.dev = false → still → w ≠ 32 → m' ≠ 32 →
        ∀ c ∈ [Instr.tickEdge dt, .ingressLatch [], .tuDescriptorEnd k, .s2Unlock tj, .lpLoss k true],
          clause ≠ 9))
    ∧ (clause ∈ [10] → (¬halted s.dev = false → ∀ c ∈ [it, Instr.tickEdge dt, Instr.ingressLatch [],
        Instr.marketAccess m x (some v) 0 0,
        Instr.taiSecond], clause ≠ 10))

theorem hypotheses_RegisterWriteRow :
    ¬ withoutRegisterWriteRow 1 (having []) 0 0 0x800000 0 false
        { base := 0x43000, stride := 1, count := 0x1000, fields := [{ hi := 15, lo := 0, ty := .rw, rst := 0 }] } 0
        0 0 0 0 0 0 0
    ∧ ¬ withoutRegisterWriteRow 2 (having []) 0 0 1 0 false
        { base := 1, stride := 1, count := 1, fields := [{ hi := 15, lo := 0, ty := .ro, rst := 0x8B08 }] } 0 0 0 0
        0 0 0 0
    ∧ ¬ withoutRegisterWriteRow 3 (having []) 0 0 0x5009 0 false
        { base := 0x5009, stride := 1, count := 1, fields := [{ hi := 23, lo := 0, ty := .rw, rst := 0 }] } 0 0 0 0
        0 0 0 0
    ∧ ¬ withoutRegisterWriteRow 4 (having []) 32 0 0 0 false
        { base := 1, stride := 1, count := 1, fields := [{ hi := 15, lo := 0, ty := .ro, rst := 0x8B08 }] } 0 0 0 0
        0 0 0 0
    ∧ ¬ withoutRegisterWriteRow 5 (having [] { house := { boot := 2 } }) 32 0 0 0 false
        { base := 0x10008, stride := 1, count := 1, fields := [{ hi := 23, lo := 23, ty := .wo, rst := 0 }, { hi := 22, lo := 22, ty := .wo, rst := 0 }, { hi := 9, lo := 0, ty := .wo, rst := 0 }] }
        0 0 0 0 0 0 0 0
    ∧ (∀ c ∈ [6, 9], ¬ withoutRegisterWriteRow c (having [] {} { lc := 0, pbHeld := [(0, (0, none))] }) 0 0 0 0
        false { base := 0x2802, stride := 1, count := 1, fields := [{ hi := 15, lo := 0, ty := .w1c, rst := 0 }] } 0
        0 0 0 0 0 0 0)
    ∧ ¬ withoutRegisterWriteRow 7 (having [] { wliveHeld := [(1, (0, none))] }) 1 0 0 0 false
        { base := 0x2E003, stride := 64, count := 2, fields := [{ hi := 23, lo := 23, ty := .wo, rst := 0 }, { hi := 22, lo := 12, ty := .ro, rst := 0 }, { hi := 11, lo := 0, ty := .ro, rst := 0 }] }
        0 0 0 0 0 0 0 0
    ∧ ¬ withoutRegisterWriteRow 8 (having [] { bheld := [(22, [{ op := 0, base := 0, mask := 0, own := 1 }])] }) 1 0
        0 0 false { base := 0x29002, stride := 4, count := 512, fields := [{ hi := 23, lo := 23, ty := .rw, rst := 0 }, { hi := 15, lo := 0, ty := .rwc, rst := 480 }] }
        0 0 0 0 0 0 0 0
    ∧ ¬ withoutRegisterWriteRow 10 (having [(F.HOUSE_STATE_STATE, 0, 4)]) 0 0 0 0 false
        { base := 0, stride := 1, count := 1, fields := [{ hi := 15, lo := 0, ty := .ro, rst := 0x1DF7 }] } 0 0 0 0
        0 0 0 0 := by
  dsimp only [withoutRegisterWriteRow]
  refine ⟨?_, ?_, ?_, ?_, ?_, ?_, ?_, ?_, ?_⟩ <;> decide

/-- The hypotheses of TickRows: each conclusion replaced by a falsehood where it is the one asked for. -/
abbrev withoutTickRows (clause : Nat) (s : State) (dt : BitVec 16) (l : List LocSample) (c : Nat) (q : Nat) (o :
    BoardOp) (held : List BoardOp) : Prop :=
 halted s.dev = false → s.dev.boardHeld = [] →
    let d := s.dev
    let K := (2 ^ 34 + sfld d F.TIME_RATE_RATE 0).toNat
    let U : Nat := 1000000000 * 2 ^ 32
    let gone := dt.toNat - d.time.ahead
    let coarse := fld d F.TIME_CTRL_COARSE 0 = 1
    let count := d.time.fifth + (if coarse then (d.time.sub + gone) / 8 * 8 else gone) * K
    let frac := d.time.frac + count / 5
    let within := frac < U
    let fallback := fld d F.MCS_STAT_TICKSRC 0 ≠ 0 ∧ (fld d F.LP_STAT_STATE 0 = 2 ∨ d.mcs.refAbsent = false)
    let source := (fld d F.MCS_STAT_S2LOCK 0 = 1 ∨ fallback) ∧ d.mcs.change ≠ 3 ∧ (d.house.gated = false ∨
        d.house.depth ≠ 3)
    let calm := d.mcs.change = 0 ∧ d.mcs.realign = 0 ∧ d.mcs.acq ≠ 3 ∧ d.mcs.back = false
    let one := d.bdue = [(q, [o])] ∧ d.bheld = [(q, held)] ∧ q < 23 ∧ c < 65536 ∧ o.base < 65536
    (clause ∈ [1] → (¬source → clause ≠ 1))
    ∧ (clause ∈ [2] → (within → ¬source → clause ≠ 2))
    ∧ (clause ∈ [3] → (within → source → calm → d.house.gated = true → d.house.trans ≠ 4 → clause ≠ 3))
    ∧ (clause ∈ [4] → (source → d.house.gated = false → clause ≠ 4))
    ∧ (clause ∈ [5] → (one → clause ≠ 5))
    ∧ (clause ∈ [6] → (d.house.gated = false → c < 8192 → d.rx = [] → clause ≠ 6))
    ∧ (clause ∈ [7] → (d.house.gated = false → c < 16 → q < 32 → locStatus d c = 0 → clause ≠ 7))
    ∧ (clause ∈ [8] → (d.house.gated = true → (∀ u < 2, (Tab.get {} d.tus u : Tu).waiting = []) → (∀ x < 2, (Tab.get
        {} d.tbs x : Tb).later = []) →
      clause ≠ 8))

theorem hypotheses_TickRows :
    (∀ c ∈ [1, 2, 5], ¬ withoutTickRows c (having []
        { bdue := [(7, [{ op := 4, base := 5, mask := 1 }])], bheld := [(7, [{ op := 4, base := 5, mask := 1 }, { op := 4, base := 5, mask := 1 }])] })
        0 [] 0 7 { op := 4, base := 5, mask := 1 } [{ op := 4, base := 5, mask := 1 },
        { op := 4, base := 5, mask := 1 }])
    ∧ ¬ withoutTickRows 3 (having [(F.MCS_STAT_TICKSRC, 0, 1)] { house := { gated := true } }) 0 [] 0 0
        { op := 0, base := 0, mask := 0 } []
    ∧ (∀ c ∈ [4, 6, 7], ¬ withoutTickRows c (having [(F.MCS_STAT_TICKSRC, 0, 1)]) 0 [] 0 0
        { op := 0, base := 0, mask := 0 } [])
    ∧ ¬ withoutTickRows 8 (having [] { house := { gated := true } }) 0 [] 0 0 { op := 0, base := 0, mask := 0 } []
        := by
  dsimp only [withoutTickRows]
  refine ⟨?_, ?_, ?_, ?_⟩ <;> decide

/-- The hypotheses of WordsRoundTrip and WordsFromTheSpec. -/
theorem hypotheses_WordsRoundTrip :
    (Instr.add h3 31 0 (.imm 1023)).wf = true ∧ (Instr.add h3 31 0 (.imm 1023)).hdr = some h3
      ∧ encodeWord (.add h3 31 0 (.imm 1023)) = some 0x014F83FF ∧ h3.cond = 0 ∧ h3.rsv = 0 := by decide

/-- The hypotheses of the clause of RegisterWriteRow on rows of their own: a row that takes effect, one whose master has an
access that BUSY or the Board holds, a row of the host before its link is enabled, and one in HALTED. -/
theorem hypotheses_RegisterWriteRow_rows :
    (∃ l, rowAccess (.collEnableWrite 28 5) = some (28, l)) ∧ (having []).up ∧ (28 : BitVec 6) ≠ 32
      ∧ (having [] {} { lc := 0, pbHeld := [(28, 3, none)] }).sec.pbHeld.any (·.1 = 28) = true
      ∧ (having [] { wliveHeld := [(28, 3, none)] }).dev.wliveHeld.any (·.1 = 28) = true
      ∧ (having [] { boardHeld := [(28, 3, none)] }).dev.boardHeld.any (·.1 = 28) = true
      ∧ (∃ l, rowAccess (.mcHiRead 32) = some (32, l)) ∧ (having []).dev.house.boot < 2
      ∧ ¬(having [(F.HOUSE_STATE_STATE, 0, 4)]).up := by
  refine ⟨⟨_, rfl⟩, ?_, by decide, by decide, by decide, by decide, ⟨_, rfl⟩, by decide, ?_⟩ <;> unfold State.up <;> decide

/-- The hypotheses of QueueStep and of ResetState. -/
theorem hypotheses_ResetState :
    State.reset.pending = [] ∧ (RegMap.lookup 0x35088).isSome = true ∧ RegMap.lookup 0x21416 = none := by decide

/-- The hypotheses of EveryStep, at a step that runs a command and at one that idles. -/
theorem hypotheses_EveryStep :
    State.reset.secWf = true ∧ (∃ t, step State.reset = .next t)
      ∧ ∃ t, step { State.reset with pending := [.registerWrite 28 0x21416 { word := 5 }] } = .next t := by
  refine ⟨by decide, ⟨_, rfl⟩, ⟨_, rfl⟩⟩

end Sys2Proof.Machine.Tests
end

section
/-!
PROOFS. Register words by their fields: the bits of a word with a field put into it, a word packed from its fields (R8, R9),
and what of the map's tables is true of every one of them.
-/
namespace Sys2Proof.Machine

/-! ## The bits of a word with a field put into it -/

/-- The bits of the field are those of the value, every other bit is the word's. -/
theorem Fld.getLsbD_put {f : Fld} (h : f.ok) (v : W24) (x i : Nat) :
    (f.put v x).getLsbD i = if f.lo ≤ i ∧ i ≤ f.hi then x.testBit (i - f.lo) else v.getLsbD i := by
  have hlo := h.1
  have hhi := h.2
  have hS : 2 ^ f.lo * f.size = 2 ^ (f.hi + 1) := by
    rw [Fld.size, ← Nat.pow_add, show f.lo + (f.hi + 1 - f.lo) = f.hi + 1 by omega]
  have e : (f.put v x).toNat
      = 2 ^ f.lo * (f.size * (v.toNat / 2 ^ (f.hi + 1)) + x % f.size) + v.toNat % 2 ^ f.lo := by
    rw [Fld.put_toNat h, hS, Nat.mul_add, ← Nat.mul_assoc, hS, Nat.mul_comm (x % f.size), Nat.mul_comm (2 ^ (f.hi + 1))]
  rw [← BitVec.testBit_toNat, ← BitVec.testBit_toNat, e,
    Nat.testBit_two_pow_mul_add _ (Nat.mod_lt _ (Nat.two_pow_pos _))]
  by_cases h1 : i < f.lo
  · rw [if_pos h1, if_neg (by omega), Nat.testBit_mod_two_pow, decide_eq_true h1, Bool.true_and]
  · rw [if_neg h1, Fld.size, Nat.testBit_two_pow_mul_add _ (Nat.mod_lt _ (Nat.two_pow_pos _)),
      Nat.testBit_mod_two_pow, Nat.testBit_div_two_pow]
    by_cases h2 : i ≤ f.hi
    · rw [if_pos (by omega), if_pos ⟨by omega, h2⟩, decide_eq_true (by omega), Bool.true_and]
    · rw [if_neg (by omega), if_neg (by omega)]
      congr 1; omega

/-- A word is its bits. -/
theorem word_ext {v w : W24} (h : ∀ i < 24, v.getLsbD i = w.getLsbD i) : v = w :=
  BitVec.eq_of_getLsbD_eq fun i hi => h i hi

/-- Of two values put into one field the second stays. -/
theorem Fld.put_put_same {f : Fld} (h : f.ok) (v : W24) (x y : Nat) : f.put (f.put v x) y = f.put v y :=
  word_ext fun i _ => by simp only [Fld.getLsbD_put h]; split <;> rfl

/-- Fields that share no bit are put in either order. -/
theorem Fld.put_comm {f g : Fld} (hf : f.ok) (hg : g.ok) (hd : g.hi < f.lo ∨ f.hi < g.lo) (v : W24) (x y : Nat) :
    f.put (g.put v y) x = g.put (f.put v x) y :=
  word_ext fun i _ => by
    simp only [Fld.getLsbD_put hf, Fld.getLsbD_put hg]
    split
    · rw [if_neg (by omega)]
    · rfl

/-- What a field holds, put back into it, leaves the word. -/
theorem Fld.put_of {f : Fld} (h : f.ok) (v : W24) : f.put v (f.of v) = v :=
  word_ext fun i _ => by
    rw [Fld.getLsbD_put h]
    split
    · next hi =>
      rw [Fld.of, bits, Nat.testBit_mod_two_pow, decide_eq_true (by omega), Bool.true_and, Nat.testBit_shiftRight,
        BitVec.testBit_toNat, Nat.add_sub_cancel' hi.1]
    · rfl

/-! ## A word packed from its fields -/

/-- The place of a table's field in the register at `a`. -/
def FieldRow.at_ (f : FieldRow) (a : Nat) : Fld := { base := a, stride := 0, hi := f.hi, lo := f.lo }

/-- Two fields that share no bit. -/
abbrev FieldRow.apart (f g : FieldRow) : Prop := g.hi < f.lo ∨ f.hi < g.lo

/-- A table in order: its fields lie in a word, share no bit, and have reset values that fit. -/
def RegRow.ordered (r : RegRow) : Bool :=
  r.fields.all (fun f => decide (f.lo ≤ f.hi) && decide (f.hi < 24) && decide (f.rst < 2 ^ (f.hi + 1 - f.lo)))
    && decide (r.fields.Pairwise FieldRow.apart)

/-- The word whose fields hold the values `x`, with the bits of `v` elsewhere. -/
def putAll (a : Nat) (x : FieldRow → Nat) (l : List FieldRow) (v : W24) : W24 :=
  l.foldl (fun v f => (f.at_ a).put v (x f)) v

theorem putAll_cons (a : Nat) (x : FieldRow → Nat) (f : FieldRow) (l : List FieldRow) (v : W24) :
    putAll a x (f :: l) v = putAll a x l ((f.at_ a).put v (x f)) := rfl

/-- A field apart from all of a list is left by it. -/
theorem of_putAll_apart {a : Nat} {x : FieldRow → Nat} {g : FieldRow} (hg : (g.at_ a).ok) :
    ∀ {l : List FieldRow} {v : W24}, (∀ f ∈ l, (f.at_ a).ok ∧ f.apart g) →
      (g.at_ a).of (putAll a x l v) = (g.at_ a).of v
  | [], _, _ => rfl
  | f :: l, v, h => by
    obtain ⟨hf, hd⟩ := h f (by simp)
    rw [putAll_cons, of_putAll_apart hg fun e he => h e (by simp [he]), Fld.of_put_other hf hg _ _ hd]

/-- Each field of a packed word holds its value. -/
theorem of_putAll {a : Nat} {x : FieldRow → Nat} {g : FieldRow} :
    ∀ {l : List FieldRow} {v : W24}, l.Pairwise FieldRow.apart → (∀ f ∈ l, (f.at_ a).ok) → g ∈ l →
      (g.at_ a).of (putAll a x l v) = x g % (g.at_ a).size
  | f :: l, v, hp, hok, hg => by
    obtain ⟨hf, hl⟩ := List.pairwise_cons.1 hp
    rw [putAll_cons]
    rcases List.mem_cons.1 hg with rfl | hg
    · have ho : ∀ e ∈ l, (e.at_ a).ok ∧ e.apart g := fun e he => ⟨hok e (by simp [he]), (hf e he).symm⟩
      rw [of_putAll_apart (hok g (by simp)) ho, Fld.of_put_same (hok g (by simp))]
    · exact of_putAll hl (fun e he => hok e (by simp [he])) hg

/-- Adding a value at a field that holds 0 puts it there. -/
theorem Fld.add_eq_put {f : Fld} {v : W24} {x : Nat} (h0 : f.of v = 0) (hx : x < f.size) :
    v + w24 (x * 2 ^ f.lo) = f.put v x := by
  unfold Fld.put
  rw [h0, Nat.zero_mul, Nat.sub_zero, Nat.mod_eq_of_lt hx, w24, w24, BitVec.ofNat_add, BitVec.ofNat_toNat,
    BitVec.setWidth_eq]

/-- Summing the values of fields at their places packs them. -/
theorem sum_eq_putAll (a : Nat) {x : FieldRow → Nat} :
    ∀ {l : List FieldRow} {n : Nat}, l.Pairwise FieldRow.apart → (∀ f ∈ l, (f.at_ a).ok ∧ x f < (f.at_ a).size) →
      (∀ f ∈ l, (f.at_ a).of (w24 n) = 0) →
      w24 (l.foldl (fun n f => n + x f * 2 ^ f.lo) n) = putAll a x l (w24 n)
  | [], _, _, _, _ => rfl
  | f :: l, n, hp, hx, h0 => by
    obtain ⟨hf, hl⟩ := List.pairwise_cons.1 hp
    have e : w24 (n + x f * 2 ^ f.lo) = (f.at_ a).put (w24 n) (x f) := by
      rw [w24, BitVec.ofNat_add]; exact Fld.add_eq_put (h0 f (by simp)) (hx f (by simp)).2
    rw [List.foldl_cons, putAll_cons, ← e]
    refine sum_eq_putAll a hl (fun g hg => hx g (by simp [hg])) fun g hg => ?_
    rw [e, Fld.of_put_other (hx f (by simp)).1 (hx g (by simp [hg])).1 _ _ (hf g hg)]
    exact h0 g (by simp [hg])

/-! ## The tables of the map -/

theorem lookupIn_mem {r : RegRow} {a : Nat} : ∀ {l : List RegRow}, RegMap.lookupIn l a = some r → r ∈ l
  | e :: l, h => by
    unfold RegMap.lookupIn at h
    split at h
    · cases h; simp
    · exact List.mem_cons_of_mem _ (lookupIn_mem h)

/-- What is looked for in a part of the map is looked for in the map. -/
theorem partOf_subset (a : Nat) : RegMap.partOf a ⊆ RegMap.rows := by
  unfold RegMap.partOf RegMap.rows
  repeat' split
  all_goals intro r hr; simp only [List.mem_append, hr, true_or, or_true]

theorem lookup_mem {a : Nat} {r : RegRow} (h : RegMap.lookup a = some r) : r ∈ RegMap.rows :=
  partOf_subset a (lookupIn_mem h)

theorem rows_ordered : RegMap.rows.all RegRow.ordered = true := by decide +kernel

/-- Every table of the map is in order. -/
theorem lookup_ordered {a : Nat} {r : RegRow} (h : RegMap.lookup a = some r) :
    (∀ f ∈ r.fields, (f.at_ a).ok ∧ f.rst < (f.at_ a).size) ∧ r.fields.Pairwise FieldRow.apart := by
  have := List.all_eq_true.1 rows_ordered r (lookup_mem h)
  unfold RegRow.ordered at this
  rw [Bool.and_eq_true, List.all_eq_true, decide_eq_true_eq] at this
  refine ⟨fun f hf => ?_, this.2⟩
  have e := this.1 f hf
  simp only [Bool.and_eq_true, decide_eq_true_eq] at e
  exact ⟨e.1, e.2⟩

/-- The reset word of a register is packed from the reset values of its fields (R8). -/
theorem rstOf_eq {a : Nat} {r : RegRow} (h : RegMap.lookup a = some r) :
    rstOf a = putAll a FieldRow.rst r.fields 0 := by
  obtain ⟨hf, hp⟩ := lookup_ordered h
  unfold rstOf
  rw [h]
  exact sum_eq_putAll a hp hf fun f _ => by simp [Fld.of, bits]

/-- A field of a reset word holds its reset value (R8). -/
theorem of_rstOf {a : Nat} {r : RegRow} {f : FieldRow} (h : RegMap.lookup a = some r) (hf : f ∈ r.fields) :
    (f.at_ a).of (rstOf a) = f.rst := by
  obtain ⟨hok, hp⟩ := lookup_ordered h
  rw [rstOf_eq h, of_putAll hp (fun g hg => (hok g hg).1) hf, Nat.mod_eq_of_lt (hok f hf).2]

/-! ## The state right after reset -/

/-- Settles O60: nothing is listed in any table, so every register reads its reset word, and that is packed from the
reset values of its fields. -/
theorem resetState : Obligations.ResetState := by
  refine ⟨rfl, rfl, rfl, rfl, fun a r h f hf => ?_, fun a h => ?_, fun c => ?_, ?_, ?_⟩
  · exact ⟨of_rstOf h hf, of_rstOf h hf⟩
  · change rstOf a = 0
    unfold rstOf
    rw [h]
  · have x0 : ∀ r, Core.x {} r = 0 := fun r => ite_self _
    exact ⟨x0, rfl, rfl, rfl, rfl, rfl, rfl, rfl, rfl, rfl, rfl, rfl, rfl⟩
  · decide
  · decide

end Sys2Proof.Machine
end

section
/-!
PROOFS. What a write row leaves: the fields of registers it sets, the rest of the device, and nothing else (R10).
-/
namespace Sys2Proof.Machine

/-! ## Fields set one after another -/

/-- The fields of a list set in turn: each names its field, which of them it is, and its value. -/
def setAll (l : List (Fld × Nat × Nat)) (d : Dev) : Dev := l.foldl (fun d x => setf d x.1 x.2.1 x.2.2) d

theorem setAll_append (l m : List (Fld × Nat × Nat)) (d : Dev) : setAll (l ++ m) d = setAll m (setAll l d) :=
  List.foldl_append ..

/-- The register word at an address after one field is set. -/
theorem rd_setf (d : Dev) (f : Fld) (i x a : Nat) :
    rd (setf d f i x) a = if f.addr i = a then f.put (rd d a) x else rd d a := by
  split
  · next h => subst h; exact rd_setf_same d f i x
  · next h => exact rd_setf_other d f i x (Ne.symm h)

/-- Fields set in turn get their values, and no other bit of any register changes. -/
theorem regsBecome_setAll : ∀ (l : List (Fld × Nat × Nat)) (d : Dev), RegsBecome l d (setAll l d)
  | [], _, _ => rfl
  | x :: l, d, a => by
    have h := regsBecome_setAll l (setf d x.1 x.2.1 x.2.2) a
    rw [rd_setf] at h
    exact h

/-- Setting fields reaches the registers alone. -/
theorem setAll_eq : ∀ (l : List (Fld × Nat × Nat)) (d : Dev), setAll l d = { d with ctl := (setAll l d).ctl }
  | [], _ => rfl
  | x :: l, d => setAll_eq l (setf d x.1 x.2.1 x.2.2)

/-- A whole register word, as a field. -/
abbrev wholeWord (a : Nat) : Fld := { base := a, stride := 0, hi := 23, lo := 0 }

/-- A whole word put is the value. -/
theorem wholeWord_put (a : Nat) (v : W24) (x : Nat) : (wholeWord a).put v x = w24 x :=
  word_ext fun i hi => by
    rw [Fld.getLsbD_put ⟨Nat.zero_le _, (by decide : 23 < 24)⟩, if_pos ⟨Nat.zero_le _, Nat.le_of_lt_succ hi⟩, w24,
      BitVec.getLsbD_ofNat, decide_eq_true hi, Bool.true_and, Nat.sub_zero]

/-- A register word written whole. -/
theorem wr_eq_setf (d : Dev) (a x : Nat) : wr d a (w24 x) = setf d (wholeWord a) 0 x := by
  unfold setf
  rw [wholeWord_put]
  rfl

/-! ## Rows that write a register -/

/-- A row that is one update of the device leaves what that update leaves. -/
theorem does_onDev {i : Instr} {s : State} {f : Dev → Dev} {base e : Dev} {l : List (Fld × Nat × Nat)}
    {rest : Dev → Dev} (he : exec i s = .next (s.onDev f)) (hf : f s.dev = setAll l e) (hr : e = rest base) (hc : e.ctl = base.ctl) :
    Does i s base l rest := by
  refine ⟨_, he, ?_, ?_, rfl, rfl⟩
  · intro b
    rw [State.onDev_dev, hf, regsBecome_setAll l e b, rd_of_ctl hc]
  · rw [State.onDev_dev, hf, ← hr, ← hc]
    exact congrArg (fun x : Dev => { x with ctl := e.ctl }) (setAll_eq l e)

/-- A row that writes a register, its next access taking effect, leaves what its writer leaves. -/
theorem does_write {i : Instr} {s : State} {w : BitVec 6} {a : Nat} {v : W24} {f : Dev → Dev} {base e : Dev}
    {l : List (Fld × Nat × Nat)} {rest : Dev → Dev} (ht : s.takes w) (he : exec i s = .next (s.write w a v f))
    (hf : f s.dev = setAll l e) (hr : e = rest base) (hc : e.ctl = base.ctl) : Does i s base l rest :=
  have ⟨hh, ho, hi⟩ := ht
  does_onDev (he.trans (congrArg _ (State.write_run a v f hh ho hi))) hf hr hc

/-- As `does_write`, for a row that changes registers alone. -/
theorem does_writeRegs {i : Instr} {s : State} {w : BitVec 6} {a : Nat} {v : W24} {f : Dev → Dev} {base : Dev}
    {l : List (Fld × Nat × Nat)} (ht : s.takes w) (he : exec i s = .next (s.write w a v f))
    (hf : f s.dev = setAll l base) : Does i s base l id :=
  does_write ht he hf rfl rfl

/-- A row that clears where its bit is 1. -/
theorem does_clear {i : Instr} {s : State} {w : BitVec 6} {a : Nat} {v : W24} {f : Dev → Dev} {base : Dev} {n : Nat}
    {l : List (Fld × Nat × Nat)} (ht : s.takes w) (he : exec i s = .next (s.write w a v f))
    (hf : f s.dev = if n = 1 then setAll l base else base) : Does i s base (if n = 1 then l else []) id :=
  does_writeRegs ht he (by rw [hf]; split <;> rfl)

end Sys2Proof.Machine
end

section
/-!
PROOFS. The writes that clear a counter or a record (R10, R43, R129, R164, R173, R237, R299, R416).
-/
namespace Sys2Proof.Machine

/-! ## What the writers clear beside the field types -/

/-- A field of one bit is 0 or 1. -/
theorem Fld.of_bit {f : Fld} (h : f.hi = f.lo) (v : W24) : f.of v = 0 ∨ f.of v = 1 := by
  have := f.of_lt v
  rw [Fld.size, h, Nat.add_sub_cancel_left] at this
  omega

/-- A register word cleared whole. -/
theorem wr_zero (d : Dev) (a : Nat) : wr d a 0 = setf d (wholeWord a) 0 0 := wr_eq_setf d a 0

/-- A field of each register of a list set in turn. -/
theorem setAll_map (g : Nat → Fld × Nat × Nat) (l : List Nat) (d : Dev) :
    setAll (l.map g) d = forAll l (fun d i => setf d (g i).1 (g i).2.1 (g i).2.2) d := List.foldl_map

theorem writeUndPc_eq (w : BitVec 6) (n : Nat) (v : W24) (d : Dev) :
    writeUndPc w n v d =
      if F.SE_UND_PC_CLR.of v = 1 then
        setAll [(wholeWord (F.SE_UND_PC_CLR.addr n), 0, 0)] (regWrite d w.toNat (F.SE_UND_PC_CLR.addr n) v)
      else regWrite d w.toNat (F.SE_UND_PC_CLR.addr n) v := by
  unfold writeUndPc; simp only [wr_zero]; rfl

theorem writeMmlog_eq (w : BitVec 6) (v : W24) (d : Dev) :
    writeMmlog w v d =
      if F.SU_MMLOG_CLR.of v = 1 then setAll [(wholeWord A.SU_MMLOG, 0, 0)] (regWrite d w.toNat A.SU_MMLOG v)
      else regWrite d w.toNat A.SU_MMLOG v := by
  unfold writeMmlog; simp only [wr_zero]; rfl

theorem writeUeLog_eq (w : BitVec 6) (v : W24) (d : Dev) :
    writeUeLog w v d =
      if F.MKT_UE_LOG1_CLR.of v = 1 then
        setAll [(wholeWord A.MKT_UE_LOG0, 0, 0), (wholeWord A.MKT_UE_LOG1, 0, 0)] (regWrite d w.toNat A.MKT_UE_LOG1 v)
      else regWrite d w.toNat A.MKT_UE_LOG1 v := by
  unfold writeUeLog; simp only [wr_zero]; rfl

theorem writeCntclrPort_eq (w : BitVec 6) (n : Nat) (v : W24) (d : Dev) :
    writeCntclrPort w n v d =
      if F.PORT_CNTCLR_CLR.of v = 1 then
        setAll ((List.range 11).map fun i => (wholeWord (F.PORT_RXFRAMES_COUNT.addr n + i), 0, 0))
          (regWrite d w.toNat (F.PORT_CNTCLR_CLR.addr n) v)
      else regWrite d w.toNat (F.PORT_CNTCLR_CLR.addr n) v := by
  unfold writeCntclrPort; rw [setAll_map]; simp only [wr_zero]

/-- An engine position's clash counter, or a prompter's (R129). -/
theorem writeClash_eq (w : BitVec 6) (p : Fin 18) (v : W24) (d : Dev) :
    writeClash w p.val v d =
      let clr := if p.val < 16 then F.SE_DUET_CLASH_CLR else F.PC_DUET_CLASH_CLR
      if clr.of v = 1 then
        setAll [(if p.val < 16 then F.SE_DUET_CLASH_COUNT else F.PC_DUET_CLASH_COUNT, p.val % 16, 0)]
          (regWrite d w.toNat (clr.addr (p.val % 16)) v)
      else regWrite d w.toNat (clr.addr (p.val % 16)) v := by
  unfold writeClash
  by_cases h : p.val < 16
  · simp only [if_pos h, Nat.mod_eq_of_lt h]; rfl
  · rw [show p.val % 16 = p.val - 16 by omega]
    simp only [if_neg h]; rfl

/-- An engine position's pocket error counters, or the understudy's (R173). -/
theorem writePktEcc_eq (w : BitVec 6) (q : Fin 17) (v : W24) (d : Dev) :
    writePktEcc w q.val v d =
      let clr := if q.val < 16 then F.SE_PKT_ECC_CLR else F.SU_PKT_ECC_CLR
      if clr.of v = 1 then
        setAll (if q.val < 16 then [(F.SE_PKT_ECC_UECNT, q.val, 0), (F.SE_PKT_ECC_CECNT, q.val, 0)]
          else [(F.SU_PKT_ECC_UECNT, 0, 0), (F.SU_PKT_ECC_CECNT, 0, 0)])
          (regWrite d w.toNat (clr.addr (q.val % 16)) v)
      else regWrite d w.toNat (clr.addr (q.val % 16)) v := by
  unfold writePktEcc
  by_cases h : q.val < 16
  · simp only [if_pos h, Nat.mod_eq_of_lt h]; rfl
  · rw [show q.val % 16 = 0 by omega]
    simp only [if_neg h]; rfl

/-- The counters of the stream that the write names (R311). -/
theorem writeStrmClr_eq (w : BitVec 6) (v : W24) (d : Dev) :
    writeStrmClr w v d =
      if F.STRM_CLR_GO.of v = 1 then
        setAll (if F.STRM_CLR_TX.of v = 1 then [(F.TXS_SLIP_SLIP, F.STRM_CLR_STREAM.of v, 0)]
          else [(F.RXS_MISS_MISS, F.STRM_CLR_STREAM.of v, 0),
            (wholeWord (F.RXS_LEGA_GAP.addr (F.STRM_CLR_STREAM.of v)), 0, 0),
            (wholeWord (F.RXS_LEGB_GAP.addr (F.STRM_CLR_STREAM.of v)), 0, 0)]) (regWrite d w.toNat A.STRM_CLR v)
      else regWrite d w.toNat A.STRM_CLR v := by
  unfold writeStrmClr
  rcases Fld.of_bit (f := F.STRM_CLR_GO) rfl v with h | h
  · simp only [h, if_true, Nat.zero_ne_one, if_false]
  · simp only [h, Nat.one_ne_zero, if_false, if_true]
    rw [wr_zero, wr_zero]
    split <;> rfl

/-- CNTCLR.ALL clears every code's count (R416). -/
theorem writeCntclr_all (w : BitVec 6) {v : W24} (d : Dev) (ha : F.LEDG_CNTCLR_ALL.of v = 1)
    (hs : F.LEDG_CNTCLR_STATCLR.of v = 0) :
    writeCntclr w v d
      = setAll ((List.range 256).map fun c => (F.LEDG_CNT_COUNT, c, 0)) (regWrite d w.toNat A.LEDG_CNTCLR v) := by
  unfold writeCntclr
  rw [setAll_map]
  simp [ha, hs]

/-- CNTCLR.STATCLR clears the ledger's status counters (R416). -/
theorem writeCntclr_stat (w : BitVec 6) {v : W24} (d : Dev) (ha : F.LEDG_CNTCLR_ALL.of v = 0)
    (hs : F.LEDG_CNTCLR_STATCLR.of v = 1) :
    writeCntclr w v d
      = setAll [(wholeWord A.LEDG_DROPS, 0, 0), (wholeWord A.LEDG_OVWR, 0, 0), (wholeWord A.LEDG_SUPP, 0, 0),
          (wholeWord A.LEDG_PSTAT, 0, 0)] (regWrite d w.toNat A.LEDG_CNTCLR v) := by
  unfold writeCntclr
  simp only [wr_zero]
  simp [ha, hs, setAll]

/-- A write of CNTCLR with neither clears the count of the code it names (R416). -/
theorem writeCntclr_code (w : BitVec 6) {v : W24} (d : Dev) (ha : F.LEDG_CNTCLR_ALL.of v = 0)
    (hs : F.LEDG_CNTCLR_STATCLR.of v = 0) :
    writeCntclr w v d
      = setAll [(F.LEDG_CNT_COUNT, F.LEDG_CNTCLR_CODE.of v, 0)] (regWrite d w.toNat A.LEDG_CNTCLR v) := by
  unfold writeCntclr
  simp [ha, hs, setAll]

/-! ## The rows -/

/-- REOPEN ends the curtain cause at the next edge, and CLR clears the count (R43). -/
theorem does_ovrStat {i : Instr} {s : State} {w : BitVec 6} {n : Fin 16} {v : W24} (ht : s.takes w)
    (he : exec i s = .next (s.write w (F.SE_OVR_STAT_CLR.addr n) v (writeOvrStat w n.val v))) :
    Does i s (regWrite s.dev w.toNat (F.SE_OVR_STAT_CLR.addr n) v)
      (if F.SE_OVR_STAT_CLR.of v = 1 then [(F.SE_OVR_STAT_COUNT, n.val, 0)] else [])
      fun d =>
        if F.SE_OVR_STAT_REOPEN.of v = 1 then
          { d with ovr := Tab.set {} d.ovr n { (Tab.get {} d.ovr n : Overrun) with reopen := true } }
        else d := by
  refine does_write ht he ?_ rfl ?_
  · unfold writeOvrStat
    split <;> split <;> rfl
  · split <;> rfl

/-- Settles O21: each writer sets the fields it clears in turn, after the write by field types. -/
theorem clearRows : Obligations.ClearRows := by
  unfold Obligations.ClearRows
  intro s w v n p q k u x r m t ht
  refine ⟨?_, does_clear ht rfl (writeClash_eq w p v _), does_clear ht rfl (writeUndPc_eq w n v _), does_clear ht rfl rfl,
    does_clear ht rfl (writePktEcc_eq w q v _), does_clear ht rfl (writeMmlog_eq w v _), does_clear ht rfl rfl,
    does_clear ht rfl (writeUeLog_eq w v _), does_clear ht rfl rfl, does_clear ht rfl rfl, does_clear ht rfl rfl,
    does_clear ht rfl rfl, does_clear ht rfl rfl, does_clear ht rfl (writeCntclrPort_eq w x v _), does_clear ht rfl rfl,
    does_clear ht rfl (writeStrmClr_eq w v _), does_clear ht rfl rfl, does_clear ht rfl rfl, does_clear ht rfl rfl,
    does_clear ht rfl rfl, does_clear ht rfl rfl, does_clear ht rfl rfl, fun hs ha => ?_, fun ha hs => ?_, fun ha hs => ?_⟩
  · intro i hi
    simp only [List.mem_cons, List.not_mem_nil, or_false] at hi
    rcases hi with rfl | rfl <;> exact does_ovrStat ht rfl
  · exact does_writeRegs ht rfl ((writeCntclr_all w _ ha hs).trans (by rw [if_pos ha]; rfl))
  · exact does_writeRegs ht rfl ((writeCntclr_stat w _ ha hs).trans (by rw [if_pos hs]; rfl))
  · exact does_writeRegs ht rfl (writeCntclr_code w _ ha hs)

end Sys2Proof.Machine
end

section
/-!
PROOFS. The understudy's commands and registers (R259 to R271), and a field of a register after a write by types (R10).
-/
namespace Sys2Proof.Machine

/-! ## A field after a write by field types -/

/-- What a field of a table holds after the fields of one kind, RWC or not, are written. -/
def fieldAfter (rwc : Bool) (cur v : W24) (f : FieldRow) : Nat :=
  if (f.ty == .rwc) == rwc then (fieldWrite f cur v).1 else bits cur.toNat f.hi f.lo

theorem fieldAfter_lt (rwc : Bool) (cur v : W24) (f : FieldRow) : fieldAfter rwc cur v f < 2 ^ (f.hi + 1 - f.lo) := by
  have hb : ∀ n, bits n f.hi f.lo < 2 ^ (f.hi + 1 - f.lo) := fun n => Nat.mod_lt _ (Nat.two_pow_pos _)
  unfold fieldAfter
  split
  · unfold fieldWrite
    cases f.ty <;> dsimp only
    case ro | wo => exact hb _
    case w1c => exact Nat.lt_of_le_of_lt Nat.and_le_left (hb _)
    case rw | rwc | rws => split <;> exact hb _
  · exact hb _

/-- A fold over pairs whose first part goes its own way. -/
theorem foldl_fst {α β γ : Type} {g : α × β → γ → α × β} {h : α → γ → α} (e : ∀ s c, (g s c).1 = h s.1 c) :
    ∀ (l : List γ) (s : α × β), (l.foldl g s).1 = l.foldl h s.1
  | [], _ => rfl
  | c :: l, s => by rw [List.foldl_cons, List.foldl_cons, foldl_fst e l, e]

/-- A register write packs the word of what each field holds after it. -/
theorem wordWrite_word (r : RegRow) (rwc : Bool) (cur v : W24) :
    (wordWrite r rwc cur v).1 = w24 (r.fields.foldl (fun n f => n + fieldAfter rwc cur v f * 2 ^ f.lo) 0) := by
  refine congrArg w24 (foldl_fst (fun s f => ?_) r.fields (0, false))
  unfold fieldAfter
  dsimp only
  split <;> rfl

/-- A field of a register after a write of the register. -/
theorem of_regWrite_same (d : Dev) (w : Nat) {a : Nat} (v : W24) {r : RegRow} {f : FieldRow}
    (h : RegMap.lookup a = some r) (hf : f ∈ r.fields) :
    (f.at_ a).of (rd (regWrite d w a v) a) = fieldAfter false (rd d a) v f := by
  obtain ⟨hok, hp⟩ := lookup_ordered h
  rw [rd_regWrite_same d w a v h, wordWrite_word,
    sum_eq_putAll a hp (fun f hf => ⟨(hok f hf).1, fieldAfter_lt ..⟩) (fun f _ => by simp [Fld.of, bits]),
    of_putAll hp (fun g hg => (hok g hg).1) hf]
  exact Nat.mod_eq_of_lt (fieldAfter_lt ..)

/-! ## SU.CTRL after a write -/

/-- The table of SU.CTRL. -/
abbrev suCtrlRow : RegRow := ⟨0x024000, 1, 1, [⟨23, 23, .rw, 1, []⟩, ⟨22, 21, .ro, 1, []⟩]⟩

theorem lookup_suCtrl : RegMap.lookup A.SU_CTRL = some suCtrlRow := by decide +kernel

theorem enable_regWrite (d : Dev) (w : Nat) (v : W24) :
    fld (regWrite d w A.SU_CTRL v) F.SU_CTRL_ENABLE 0 = F.SU_CTRL_ENABLE.of v :=
  of_regWrite_same d w v (f := ⟨23, 23, .rw, 1, []⟩) lookup_suCtrl (by decide)

theorem status_regWrite (d : Dev) (w : Nat) (v : W24) :
    fld (regWrite d w A.SU_CTRL v) F.SU_CTRL_STATUS 0 = fld d F.SU_CTRL_STATUS 0 :=
  of_regWrite_same d w v (f := ⟨22, 21, .ro, 1, []⟩) lookup_suCtrl (by decide)

/-! ## The understudy's words -/

/-- The core of SU stops. -/
abbrev suIdle (d : Dev) : Dev := updCore d 16 fun k => { k with run := .off }

/-- The record of a judgement with outcome `x`: the signature kept, the result and the count of tests. -/
def judged (d : Dev) (x : Nat) : Dev :=
  let d := wr d A.SU_KAT_LAST (core d 16).crc
  setf (setf d F.SU_STAT_KATRES 0 x) F.SU_STAT_KATRUNS 0 (fld d F.SU_STAT_KATRUNS 0 + 1)

theorem judged_eq (d : Dev) (x : Nat) : judged d x = { d with ctl := (judged d x).ctl } := rfl

/-- The fields that a judgement with outcome `x` sets. -/
def judgedFields (d : Dev) (x : Nat) : List (Fld × Nat × Nat) :=
  [(wholeWord A.SU_KAT_LAST, 0, (core d 16).crc.toNat), (F.SU_STAT_KATRES, 0, x),
    (F.SU_STAT_KATRUNS, 0, fld d F.SU_STAT_KATRUNS 0 + 1), (F.SU_STAT_MODE, 0, 0)]

/-- The count that a judgement raises is the one before it. -/
theorem setAll_judged (d : Dev) (x : Nat) :
    setAll (judgedFields d x) d = setf (judged d x) F.SU_STAT_MODE 0 0 := by
  have hw : w24 (core d 16).crc.toNat = (core d 16).crc := BitVec.ofNat_toNat .. |>.trans (BitVec.setWidth_eq ..)
  have hk := fld_wr_reg d F.SU_STAT_KATRUNS A.SU_KAT_LAST 0 (core d 16).crc (by decide)
  simp only [judged, hk, judgedFields, setAll, List.foldl_cons, List.foldl_nil, ← wr_eq_setf, hw]

/-- Fields are set alike on devices of the same registers. -/
theorem setAll_of_ctl {d e : Dev} (h : e.ctl = d.ctl) (l : List (Fld × Nat × Nat)) :
    setAll l e = { e with ctl := (setAll l d).ctl } := by
  induction l generalizing d e with
  | nil => rw [show (setAll [] d).ctl = e.ctl from h.symm]; rfl
  | cons x l ih =>
    have hx : (setf e x.1 x.2.1 x.2.2).ctl = (setf d x.1 x.2.1 x.2.2).ctl := by
      unfold setf wr; rw [rd_of_ctl h, h]
    exact ih hx

/-- The understudy's notes after a judgement with outcome `x`. -/
def Su.judged (su : Su) (x : Nat) : Su :=
  let why := su.katNow
  let su := { su with katNow := 0 }
  if x = 1 then
    if why = 1 || why = 4 then { su with retest := su.first.map (·.1) } else su
  else if x = 3 && (why = 1 || why = 2) then { su with kat := why + 3 }
  else { su with first := none, retest := none, kat := 0, fail := some x }

theorem updCore_su (d : Dev) (c : Nat) (f : Core → Core) : (updCore d c f).su = d.su := rfl

/-- A judgement: the record, SU's core stopped and idle, and what follows noted. -/
theorem judgeKat_cases (d : Dev) (x : Nat) :
    judgeKat d x = { setf (suIdle (judged d x)) F.SU_STAT_MODE 0 0 with su := d.su.judged x } := by
  unfold judgeKat Su.judged judged
  dsimp only
  rw [setf_su, updCore_su, setf_su, setf_su, wr_su]
  generalize setf (updCore _ _ _) _ _ _ = e
  split
  · split <;> rfl
  · split <;> rfl

theorem judgeKat_eq (d : Dev) (x : Nat) :
    judgeKat d x = setAll (judgedFields d x) { suIdle d with su := d.su.judged x } := by
  rw [setAll_of_ctl (e := { suIdle d with su := d.su.judged x }) (d := d) (by rfl) (judgedFields d x), setAll_judged,
    judgeKat_cases, judged_eq]
  generalize (judged d x).ctl = c
  rfl

/-! ## TAKEOVER (R267, R269) -/

/-- The device with other notes of the understudy. -/
def Dev.withSu (d : Dev) (u : Su) : Dev := { d with su := u }

theorem fld_withSu (d : Dev) (u : Su) (f : Fld) (i : Nat) : fld (d.withSu u) f i = fld d f i := fld_of_ctl rfl ..

theorem withSu_su (d : Dev) (u : Su) : (d.withSu u).su = u := rfl

/-- A takeover is in force or due. -/
abbrev suBusy (d : Dev) : Prop :=
  fld d F.SU_STAT_MODE 0 = 4 ∨ d.su.take.isSome = true
    ∨ (d.su.confirmed.isSome = true ∧ fld d F.HOUSE_POLICY_TAKEOVER 0 = 1)

/-- A test or retest is under way or due. -/
abbrev suTesting (d : Dev) : Prop :=
  fld d F.SU_STAT_MODE 0 = 2 ∨ fld d F.SU_STAT_MODE 0 = 3 ∨ d.su.retest.isSome = true ∨ d.su.kat ≠ 0
    ∨ d.su.fail.isSome = true

/-- The answer to TAKEOVER: BUSY, FAULT, OFF, or OK. -/
def takeoverAnswer (d : Dev) : Nat :=
  if suBusy d then 2
  else if fld d F.SU_STAT_MODE 0 = 5 then 3
  else if fld d F.SU_CTRL_STATUS 0 ≠ 1 then 4
  else 1

/-- The understudy's notes with a takeover by engine `n` due. -/
def Su.taking (su : Su) (n : Nat) : Su := { su with take := some (n, false) }

/-- The understudy's notes without what was due or under way of tests. -/
def Su.abandoned (su : Su) : Su := { su with first := none, retest := none, kat := 0, katNow := 0, fail := none }

/-- What an accepted TAKEOVER of engine `n` changes beside registers. -/
def suTaking (d : Dev) (n : Nat) : Dev :=
  if suTesting d then (if fld d F.SU_STAT_MODE 0 = 2 then suIdle d else d).withSu (d.su.taking n).abandoned
  else d.withSu (d.su.taking n)

/-- The fields that an accepted TAKEOVER sets. -/
def takingFields (d : Dev) : List (Fld × Nat × Nat) :=
  (F.SU_CMD_RESULT, 0, 1) :: if suTesting d then [(F.SU_STAT_MODE, 0, 0)] else []

/-- A field of one bit that holds 1 is set. -/
theorem flag_iff {d : Dev} {f : Fld} (h : f.hi = f.lo) (i : Nat) : flag d f i = true ↔ fld d f i = 1 := by
  have := Fld.of_bit h (rd d (f.addr i))
  rw [flag, bne_iff_ne]
  unfold fld
  omega

theorem suBusy_iff (d : Dev) :
    (fld d F.SU_STAT_MODE 0 = 4
        || (d.su.take.isSome || (d.su.confirmed.isSome && flag d F.HOUSE_POLICY_TAKEOVER 0))) = true ↔ suBusy d := by
  simp only [Bool.or_eq_true, Bool.and_eq_true, decide_eq_true_eq, flag_iff (f := F.HOUSE_POLICY_TAKEOVER) rfl]

theorem suTesting_iff (d : Dev) :
    (fld d F.SU_STAT_MODE 0 = 2 || fld d F.SU_STAT_MODE 0 = 3 || d.su.retest.isSome || d.su.kat ≠ 0
        || d.su.fail.isSome) = true ↔ suTesting d := by
  simp only [Bool.or_eq_true, decide_eq_true_eq, or_assoc]

/-- An abandoned test: SU's core stops where the test ran. -/
theorem suAbandon_eq (d : Dev) :
    suAbandon d = (if fld d F.SU_STAT_MODE 0 = 2 then suIdle d else d).withSu d.su.abandoned := by
  by_cases h : fld d F.SU_STAT_MODE 0 = 2
  · rw [if_pos h]; exact if_pos h
  · rw [if_neg h]; exact if_neg h

/-- TAKEOVER by its branches, `e` being the device that has answered OK. -/
theorem takeoverCmd_cases (d : Dev) (n : Nat) :
    takeoverCmd d n =
      let mode := fld d F.SU_STAT_MODE 0
      let e := setf d F.SU_CMD_RESULT 0 1
      let taken := e.withSu (e.su.taking n)
      if mode = 4 || (d.su.take.isSome || (d.su.confirmed.isSome && flag d F.HOUSE_POLICY_TAKEOVER 0)) then
        setf d F.SU_CMD_RESULT 0 2
      else if mode = 5 then setf d F.SU_CMD_RESULT 0 3
      else if fld d F.SU_CTRL_STATUS 0 ≠ 1 then setf d F.SU_CMD_RESULT 0 4
      else if mode = 2 || mode = 3 || e.su.retest.isSome || e.su.kat ≠ 0 || e.su.fail.isSome then
        setf (suAbandon taken) F.SU_STAT_MODE 0 0
      else taken := rfl

theorem setf_withSu (d : Dev) (u : Su) (f : Fld) (i x : Nat) : setf (d.withSu u) f i x = (setf d f i x).withSu u := rfl

theorem setf_suIdle (d : Dev) (f : Fld) (i x : Nat) : setf (suIdle d) f i x = suIdle (setf d f i x) := by
  unfold suIdle updCore; rw [core_setf]; rfl

theorem suIdle_withSu (d : Dev) (u : Su) : suIdle (d.withSu u) = (suIdle d).withSu u := rfl

theorem withSu_self (d : Dev) : d.withSu d.su = d := rfl

theorem withSu_withSu (d : Dev) (u v : Su) : (d.withSu u).withSu v = d.withSu v := rfl

theorem setAll_one (d : Dev) (f : Fld) (i x : Nat) : setAll [(f, i, x)] d = setf d f i x := rfl

theorem setAll_pair (d : Dev) (f g : Fld) (i j x y : Nat) :
    setAll [(f, i, x), (g, j, y)] d = setf (setf d f i x) g j y := rfl

/-- A takeover with a test to drop. -/
theorem suAbandon_taking (d : Dev) (n : Nat) :
    setf (suAbandon ((setf d F.SU_CMD_RESULT 0 1).withSu (d.su.taking n))) F.SU_STAT_MODE 0 0
      = setAll [(F.SU_CMD_RESULT, 0, 1), (F.SU_STAT_MODE, 0, 0)]
        ((if fld d F.SU_STAT_MODE 0 = 2 then suIdle d else d).withSu (d.su.taking n).abandoned) := by
  rw [suAbandon_eq, fld_withSu, withSu_su, fld_setf_reg _ _ _ _ _ _ (by decide)]
  by_cases h : fld d F.SU_STAT_MODE 0 = 2
  · rw [if_pos h, if_pos h, setAll_pair, suIdle_withSu, withSu_withSu]
    iterate 3 rw [setf_withSu]
    iterate 3 rw [setf_suIdle]
  · rw [if_neg h, if_neg h, setAll_pair, withSu_withSu]
    iterate 3 rw [setf_withSu]

theorem takeoverCmd_eq (d : Dev) (n : Nat) :
    takeoverCmd d n
      = if takeoverAnswer d = 1 then setAll (takingFields d) (suTaking d n)
        else setf d F.SU_CMD_RESULT 0 (takeoverAnswer d) := by
  rw [takeoverCmd_cases]
  unfold takeoverAnswer
  dsimp only
  by_cases hb : suBusy d
  · rw [if_pos ((suBusy_iff d).2 hb), if_pos hb, if_neg (by decide)]
  rw [if_neg (mt (suBusy_iff d).1 hb), if_neg hb]
  by_cases hm : fld d F.SU_STAT_MODE 0 = 5
  · rw [if_pos hm, if_pos hm, if_neg (by decide)]
  rw [if_neg hm, if_neg hm]
  by_cases hs : fld d F.SU_CTRL_STATUS 0 ≠ 1
  · rw [if_pos hs, if_pos hs, if_neg (by decide)]
  rw [if_neg hs, if_neg hs, if_pos rfl, setf_su]
  unfold takingFields suTaking
  by_cases ht : suTesting d
  · rw [if_pos ((suTesting_iff d).2 ht), if_pos ht, if_pos ht]
    exact suAbandon_taking d n
  · rw [if_neg (mt (suTesting_iff d).1 ht), if_neg ht, if_neg ht]
    exact (setf_withSu ..).symm

theorem takeoverAnswer_le (d : Dev) : takeoverAnswer d ≤ 4 := by
  unfold takeoverAnswer
  repeat' split
  all_goals decide

/-- TAKEOVER shows its answer. -/
theorem result_takeoverCmd (d : Dev) (n : Nat) : fld (takeoverCmd d n) F.SU_CMD_RESULT 0 = takeoverAnswer d := by
  have hok : F.SU_CMD_RESULT.ok := by decide
  rw [takeoverCmd_eq]
  by_cases h : takeoverAnswer d = 1
  · rw [if_pos h, h]
    unfold takingFields
    by_cases ht : suTesting d
    · rw [if_pos ht, setAll_pair, fld_setf_reg _ _ _ _ _ _ (by decide), fld_setf_same _ hok]
      rfl
    · rw [if_neg ht]
      exact fld_setf_same _ hok 0 1
  · rw [if_neg h, fld_setf_same _ hok]
    exact Nat.mod_eq_of_lt (Nat.lt_of_le_of_lt (takeoverAnswer_le d) (by decide))

/-- What SU.CMD's word is has no part in the answer. -/
theorem takeoverAnswer_regWrite (d : Dev) (w : Nat) (v : W24) :
    takeoverAnswer (regWrite d w A.SU_CMD v) = takeoverAnswer d := by
  unfold takeoverAnswer suBusy
  rw [fld_regWrite_reg _ _ _ _ F.SU_STAT_MODE 0 (by decide), fld_regWrite_reg _ _ _ _ F.SU_CTRL_STATUS 0 (by decide),
    fld_regWrite_reg _ _ _ _ F.HOUSE_POLICY_TAKEOVER 0 (by decide), regWrite_su]

section
variable {w : BitVec 6} {v : W24} {d : Dev}

/-- A write of TAKEOVER alone: ENG is kept where it is refused. -/
theorem writeSuCmd_takeover (ht : F.SU_CMD_TAKEOVER.of v = 1) (hr : ¬F.SU_CMD_RELEASE.of v = 1)
    (hc : ¬F.SU_CMD_CLRFAULT.of v = 1) :
    writeSuCmd w v d = takeoverCmd
      (regWrite d w.toNat A.SU_CMD (if takeoverAnswer d = 1 then v else F.SU_CMD_ENG.put v (fld d F.SU_CMD_ENG 0)))
      (F.SU_CMD_ENG.of v) := by
  unfold writeSuCmd
  rw [result_takeoverCmd]
  simp only [ht, hr, hc, decide_true, decide_false, Bool.true_and, Bool.false_and, Bool.false_eq_true, if_true,
    if_false, Bool.not_eq_true', decide_eq_false_iff_not, ite_not]

/-- A refused TAKEOVER answers why. -/
theorem writeSuCmd_refused (ht : F.SU_CMD_TAKEOVER.of v = 1) (hr : ¬F.SU_CMD_RELEASE.of v = 1)
    (hc : ¬F.SU_CMD_CLRFAULT.of v = 1) (ha : takeoverAnswer d ≠ 1) :
    writeSuCmd w v d = setAll [(F.SU_CMD_RESULT, 0, takeoverAnswer d)]
      (regWrite d w.toNat A.SU_CMD (F.SU_CMD_ENG.put v (fld d F.SU_CMD_ENG 0))) := by
  rw [writeSuCmd_takeover ht hr hc, if_neg ha, takeoverCmd_eq, takeoverAnswer_regWrite, if_neg ha]
  rfl

/-- An accepted TAKEOVER. -/
theorem writeSuCmd_accepted (ht : F.SU_CMD_TAKEOVER.of v = 1) (hr : ¬F.SU_CMD_RELEASE.of v = 1)
    (hc : ¬F.SU_CMD_CLRFAULT.of v = 1) (ha : takeoverAnswer d = 1) :
    writeSuCmd w v d = setAll (takingFields (regWrite d w.toNat A.SU_CMD v))
      (suTaking (regWrite d w.toNat A.SU_CMD v) (F.SU_CMD_ENG.of v)) := by
  rw [writeSuCmd_takeover ht hr hc, if_pos ha, takeoverCmd_eq, takeoverAnswer_regWrite, if_pos ha]

/-- A write of RELEASE alone. -/
theorem writeSuCmd_release (ht : ¬F.SU_CMD_TAKEOVER.of v = 1) (hr : F.SU_CMD_RELEASE.of v = 1)
    (hc : ¬F.SU_CMD_CLRFAULT.of v = 1) :
    writeSuCmd w v d = (regWrite d w.toNat A.SU_CMD v).withSu
      (if fld d F.SU_STAT_MODE 0 = 4 then
        { d.su with release := true, releaseRetest := !d.su.release || d.su.releaseRetest } else d.su) := by
  have hm := fld_regWrite_reg d w.toNat A.SU_CMD v F.SU_STAT_MODE 0 (by decide)
  have hs := regWrite_su d w.toNat A.SU_CMD v
  unfold writeSuCmd
  simp only [ht, hr, hc, decide_true, decide_false, Bool.true_and, Bool.false_and, Bool.false_eq_true, if_false]
  generalize regWrite d w.toNat A.SU_CMD v = e at hm hs ⊢
  rw [← hm, ← hs]
  by_cases h : fld e F.SU_STAT_MODE 0 = 4
  · rw [if_pos h, if_pos (decide_eq_true h)]; rfl
  · rw [if_neg h, if_neg (mt of_decide_eq_true h), withSu_self]

/-- A write of CLRFAULT alone. -/
theorem writeSuCmd_clrFault (ht : ¬F.SU_CMD_TAKEOVER.of v = 1) (hr : ¬F.SU_CMD_RELEASE.of v = 1)
    (hc : F.SU_CMD_CLRFAULT.of v = 1) :
    writeSuCmd w v d = (regWrite d w.toNat A.SU_CMD v).withSu
      (if fld d F.SU_STAT_MODE 0 = 5 then { d.su with clrFault := true } else d.su) := by
  have hm := fld_regWrite_reg d w.toNat A.SU_CMD v F.SU_STAT_MODE 0 (by decide)
  have hs := regWrite_su d w.toNat A.SU_CMD v
  unfold writeSuCmd
  simp only [ht, hr, hc, decide_true, decide_false, Bool.true_and, Bool.false_and, Bool.false_eq_true, if_false]
  generalize regWrite d w.toNat A.SU_CMD v = e at hm hs ⊢
  rw [← hm, ← hs]
  by_cases h : fld e F.SU_STAT_MODE 0 = 5
  · rw [if_pos h, if_pos (decide_eq_true h)]; rfl
  · rw [if_neg h, if_neg (mt of_decide_eq_true h), withSu_self]

end

/-! ## ENABLE (R270) -/

section
variable {w : BitVec 6} {v : W24} {d : Dev}

/-- ENABLE = 1: STATUS is RUN. -/
theorem writeSuCtrl_enabled (he : F.SU_CTRL_ENABLE.of v = 1) :
    writeSuCtrl w v d = setAll [(F.SU_CTRL_STATUS, 0, 1)] (regWrite d w.toNat A.SU_CTRL v) := by
  have hf : flag (regWrite d w.toNat A.SU_CTRL v) F.SU_CTRL_ENABLE 0 = true := by
    rw [flag_iff rfl, enable_regWrite, he]
  unfold writeSuCtrl
  dsimp only
  rw [if_pos hf]
  rfl

theorem flag_of_disabled (he : F.SU_CTRL_ENABLE.of v = 0) :
    ¬flag (regWrite d w.toNat A.SU_CTRL v) F.SU_CTRL_ENABLE 0 = true := by
  rw [flag_iff rfl, enable_regWrite, he]; decide

/-- ENABLE = 0 on a unit that does not run: the fields alone. -/
theorem writeSuCtrl_idle (he : F.SU_CTRL_ENABLE.of v = 0) (hs : fld d F.SU_CTRL_STATUS 0 ≠ 1) :
    writeSuCtrl w v d = regWrite d w.toNat A.SU_CTRL v := by
  unfold writeSuCtrl
  dsimp only
  rw [if_neg (flag_of_disabled he), if_neg (by rw [status_regWrite]; exact hs)]

/-- The understudy's notes when it goes OFF: nothing that was due remains. -/
def Su.off (su : Su) : Su :=
  { su with first := none, retest := none, kat := 0, katNow := 0, confirmed := none, take := none }

/-- The fields set when SU goes OFF, in the order set: FAULT where a test of CLRFAULT was not yet judged. -/
def offFields (su : Su) : List (Fld × Nat × Nat) :=
  if su.kat = 3 ∨ su.katNow = 3 then [(F.SU_STAT_MODE, 0, 5), (F.SU_CTRL_STATUS, 0, 0)]
  else [(F.SU_CTRL_STATUS, 0, 0)]

theorem suRest_iff (d : Dev) : suRest d = 5 ↔ d.su.kat = 3 ∨ d.su.katNow = 3 := by
  unfold suRest; grind

theorem suOff_eq (d : Dev) : suOff d = setAll (offFields d.su) (d.withSu d.su.off) := by
  unfold suOff offFields
  dsimp only
  by_cases h : suRest d = 5
  · rw [if_pos h, if_pos ((suRest_iff d).1 h), setAll_pair, setf_su, setf_su, setf_withSu, setf_withSu]
    rfl
  · rw [if_neg h, if_neg (mt (suRest_iff d).2 h), setf_su]
    exact (setf_withSu ..).symm

/-- No takeover is in force after SU goes OFF where none was. -/
theorem mode_suOff (hm : fld d F.SU_STAT_MODE 0 ≠ 4) : fld (suOff d) F.SU_STAT_MODE 0 ≠ 4 := by
  rw [suOff_eq]
  unfold offFields
  split
  · rw [setAll_pair, fld_setf_reg _ _ _ _ _ _ (by decide), fld_setf_same _ (by decide)]
    decide
  · rw [setAll_one, fld_setf_reg _ _ _ _ _ _ (by decide), fld_withSu]
    exact hm

/-- ENABLE = 0 while ticks run or a takeover is in force: SU drains. -/
theorem writeSuCtrl_drains (he : F.SU_CTRL_ENABLE.of v = 0) (hs : fld d F.SU_CTRL_STATUS 0 = 1)
    (hm : d.ticking = true ∨ fld d F.SU_STAT_MODE 0 = 4) :
    writeSuCtrl w v d = setAll [(F.SU_CTRL_STATUS, 0, 2)] ((regWrite d w.toNat A.SU_CTRL v).withSu
      (if fld d F.SU_STAT_MODE 0 = 4 then { d.su with release := true, releaseRetest := false } else d.su)) := by
  have hM := fld_regWrite_reg d w.toNat A.SU_CTRL v F.SU_STAT_MODE 0 (by decide)
  have hS := (status_regWrite d w.toNat v).trans hs
  have hU := regWrite_su d w.toNat A.SU_CTRL v
  have hT := regWrite_ticking d w.toNat A.SU_CTRL v
  unfold writeSuCtrl
  dsimp only
  rw [if_neg (flag_of_disabled he), ← hM, ← hU]
  rw [← hM, ← hT] at hm
  generalize regWrite d w.toNat A.SU_CTRL v = e at hm hS ⊢
  have hc : (e.ticking || fld e F.SU_STAT_MODE 0 = 4) = true := by simpa using hm
  rw [if_pos hS, if_pos hc, fld_setf_reg _ _ _ _ _ _ (by decide)]
  by_cases h : fld e F.SU_STAT_MODE 0 = 4
  · rw [if_pos h, if_pos h, setf_su]
    exact (setf_withSu ..).symm
  · rw [if_neg h, if_neg h, withSu_self]
    rfl

/-- ENABLE = 0 while no ticks run and no takeover is in force: SU is OFF. -/
theorem writeSuCtrl_off (he : F.SU_CTRL_ENABLE.of v = 0) (hs : fld d F.SU_CTRL_STATUS 0 = 1)
    (ht : d.ticking = false) (hm : fld d F.SU_STAT_MODE 0 ≠ 4) :
    writeSuCtrl w v d = suOff (regWrite d w.toNat A.SU_CTRL v) := by
  have hM := fld_regWrite_reg d w.toNat A.SU_CTRL v F.SU_STAT_MODE 0 (by decide)
  have hS := (status_regWrite d w.toNat v).trans hs
  have hT := regWrite_ticking d w.toNat A.SU_CTRL v
  unfold writeSuCtrl
  dsimp only
  rw [if_neg (flag_of_disabled he)]
  rw [← hM] at hm
  rw [← hT] at ht
  generalize regWrite d w.toNat A.SU_CTRL v = e at hm hS ht ⊢
  have hc : ¬(e.ticking || fld e F.SU_STAT_MODE 0 = 4) = true := by simpa [ht] using hm
  rw [if_pos hS, if_neg hc, if_neg (mode_suOff hm)]

end

/-! ## The end of a test (R263, R397) -/

/-- The signature is the one expected. -/
theorem crc_eq_iff (d : Dev) (v : W24) : v = w24 (fld d F.SU_KAT_SIG_SIG 0) ↔ v.toNat = fld d F.SU_KAT_SIG_SIG 0 := by
  have hlt : fld d F.SU_KAT_SIG_SIG 0 < 2 ^ 24 := fld_lt d F.SU_KAT_SIG_SIG 0
  rw [← BitVec.toNat_inj, w24, BitVec.toNat_ofNat, Nat.mod_eq_of_lt hlt]

section
variable {d : Dev} (hi : inKat d 16 = true) (hr : (core d 16).run = .ended)
include hi hr

theorem katEnd_pass (hu : (core d 16).und = false) (hs : (core d 16).spoilt = false)
    (hc : (core d 16).crc.toNat = fld d F.SU_KAT_SIG_SIG 0) : katEnd d = judgeKat d 1 := by
  have := (crc_eq_iff d _).2 hc
  unfold katEnd
  simp [hi, hr, hu, hs, this]

theorem katEnd_fail (h : (core d 16).und = true ∨ (core d 16).spoilt = true
      ∨ (core d 16).crc.toNat ≠ fld d F.SU_KAT_SIG_SIG 0) : katEnd d = judgeKat d 2 := by
  have := mt (crc_eq_iff d (core d 16).crc).1
  unfold katEnd
  rcases h with h | h | h <;> simp [hi, hr, h, this]

end

/-- A test after a mismatch that passes leads to the retest (R265). -/
theorem Su.judged_pass (u : Su) :
    u.judged 1 = { u with
      katNow := 0, retest := if u.katNow = 1 ∨ u.katNow = 4 then u.first.map (·.1) else u.retest } := by
  unfold Su.judged
  by_cases h : u.katNow = 1 ∨ u.katNow = 4 <;> simp [h]

/-! ## The rows -/

/-- SU_KAT_END with a judgement. -/
theorem does_katEnd {s : State} {x : Nat} {rest : Dev → Dev} (hh : halted s.dev = false)
    (hk : katEnd s.dev = judgeKat s.dev x) (hr : { suIdle s.dev with su := s.dev.su.judged x } = rest s.dev) :
    Does .suKatEnd s s.dev (judgedFields s.dev x) rest :=
  does_onDev (congrArg _ (State.act_run hh katEnd)) (hk.trans (judgeKat_eq s.dev x)) hr rfl

theorem takeoverAnswer_busy {d : Dev} (h : suBusy d) : takeoverAnswer d = 2 := if_pos h

theorem takeoverAnswer_fault {d : Dev} (h : ¬suBusy d) (hm : fld d F.SU_STAT_MODE 0 = 5) : takeoverAnswer d = 3 := by
  rw [takeoverAnswer, if_neg h, if_pos hm]

theorem takeoverAnswer_off {d : Dev} (h : ¬suBusy d) (hm : fld d F.SU_STAT_MODE 0 ≠ 5)
    (hs : fld d F.SU_CTRL_STATUS 0 ≠ 1) : takeoverAnswer d = 4 := by
  rw [takeoverAnswer, if_neg h, if_neg hm, if_pos hs]

theorem takeoverAnswer_ok {d : Dev} (h : ¬suBusy d) (hm : fld d F.SU_STAT_MODE 0 ≠ 5)
    (hs : fld d F.SU_CTRL_STATUS 0 = 1) : takeoverAnswer d = 1 := by
  rw [takeoverAnswer, if_neg h, if_neg hm, if_neg (fun h => h hs)]

/-- SU_TAKEOVER_CMD refused. -/
theorem does_takeover_refused {s : State} {w : BitVec 6} {v : W24} {x : Nat} (hw : s.takes w)
    (ht : F.SU_CMD_TAKEOVER.of v = 1) (hr : ¬F.SU_CMD_RELEASE.of v = 1) (hc : ¬F.SU_CMD_CLRFAULT.of v = 1)
    (ha : takeoverAnswer s.dev = x) (hx : x ≠ 1) :
    Does (.suTakeoverCmd w v) s
      (regWrite s.dev w.toNat A.SU_CMD (F.SU_CMD_ENG.put v (fld s.dev F.SU_CMD_ENG 0)))
      [(F.SU_CMD_RESULT, 0, x)] id := by
  subst ha
  exact does_writeRegs hw rfl (writeSuCmd_refused ht hr hc hx)

theorem suTesting_regWrite (d : Dev) (w : Nat) (v : W24) : suTesting (regWrite d w A.SU_CMD v) = suTesting d := by
  unfold suTesting
  rw [fld_regWrite_reg _ _ _ _ F.SU_STAT_MODE 0 (by decide), regWrite_su]

/-- What an accepted TAKEOVER changes, from the registers before the write. -/
theorem suTaking_regWrite (d : Dev) (w : Nat) (v : W24) (n : Nat) :
    suTaking (regWrite d w A.SU_CMD v) n =
      let e := regWrite d w A.SU_CMD v
      if suTesting d then (if fld d F.SU_STAT_MODE 0 = 2 then suIdle e else e).withSu (d.su.taking n).abandoned
      else e.withSu (d.su.taking n) := by
  have hm := fld_regWrite_reg d w A.SU_CMD v F.SU_STAT_MODE 0 (by decide)
  unfold suTaking
  simp only [suTesting_regWrite, hm, regWrite_su]

theorem takingFields_regWrite (d : Dev) (w : Nat) (v : W24) :
    takingFields (regWrite d w A.SU_CMD v) = takingFields d := by
  unfold takingFields
  simp only [suTesting_regWrite]

/-- SU_TAKEOVER_CMD accepted. -/
theorem does_takeover_accepted {s : State} {w : BitVec 6} {v : W24} {rest : Dev → Dev} (hw : s.takes w)
    (ht : F.SU_CMD_TAKEOVER.of v = 1) (hr : ¬F.SU_CMD_RELEASE.of v = 1) (hc : ¬F.SU_CMD_CLRFAULT.of v = 1)
    (ha : takeoverAnswer s.dev = 1)
    (he : suTaking (regWrite s.dev w.toNat A.SU_CMD v) (F.SU_CMD_ENG.of v) = rest (regWrite s.dev w.toNat A.SU_CMD v)) :
    Does (.suTakeoverCmd w v) s (regWrite s.dev w.toNat A.SU_CMD v) (takingFields s.dev) rest := by
  refine does_write hw rfl (e := suTaking (regWrite s.dev w.toNat A.SU_CMD v) (F.SU_CMD_ENG.of v)) ?_ he ?_
  · rw [writeSuCmd_accepted ht hr hc ha, takingFields_regWrite]
  · unfold suTaking
    repeat' split
    all_goals rfl

/-- Two fields of different registers are set in either order. -/
theorem regAfter_swap {f g : Fld} {i j : Nat} (x y : Nat) (l : List (Fld × Nat × Nat)) (h : f.addr i ≠ g.addr j)
    (a : Nat) (v : W24) : regAfter ((f, i, x) :: (g, j, y) :: l) a v = regAfter ((g, j, y) :: (f, i, x) :: l) a v := by
  unfold regAfter
  rw [List.foldl_cons, List.foldl_cons, List.foldl_cons, List.foldl_cons]
  congr 1
  dsimp only
  grind

/-- The order of fields of different registers does not matter. -/
theorem Does.congr {i : Instr} {s : State} {base : Dev} {l l' : List (Fld × Nat × Nat)} {rest : Dev → Dev}
    (h : Does i s base l rest) (e : ∀ a v, regAfter l' a v = regAfter l a v) : Does i s base l' rest := by
  obtain ⟨t, ht, hregs, hrest⟩ := h
  exact ⟨t, ht, fun a => (hregs a).trans (e a _).symm, hrest⟩

/-- ENABLE = 0 that makes SU OFF at once. -/
theorem does_off {s : State} {w : BitVec 6} {v : W24} (hw : s.takes w) (he : F.SU_CTRL_ENABLE.of v = 0)
    (hs : fld s.dev F.SU_CTRL_STATUS 0 = 1) (ht : s.dev.ticking = false) (hm : fld s.dev F.SU_STAT_MODE 0 ≠ 4) :
    Does (.suEnableWrite w v) s (regWrite s.dev w.toNat A.SU_CTRL v)
      ((F.SU_CTRL_STATUS, 0, 0) :: if s.dev.su.kat = 3 ∨ s.dev.su.katNow = 3 then [(F.SU_STAT_MODE, 0, 5)] else [])
      fun d => d.withSu s.dev.su.off := by
  have hf := (writeSuCtrl_off (w := w) he hs ht hm).trans (suOff_eq _)
  rw [regWrite_su] at hf
  have h : Does (.suEnableWrite w v) s (regWrite s.dev w.toNat A.SU_CTRL v) (offFields s.dev.su)
      fun d => d.withSu s.dev.su.off := does_write hw rfl hf rfl rfl
  refine h.congr fun a v => ?_
  unfold offFields
  split
  · exact regAfter_swap 0 5 [] (by decide) a v
  · rfl

/-- Settles O24: the judgement, the answer to TAKEOVER and each write, by their cases. -/
theorem understudyRows : Obligations.UnderstudyRows := by
  unfold Obligations.UnderstudyRows
  intro s w v hw
  refine ⟨fun hi hr hu hs hc => ?_, fun hi hr h => ?_, fun ht hr hc hb => ?_, fun ht hr hc hb hm => ?_,
    fun ht hr hc hb hm hs => ?_, fun ht hr hc hb hm hs => ?_, fun ht hr hc => ?_, fun ht hr hc => ?_, fun he => ?_,
    fun he hs hm => ?_, fun he hs ht hm => ?_, fun he hs => ?_⟩
  · refine does_katEnd hw.1 (katEnd_pass hi hr hu hs hc) ?_
    rw [Su.judged_pass]
  · exact does_katEnd hw.1 (katEnd_fail hi hr h) rfl
  · exact does_takeover_refused hw ht hr hc (takeoverAnswer_busy hb) (by decide)
  · exact does_takeover_refused hw ht hr hc (takeoverAnswer_fault hb hm) (by decide)
  · exact does_takeover_refused hw ht hr hc (takeoverAnswer_off hb hm hs) (by decide)
  · exact does_takeover_accepted hw ht hr hc (takeoverAnswer_ok hb hm hs) (suTaking_regWrite s.dev w.toNat v _)
  · exact does_write hw rfl (writeSuCmd_release ht hr hc) rfl rfl
  · exact does_write hw rfl (writeSuCmd_clrFault ht hr hc) rfl rfl
  · exact does_writeRegs hw rfl (writeSuCtrl_enabled he)
  · exact does_write hw rfl (writeSuCtrl_drains he hs hm) rfl rfl
  · exact does_off hw he hs ht hm
  · exact does_writeRegs hw rfl (writeSuCtrl_idle he hs)

end Sys2Proof.Machine
end

section
/-!
PROOFS. A tick edge at which the device comes to HALTED (R402): what waited behind a held Board write waits on, where the
same writes made after the edge would be dropped.
-/
namespace Sys2Proof.Machine

/-! ## The stages of a tick edge -/

/-- A loop whose every step changes bus records alone changes bus records alone. -/
theorem forAll_buses {f : Dev → Nat → Dev} (hf : ∀ d n, { f d n with buses := d.buses } = d) :
    ∀ (l : List Nat) (d : Dev), { forAll l f d with buses := d.buses } = d
  | [], _ => rfl
  | n :: l, d =>
    (congrArg (fun x : Dev => { x with buses := d.buses }) (forAll_buses hf l (f d n))).trans (hf d n)

/-- A bus under the sampling of its causes. -/
def sampleBus (d : Dev) (b : Nat) : Dev :=
  if (bus d b).cz = busCauses d b then d else setBus d b { bus d b with cz := busCauses d b }

/-- The sampling of the causes, over the buses of a list. -/
def sampleOver (l : List Nat) (d : Dev) : Dev :=
  let d := forAll l sampleBus d
  let d := { d with col := { d.col with swS := d.col.sw, disS := disabledPos d,
                                        dis := d.col.disAll || !flag d F.CUE_STAGE_LOADED 0, clkS := d.col.clk } }
  { d with col := { d.col with locS := locDisabled d } }

theorem causesEdge_eq_sampleOver (d : Dev) : causesEdge d = sampleOver (List.range 512) d := by
  unfold causesEdge sampleCauses
  generalize List.range 512 = l
  rfl

theorem sampleBus_frame (d : Dev) (b : Nat) : { sampleBus d b with buses := d.buses } = d := by
  unfold sampleBus
  exact ite_ind (fun x : Dev => { x with buses := d.buses } = d) rfl rfl

/-- Sampling the causes reaches the buses and the Collector alone (R256). -/
theorem sampleOver_eq (l : List Nat) (d : Dev) :
    sampleOver l d = { d with buses := (sampleOver l d).buses, col := (sampleOver l d).col } :=
  congrArg (fun x : Dev => { x with buses := (sampleOver l d).buses, col := (sampleOver l d).col })
    (forAll_buses sampleBus_frame l d)

/-- A bus under the seeing of its enable. -/
def seeEnable (d : Dev) (b : Nat) : Dev :=
  if (bus d b).on && !flag d F.COLLN_CFG_EN b then setBus d b { bus d b with on := false } else d

theorem seeEnable_frame (d : Dev) (b : Nat) : { seeEnable d b with buses := d.buses } = d := by
  unfold seeEnable
  exact ite_ind (fun x : Dev => { x with buses := d.buses } = d) rfl rfl

/-- Seeing the enables reaches the buses alone (R246). -/
theorem busEnables_eq (d : Dev) : busEnables d = { d with buses := (busEnables d).buses } :=
  congrArg (fun x : Dev => { x with buses := (busEnables d).buses }) (forAll_buses seeEnable_frame (d.buses.map (·.1)) d)

/-- The edge's first phase up to the sampling of the causes. -/
def edgeEve (d : Dev) : Dev :=
  let d := txSend d
  let d := forAll (strmOn d true) txStatus d
  let d := locEdges d
  let d := forAll (List.range 16) ovrEdge d
  let mc := d.mc
  let d := if d.ticking then txLatchAll (egressLatch d) mc else d
  forAll (List.range 16) ovrSettle d

/-- The start of the tick from the enables of the buses on. -/
def edgeTail (d : Dev) : Dev :=
  let d := suEdge (houseEdge d)
  let d := forAll (List.range 16) positionEdge d
  let d := setf d F.TICK_CUTOFF_EFF_EFF 0 (cutoffEff d)
  if flag d F.CUE_STAGE_LOADED 0 && !d.gov.started then govStart { d with gov := { d.gov with started := true } } else d

theorem edgeLatch_eq (d : Dev) : edgeLatch d = boardEdge { tuEdge (causesEdge (edgeEve d)) with wrote := [] } := by
  unfold edgeLatch edgeEve
  generalize List.range 16 = l
  rfl

theorem edgeStart_eq (d : Dev) :
    edgeStart d = edgeTail (busEnables (strmCtrlStatus (forAll (strmOn (forAll (strmOn d false) rxEdge d) true) txHold
      (forAll (strmOn d false) rxEdge d)))) := by
  unfold edgeStart edgeTail
  generalize List.range 16 = l
  rfl

/-- The edge from MCS's part on: `set` and `d` are what that answers. -/
def edgeOn (changed set : Bool) (d : Dev) : Dev :=
  let d := edgeStart (edgeCue changed { d with mc := mcNext d set })
  if d.mcs.change = 3 || d.house.gated || halted d then ticksStop d else d

/-- A tick edge that is not gated and that something makes. -/
theorem tickEdge_eq {d L : Dev} {dt : Nat} (h1 : noEdges (tickTime d dt) = false)
    (h2 : (tickTime d dt).house.gated = false) (h3 : edgeLatch (edgeEnds (tickTime d dt) dt) = L) :
    tickEdge d dt = edgeOn (!(tickTime d dt).ticking && (tickTime d dt).mcs.change = 4)
      (mcsEdge { L with ticking := true, tick := L.tick + 1 }).1
      (mcsEdge { L with ticking := true, tick := L.tick + 1 }).2 := by
  unfold tickEdge
  generalize tickTime d dt = D at *
  refine (if_neg (by rw [h1]; decide)).trans ((if_neg (by rw [h2]; decide)).trans ?_)
  rw [h3]
  extract_lets c d
  generalize mcsEdge _ = r
  obtain ⟨set, d'⟩ := r
  change _ = edgeOn c set d'
  rfl

/-! ## A device that comes to HALTED at its next edge -/

/-- Stage 2 is locked, and TAMPHALT waits for curtains that are CLOSED (R402), accesses `l` waiting behind a held Board
write. -/
def haltsNext (l : List (Nat × Nat × Option W24)) : Dev :=
  { setf ({} : Dev) F.MCS_STAT_S2LOCK 0 1 with house := { trans := 8 }, boardHeld := l }

theorem haltsNext_up (l : List (Nat × Nat × Option W24)) : halted (haltsNext l) = false :=
  (show halted (haltsNext l) = halted (haltsNext []) from rfl).trans (by decide)

/-- No access, or two, that wait. -/
def waitingLists : List (List (Nat × Nat × Option W24)) := [[], [(0, 0, some 0), (0, 0, some 0)]]

theorem haltsNext_runs : ∀ l ∈ waitingLists, noEdges (tickTime (haltsNext l) 0) = false
    ∧ (tickTime (haltsNext l) 0).house.gated = false := by decide +kernel

theorem edgeEve_haltsNext : ∀ l ∈ waitingLists, edgeEve (edgeEnds (tickTime (haltsNext l) 0) 0) = haltsNext l := by
  decide +kernel

theorem edgeLatch_haltsNext {l : List (Nat × Nat × Option W24)} (hl : l ∈ waitingLists) :
    edgeLatch (edgeEnds (tickTime (haltsNext l) 0) 0)
      = boardEdge { tuEdge { haltsNext l with
          buses := (sampleOver (List.range 512) (haltsNext l)).buses
          col := (sampleOver (List.range 512) (haltsNext l)).col } with wrote := [] } := by
  rw [edgeLatch_eq, edgeEve_haltsNext l hl, causesEdge_eq_sampleOver, ← sampleOver_eq]

/-- The edge halts the device, and what waited waits. -/
theorem tickEdge_haltsNext : ∀ l ∈ waitingLists,
    halted (tickEdge (haltsNext l) 0) = true ∧ (tickEdge (haltsNext l) 0).boardHeld = l := by
  intro l hl
  obtain ⟨h1, h2⟩ := haltsNext_runs l hl
  rw [tickEdge_eq h1 h2 (edgeLatch_haltsNext hl)]
  unfold edgeOn
  rw [edgeStart_eq, busEnables_eq]
  clear h1 h2
  revert l
  decide +kernel

/-! ## What waits does not proceed there -/

/-- A tick edge that halts the device ends with it: nothing that waits proceeds. -/
theorem exec_tickEdge_halts {s : State} {dt : BitVec 16} {d : Dev} (hu : s.up) (hd : tickEdge s.dev dt.toNat = d)
    (hh : halted d = true) : exec (.tickEdge dt) s = .next { s with dev := d } := by
  subst hd
  exact congrArg Host.Outcome.next ((congrArg boardGo (State.act_run hu _)).trans
    (boardGo_halted (s := s.onDev fun d => tickEdge d dt.toNat) hh))

/-- A register write does nothing while the device is HALTED (R402). -/
theorem exec_registerWrite_halted {s : State} (w : BitVec 6) (a : W24) (v : BusWord) (hh : halted s.dev = true) :
    exec (.registerWrite w a v) s = .next s :=
  congrArg Host.Outcome.next ((congrArg boardGo (State.whileUp_halted hh _)).trans (boardGo_halted hh))

/-- Where an edge halts the device, two writes made after it leave what the edge left; so they are not what the edge does
of the same two writes waiting. -/
theorem halting_edge_no_replay {s later : State} {dt : BitVec 16} {S L : Dev} (w m : BitVec 6) (a b : W24)
    (v u : BusWord) (hs : s.up) (hS : tickEdge s.dev dt.toNat = S) (hS4 : halted S = true)
    (hl : later.up) (hL : tickEdge later.dev dt.toNat = L) (hL4 : halted L = true) (hne : L.boardHeld ≠ S.boardHeld) :
    ¬ ∃ t t', exec (.tickEdge dt) s = .next t ∧ exec (.registerWrite w a v) t = .next t'
      ∧ exec (.tickEdge dt) later = exec (.registerWrite m b u) t' := by
  rintro ⟨t, t', ht, ht', heq⟩
  rw [exec_tickEdge_halts hs hS hS4] at ht
  cases ht
  rw [exec_registerWrite_halted (s := { s with dev := S }) w a v hS4] at ht'
  cases ht'
  rw [exec_registerWrite_halted (s := { s with dev := S }) m b u hS4, exec_tickEdge_halts hl hL hL4] at heq
  exact hne (congrArg (fun s : State => s.dev.boardHeld) (Host.Outcome.next.inj heq))

/-- Refutes O54: at the edge at which TAMPHALT's curtains are CLOSED the device is HALTED, and two writes that wait behind a
held Board write wait on; made after that edge, the same two writes are dropped. -/
theorem not_registerWriteRow : ¬ Obligations.RegisterWriteRow := by
  unfold Obligations.RegisterWriteRow
  intro h
  obtain ⟨-, -, -, -, -, -, -, hreplay, -⟩ := h { dev := haltsNext [] } 0 0 0 0 true ⟨0, 0, 0, []⟩ 0 0 0
    .suKatEnd 0 0 [] 0 0 0 0
  have hr := hreplay (haltsNext_up []) rfl (by decide) (by decide) (.tickEdge 0) (by simp)
  obtain ⟨hT, hTb⟩ := tickEdge_haltsNext [] (by decide)
  obtain ⟨hW, hWb⟩ := tickEdge_haltsNext [(0, 0, some 0), (0, 0, some 0)] (by decide)
  exact halting_edge_no_replay (s := { dev := haltsNext [] })
    (later := { dev := haltsNext [(0, 0, some 0), (0, 0, some 0)] }) (dt := 0)
    (S := tickEdge (haltsNext []) 0) (L := tickEdge (haltsNext [(0, 0, some 0), (0, 0, some 0)]) 0)
    0 0 0 0 { word := 0, whole := true } { word := 0, whole := true } (haltsNext_up []) rfl hT (haltsNext_up _) rfl hW
    (fun e => absurd (hWb.symm.trans (e.trans hTb)) (by decide)) hr

end Sys2Proof.Machine
end

section
/-!
PROOFS. LDC and STC: what holds a core, and the access that the word makes as it executes (R82, R89, R437).
-/
namespace Sys2Proof.Machine

/-! ## The core that a word meets -/

/-- Counting a repetition down moves no register. -/
theorem Core.tick_x (k : Core) (r : BitVec 5) : k.tick.x r = k.x r := by unfold Core.tick; split <;> rfl

/-- The control-space address of an LDC or STC. -/
abbrev ctlAddr (d : Dev) (h : Hdr) (xa : BitVec 5) (dd : BitVec 10) : Nat := ((here d h).x xa + dd.signExtend 24).toNat

/-- The address of an access, by the core that the word's effects meet. -/
theorem here_ea (d : Dev) (h : Hdr) (xa : BitVec 5) (dd : BitVec 10) :
    (core d h.core.val).begin.ea xa dd = ctlAddr d h xa dd := by
  unfold ctlAddr
  rw [Core.tick_x]; rfl

/-- A word of a core that is ready, its condition holding, executes now. -/
theorem issues_of_ready {d : Dev} {h : Hdr} {w : Word} (hr : Ready d h) (hc : Passes d h) (hs : staticCase d h w = 0) :
    issues d h w = true := by
  have hlate := Core.lateFor_none hr.late (w.reads (core d h.core.val).begin)
  have hcond : condHolds h.cond.toNat (core d h.core.val).begin.st (core d h.core.val).begin.preds = true := hc
  unfold issues
  dsimp only
  rw [hr.run, hr.hold, hr.fetch, hs, hcond, hr.kat, if_neg Bool.false_ne_true, hlate]
  rfl

theorem staticCase_ldc {d : Dev} {h : Hdr} (hc : Passes d h) (r xa : BitVec 5) (v : W24) :
    staticCase d h (wordLdc r xa v) = 0 := staticCase_zero rfl rfl rfl rfl hc.cond

theorem staticCase_stc {d : Dev} {h : Hdr} (hc : Passes d h) (r xa : BitVec 5) :
    staticCase d h (wordStc true r xa) = 0 := staticCase_zero rfl rfl rfl rfl hc.cond

/-! ## Held accesses -/

/-- A held core keeps its word, its visible loads written. -/
theorem wordDone_hold {i : Instr} {h : Hdr} {s : State} {x : Hold}
    (he : exec i s = .next (s.onDev fun d => holdCore d h.core.val x)) :
    WordDone i h s { (core s.dev h.core.val).begin with hold := x } :=
  ⟨_, he, core_updCore_same .., .updCore .., rfl, rfl⟩

theorem ctlHold_busy {s : State} {c a : Nat} {write : Bool} (h : busyAt s.dev a write = true) :
    ctlHold s c a write = some .busy := by
  simp [ctlHold, h]

theorem ctlHold_board {s : State} {c a : Nat} {write : Bool} (hp : heldByPb s c = false) (hw : heldByWlive s c = false)
    (hb : heldByBoard s c = true) (h : busyAt s.dev a write = false) : ctlHold s c a write = some .board := by
  simp [ctlHold, hp, hw, hb, h]

/-! ## The words by their cases -/

section
variable {s : State} {h : Hdr} {r xa : BitVec 5} {dd : BitVec 10} (hr : Ready s.dev h) (hc : Passes s.dev h)
include hr hc

/-- LDC held. -/
theorem runLdc_held {x : Hold} (hx : ctlHold s h.core.val (ctlAddr s.dev h xa dd) false = some x) :
    runLdc h r xa dd s = s.onDev fun d => holdCore d h.core.val x := by
  unfold runLdc
  dsimp only
  rw [if_pos (issues_of_ready hr hc (staticCase_ldc hc r xa 0)), here_ea, hx]

/-- LDC reads as its core's own identity, and its word carries the value. -/
theorem runLdc_reads (hx : ctlHold s h.core.val (ctlAddr s.dev h xa dd) false = none) :
    runLdc h r xa dd s =
      let read := readAny (ctlMaster s.dev h.core.val) (ctlAddr s.dev h xa dd) s
      read.2.onDev (runWord (wordLdc r xa read.1) h) := by
  unfold runLdc
  dsimp only
  rw [if_pos (issues_of_ready hr hc (staticCase_ldc hc r xa 0)), here_ea, hx]

/-- STC held. -/
theorem runStc_held {x : Hold} (hp : isPc h.core.val = true)
    (hx : ctlHold s h.core.val (ctlAddr s.dev h xa dd) true = some x) :
    runStc h r xa dd s = s.onDev fun d => holdCore d h.core.val x := by
  unfold runStc
  dsimp only
  rw [hp, if_pos (issues_of_ready hr hc (staticCase_stc hc r xa)), here_ea, hx]

/-- STC to an address off the Board's views: its word ends, then the register is written. -/
theorem runStc_writes (hp : isPc h.core.val = true)
    (hx : ctlHold s h.core.val (ctlAddr s.dev h xa dd) true = none)
    (ha : ctlAddr s.dev h xa dd < 0x42000 ∨ 0x44000 ≤ ctlAddr s.dev h xa dd) :
    runStc h r xa dd s = boardGo (writeAny (BitVec.ofNat 6 h.core.val) (ctlAddr s.dev h xa dd)
      ((here s.dev h).x r) (s.onDev (runWord (wordStc true r xa) h))) := by
  have hb : (decide (0x42000 ≤ ctlAddr s.dev h xa dd) && decide (ctlAddr s.dev h xa dd < 0x44000)) = false := by
    rw [Bool.and_eq_false_iff, decide_eq_false_iff_not, decide_eq_false_iff_not]
    omega
  unfold runStc
  dsimp only
  rw [hp, if_pos (issues_of_ready hr hc (staticCase_stc hc r xa)), here_ea, hx]
  dsimp only
  rw [hb, Bool.false_and, Bool.false_and, if_neg Bool.false_ne_true, ← Core.tick_x (core s.dev h.core.val).begin r]

end

/-! ## The words -/

/-- LDC whose read has no effect of its own: the load is issued and nothing else changes. -/
theorem ldc_done {s : State} {h : Hdr} {r xa : BitVec 5} {dd : BitVec 10} {v : W24} (hr : Ready s.dev h)
    (hc : Passes s.dev h) (he : runLdc h r xa dd s = s.onDev (runWord (wordLdc r xa v) h)) :
    WordDone (.ldc h r xa dd) h s ((here s.dev h).issue ((here s.dev h).phys r) 3 v (!h.late)).follow :=
  have ⟨hone, hcore⟩ := runWord_local (w := wordLdc r xa v) hr rfl rfl (staticCase_ldc hc r xa v) hc rfl rfl
  ⟨_, congrArg Host.Outcome.next he, hcore, hone, rfl, rfl⟩

/-- Settles O20: what holds the access decides the word's course, and its own effects stay within its core. -/
theorem controlAccessWords : Obligations.ControlAccessWords := by
  unfold Obligations.ControlAccessWords
  intro h s r xa d10 hr hc
  refine ⟨fun hread hx => ldc_done hr hc ?_, fun hp hx ha => ?_, fun x _ => ⟨fun hx => ?_, fun hp hx => ?_⟩,
    fun hb => ctlHold_busy hb, fun hp hw hb hn => ctlHold_board hp hw hb hn⟩
  · exact (runLdc_reads hr hc hx).trans (congrArg (State.onDev _) hread)
  · obtain ⟨hone, hcore⟩ := runWord_local (w := wordStc true r xa) hr rfl rfl (staticCase_stc hc r xa) hc rfl rfl
    exact ⟨_, hone, hcore, congrArg Host.Outcome.next (runStc_writes hr hc hp hx ha)⟩
  · exact wordDone_hold (congrArg Host.Outcome.next (runLdc_held hr hc hx))
  · exact wordDone_hold (congrArg Host.Outcome.next (runStc_held hr hc hp hx))

end Sys2Proof.Machine
end
